-- ==== Sys2Proof/Word.lean ====
section
/-! DEFINITION. The word types of the machine and their plainest arithmetic. -/

namespace Sys2Proof

/-- A byte of memory. -/
abbrev Byte := BitVec 8

/-- A uniform register, a BAR0 register, an address while it is computed. -/
abbrev Word := BitVec 64

/-- A mask over the 32 lanes of a rope: bit i is lane i. -/
abbrev Mask := BitVec 32

/-- A vector register: 32 lanes of 32 bits, lane i in bits 32i + 31 to 32i. -/
abbrev VReg := BitVec 1024

/-- One 128-byte line: byte b in bits 8b + 7 to 8b (00_scope.md R15). -/
abbrev Line := BitVec 1024

end Sys2Proof
end

