-- ==== Sys2Proof/Syntax.lean ====
section
/-! DEFINITION. The commands of the block: one constructor of `Instr` for each row of
spec/opcode_table.json, with the operands the row needs. -/

namespace Sys2Proof

/-- An error event of a cluster SRAM met by a step: none, a single-bit error corrected in line, a
double-bit error (04_tensor_engine.md R133, 19_faults_and_errors.md R551). -/
inductive Ecc where
  | none | corrected | uncorrectable
  deriving DecidableEq, Repr

/-- Which rope issues an instruction: logical cluster, rope slot, and the SRAM event its operand
reads meet. -/
structure Issue where
  cluster : Nat
  slot : Nat
  ecc : Ecc
  deriving DecidableEq, Repr

/-- Format V (06_instruction_set.md Tables 6.1 and 6.2) less FMT and OP. -/
structure VFmt where
  ge : Bool
  gn : Bool
  gp : BitVec 3
  dst : BitVec 8
  sa : BitVec 8
  sb : BitVec 8
  sc : BitVec 8
  ua : Bool
  ub : Bool
  uc : Bool
  ty : BitVec 4
  mod : BitVec 10
  deriving DecidableEq, Repr

/-- Format I (06_instruction_set.md Table 6.3) less FMT and OP; `res` is bit 32. -/
structure IFmt where
  ge : Bool
  gn : Bool
  gp : BitVec 3
  dst : BitVec 8
  sa : BitVec 8
  res : Bool
  imm : BitVec 32
  deriving DecidableEq, Repr

/-- Format M (06_instruction_set.md Table 6.4) less FMT and OP. -/
structure MFmt where
  ge : Bool
  gn : Bool
  gp : BitVec 3
  data : BitVec 8
  addr : BitVec 8
  uaddr : Bool
  spc : Bool
  scope : BitVec 2
  size : BitVec 3
  sub : BitVec 4
  ch : BitVec 2
  off : BitVec 20
  deriving DecidableEq, Repr

/-- Format C (06_instruction_set.md Table 6.5) less FMT and OP; `res` is bits 53:49. -/
structure CFmt where
  res : BitVec 5
  bp : BitVec 3
  bn : Bool
  alw : Bool
  tgt : BitVec 22
  jn : BitVec 22
  deriving DecidableEq, Repr

/-- Who makes a register write: the external host, Square core k, or the reeve core. -/
inductive Master where
  | host
  | core (k : Nat)
  | reeve
  deriving DecidableEq, Repr

/-- A BAR0 write: master, BAR0 offset, size in bytes, value (12_host_interface.md R379). -/
structure BarWrite where
  master : Master
  offset : Nat
  size : Nat
  value : Word
  deriving DecidableEq, Repr

/-- What the host's memory answers to the reads a step makes of it: the bytes (host address, byte;
a byte not listed is 0), and the host addresses of 32-byte sectors whose read fails
(12_host_interface.md R392). -/
structure HostAnswer where
  cells : List (Nat × Byte)
  failed : List Nat
  deriving DecidableEq, Repr

/-- What upsets meet an access of a line: an owner-table parity error (09 R302); flip patterns of the sectors, 0 to 3,
that the access reads from HBM (256 data and 16 check bits, 11 R356), each at most once; the corrections that the
stack's on-die ECC reports of them (11 R366); a cache data error and the sector it is in (10 R342); a tag parity error
with a clean or dirty vote (10 R343); a directory error (10 R344). -/
structure Upset where
  ownerParity : Bool
  flips : List (Nat × BitVec 272)
  onDie : Nat
  cache : Ecc
  sector : Nat
  tagClean : Bool
  tagDirty : Bool
  dir : Ecc
  deriving DecidableEq, Repr

/-- What an agent's own access of a line is for: a unit behind the cache (with the NOALLOC flag of 08 Table 8.3), or
an instruction of a core of the agent's group on 2^size bytes from byte `off` of the line (14 R434 to R437): a load, a
store of the bytes that the command names, an AMO (an operation of 06 Table 6.14), LR, or SC. -/
inductive LineUse where
  | unit (noalloc : Bool)
  | load (core off size : Nat)
  | store (core : Nat)
  | amo (core off size sub : Nat) (operand compare : Word)
  | lr (core off size : Nat)
  | sc (core off size : Nat) (operand : Word)
  deriving DecidableEq, Repr

/-- The core that makes an access, if one does. -/
def LineUse.core : LineUse → Option Nat
  | .unit _ => none
  | .load k _ _ => some k
  | .store k => some k
  | .amo k _ _ _ _ _ => some k
  | .lr k _ _ => some k
  | .sc k _ _ _ => some k

/-- The access is for itself alone: a read that takes no write permission. -/
def LineUse.reads : LineUse → Bool
  | .unit _ => true
  | .load _ _ _ => true
  | _ => false

/-- The access may be a write of the line. -/
def LineUse.writes : LineUse → Bool
  | .load _ _ _ => false
  | _ => true

/-- The NOALLOC flag of the access. -/
def LineUse.noalloc : LineUse → Bool
  | .unit n => n
  | _ => false

/-- An agent's access of a line: what it is for, and what upsets meet it. -/
structure LineAccess where
  use : LineUse
  upset : Upset
  deriving DecidableEq, Repr

/-- An Ethernet frame as it arrives on a port: its destination MAC address, most significant octet first, its 802.1Q
tag if it has one, its EtherType, the 64 header bytes of 15_pod_transport.md Table 15.2, the payload, whether the FCS
is good. -/
structure Frame where
  port : Nat
  mac : List Byte
  tag : Option (BitVec 16)
  etherType : BitVec 16
  fcsOk : Bool
  header : List Byte
  payload : List Byte
  deriving DecidableEq, Repr

/-- A write TLP to BAR2: offset within BAR2, bytes with their byte enables, the EP bit, and by 32-byte sector of BAR2,
each at most once, the flips that meet the sector of device memory where a partial write reads it from its stack
(11_hbm_memory.md R365). -/
structure WriteTlp where
  offset : Nat
  bytes : List (Option Byte)
  ep : Bool
  flips : List (Nat × BitVec 272)
  deriving DecidableEq, Repr

/-- What the host unmasks in MSI-X: a vector, or by the function mask, as it writes it, all of them
(12_host_interface.md R394). -/
inductive MsixMask where
  | vector (n : Nat)
  | function (masked : Bool)
  deriving DecidableEq, Repr

/-- A range cache: that of a logical cluster, or the Square's (09_ranges_translation.md R293). -/
inductive RcId where
  | cluster (c : Nat)
  | square
  deriving DecidableEq, Repr

/-- An agent whose accesses pass through translation (09_ranges_translation.md Table 9.6 KIND and UNIT). -/
inductive XltAgent where
  | rope (cluster slot : Nat)
  | tensor (cluster : Nat)
  | haul (cluster : Nat)
  | cmdProc (queue : Nat)
  | coll (engine : Nat)
  | port (port : Nat)
  deriving DecidableEq, Repr

/-- A trace source (20_observation_and_test.md Table 20.1 SRC). -/
inductive TraceSrc where
  | rope (cluster slot : Nat)
  | tensor (cluster : Nat)
  | haul (cluster : Nat)
  | cmdProc (p : Nat)
  deriving DecidableEq, Repr

/-- An atomic operation at a home agent: an operation of 06 Table 6.14 or a tally add. -/
inductive HomeAtomic where
  | atom (sub size : Nat) (operand compare : Word)
  | tally (addend : BitVec 256)
  deriving DecidableEq, Repr

/-- A message between dies: the dies it goes from and to (4 is the Square), and the 128-byte line it is about, if any
(01_package_organisation.md R25, R26, R39). -/
structure D2dMsg where
  src : Nat
  dst : Nat
  line : Option Nat
  deriving DecidableEq, Repr

/-- A frame as a slice's sender sends it: its bits, and the messages whose slots begin in it. -/
structure D2dSent where
  bits : BitVec 1152
  msgs : List D2dMsg
  deriving DecidableEq, Repr

/-- A PTP message (15_pod_transport.md R477) received on a port, with its domain, sequence number and the time it
carries: a one-step or two-step Sync, a Follow_Up, a Delay_Req, a Delay_Resp, an Announce; or one that the node sends
there: a Delay_Req, or as grandmaster an Announce, or a Sync with its Follow_Up. -/
inductive PtpMsg where
  | sync (port domain seq : Nat) (twoStep : Bool) (origin : Nat)
  | followUp (port domain seq origin : Nat)
  | delayReq (port domain seq : Nat)
  | delayResp (port domain seq received : Nat)
  | announce (port domain : Nat)
  | sendDelayReq (port : Nat)
  | sendAnnounce (port : Nat)
  | sendSync (port : Nat)
  deriving DecidableEq, Repr


/-- A command of the block: one constructor for each row of spec/opcode_table.json, in its order. -/
inductive Instr where
  | uadd (i : Issue) (f : VFmt)
  | usub (i : Issue) (f : VFmt)
  | umul (i : Issue) (f : VFmt)
  | umulhu (i : Issue) (f : VFmt)
  | uand (i : Issue) (f : VFmt)
  | uor (i : Issue) (f : VFmt)
  | uxor (i : Issue) (f : VFmt)
  | ushl (i : Issue) (f : VFmt)
  | ushr (i : Issue) (f : VFmt)
  | usar (i : Issue) (f : VFmt)
  | umin (i : Issue) (f : VFmt)
  | umax (i : Issue) (f : VFmt)
  | ucmp (i : Issue) (f : VFmt)
  | utov (i : Issue) (f : VFmt)
  | vtou (i : Issue) (f : VFmt)
  | ptou (i : Issue) (f : VFmt)
  | utop (i : Issue) (f : VFmt)
  | sread (i : Issue) (f : VFmt)
  | vlaneid (i : Issue) (f : VFmt)
  | pand (i : Issue) (f : VFmt)
  | por (i : Issue) (f : VFmt)
  | pxor (i : Issue) (f : VFmt)
  | pandn (i : Issue) (f : VFmt)
  | umovi (i : Issue) (f : IFmt)
  | umovhi (i : Issue) (f : IFmt)
  | uaddi (i : Issue) (f : IFmt)
  | uandi (i : Issue) (f : IFmt)
  | uori (i : Issue) (f : IFmt)
  | ushli (i : Issue) (f : IFmt)
  | ushri (i : Issue) (f : IFmt)
  | vadd (i : Issue) (f : VFmt)
  | vsub (i : Issue) (f : VFmt)
  | vmul (i : Issue) (f : VFmt)
  | vmulh (i : Issue) (f : VFmt)
  | vand (i : Issue) (f : VFmt)
  | vor (i : Issue) (f : VFmt)
  | vxor (i : Issue) (f : VFmt)
  | vshl (i : Issue) (f : VFmt)
  | vshr (i : Issue) (f : VFmt)
  | vsar (i : Issue) (f : VFmt)
  | vmin (i : Issue) (f : VFmt)
  | vmax (i : Issue) (f : VFmt)
  | vsel (i : Issue) (f : VFmt)
  | vcmp (i : Issue) (f : VFmt)
  | vmov (i : Issue) (f : VFmt)
  | vpopc (i : Issue) (f : VFmt)
  | vmovi (i : Issue) (f : IFmt)
  | vaddi (i : Issue) (f : IFmt)
  | vfadd (i : Issue) (f : VFmt)
  | vfsub (i : Issue) (f : VFmt)
  | vfmul (i : Issue) (f : VFmt)
  | vfma (i : Issue) (f : VFmt)
  | vfmin (i : Issue) (f : VFmt)
  | vfmax (i : Issue) (f : VFmt)
  | vfcmp (i : Issue) (f : VFmt)
  | vfdiv (i : Issue) (f : VFmt)
  | vfsqrt (i : Issue) (f : VFmt)
  | vfrcp (i : Issue) (f : VFmt)
  | vfrsq (i : Issue) (f : VFmt)
  | vfexp2 (i : Issue) (f : VFmt)
  | vflog2 (i : Issue) (f : VFmt)
  | vcvt (i : Issue) (f : VFmt)
  | vshfl (i : Issue) (f : VFmt)
  | vred (i : Issue) (f : VFmt)
  | twait (i : Issue) (f : VFmt)
  | taccOpen (i : Issue) (f : VFmt)
  | tmma (i : Issue) (f : VFmt)
  | tstore (i : Issue) (f : VFmt)
  | taccLdp (i : Issue) (f : VFmt)
  | tcomb (i : Issue) (f : VFmt)
  | taccRel (i : Issue) (f : VFmt)
  | haulCopy (i : Issue) (f : VFmt)
  | haulGather (i : Issue) (f : VFmt)
  | haulScatter (i : Issue) (f : VFmt)
  | haulRed (i : Issue) (f : VFmt)
  | haulPut (i : Issue) (f : VFmt)
  | haulGet (i : Issue) (f : VFmt)
  | bellSig (i : Issue) (f : VFmt)
  | bellWait (i : Issue) (f : VFmt)
  | bellRead (i : Issue) (f : VFmt)
  | bellXchg (i : Issue) (f : VFmt)
  | ld (i : Issue) (f : MFmt)
  | st (i : Issue) (f : MFmt)
  | atom (i : Issue) (f : MFmt)
  | red (i : Issue) (f : MFmt)
  | tallyAdd (i : Issue) (f : MFmt)
  | tallyCvt (i : Issue) (f : MFmt)
  | tallyFlags (i : Issue) (f : MFmt)
  | spinwait (i : Issue) (f : MFmt)
  | glock (i : Issue) (f : MFmt)
  | gunlock (i : Issue) (f : MFmt)
  | fence (i : Issue) (f : MFmt)
  | nop (i : Issue) (f : CFmt)
  | bra (i : Issue) (f : CFmt)
  | call (i : Issue) (f : CFmt)
  | ret (i : Issue) (f : CFmt)
  | exit (i : Issue) (f : CFmt)
  | bar (i : Issue) (f : CFmt)
  | cairn (i : Issue) (f : IFmt)
  | ropeLivelock (cluster slot : Nat)
  | spinwaitReread (cluster slot : Nat) (host : HostAnswer)
  | glockPass (cluster slot : Nat)
  | partyLaunch (cluster : Nat)
  | partyEnd (cluster party : Nat)
  | tensorMilestone (cluster : Nat) (host : HostAnswer) (ecc : Ecc) (silent : Option (Nat × Word))
  | permitGrant (die : Nat)
  | permitLoss (cluster : Nat)
  | shadowCheck (cluster : Nat)
  | haulOpStart (cluster : Nat) (host : HostAnswer)
  | haulMilestone (cluster : Nat)
  | nopCmd (queue : Nat)
  | windowFence (queue : Nat)
  | launch (queue : Nat)
  | bellWaitCmd (queue : Nat)
  | bellSignal (queue : Nat)
  | hintHeavy (queue : Nat)
  | publish (queue : Nat) (host : HostAnswer)
  | init (queue : Nat)
  | close (queue : Nat)
  | discard (queue : Nat)
  | xltInv (queue : Nat)
  | tableLoad (queue : Nat) (host : HostAnswer)
  | ctxCreate (queue : Nat) (host : HostAnswer)
  | ctxDestroy (queue : Nat)
  | allReduce (queue : Nat)
  | reduceScatter (queue : Nat)
  | allGather (queue : Nat)
  | broadcast (queue : Nat)
  | reduce (queue : Nat)
  | barrier (queue : Nat)
  | muster (queue : Nat)
  | commandComplete (queue seq : Nat)
  | doorbell (master : Master) (value : Word)
  | fetch (queue : Nat) (host : HostAnswer)
  | sealReread (queue : Nat) (host : HostAnswer)
  | sealCrc (queue : Nat)
  | queueEnable (master : Master) (queue : Nat) (value : Word)
  | queueDisable (master : Master) (queue : Nat) (value : Word)
  | resume (master : Master) (queue : Nat) (value : Word)
  | ringEnable (master : Master) (ring : Nat) (value : Word)
  | ringDisable (master : Master) (ring : Nat) (value : Word)
  | headAdvance (master : Master) (ring : Nat) (value : Word)
  | runtimeStop (master : Master) (value : Word)
  | windowWrite (tlp : WriteTlp)
  | windowRead (offset length : Nat)
  | windowBaseWrite (master : Master) (window : Nat) (value : Word)
  | bootSramWrite (offset : Nat) (data : List (Option Byte))
  | registerWrite (write : BarWrite) (rival : Option BarWrite)
  | registerSignal (master : Master) (bell : Nat) (value : Word)
  | ownerWrite (master : Master) (bell : Nat) (value : Word)
  | invalidation (master : Master) (value : Word)
  | drain (cache : RcId)
  | applyOwner (master : Master) (value : Word)
  | applyOwnerDone
  | walk (agent : XltAgent) (ctx va need : Nat) (upset : Ecc)
  | retry (master : Master) (value : Word)
  | fatal (master : Master) (value : Word)
  | heldFaultAdmit
  | rds (agent ctx line : Nat) (access : LineAccess)
  | rdx (agent ctx line : Nat) (data : Line) (mask : BitVec 128) (access : LineAccess)
  | upg (agent ctx line : Nat) (data : Line) (mask : BitVec 128) (access : LineAccess)
  | wbd (agent line : Nat)
  | wbc (agent line : Nat)
  | rdcur (agent ctx line : Nat) (upset : Upset)
  | wrnc (agent ctx line : Nat) (data : Line) (mask : BitVec 128) (upset : Upset)
  | atomh (agent ctx addr : Nat) (op : HomeAtomic) (upset : Upset)
  | snpshr (agent line : Nat)
  | snpinv (agent line : Nat)
  | snpcur (agent line : Nat)
  | snprsp (agent line : Nat)
  | cmp (agent line : Nat)
  | nack (agent line : Nat)
  | requestResend (agent line : Nat) (upset : Upset)
  | installAck (agent line : Nat)
  | lineData (agent line : Nat) (upset : Upset)
  | clean (master : Master) (engine : Nat) (value : Word)
  | cleanInv (master : Master) (engine : Nat) (value : Word)
  | sweepDone (engine : Nat)
  | scrubRead (stack : Nat) (flips : List (Nat × BitVec 272)) (onDie : Nat)
  | refresh (stack bank : Nat)
  | rfm (stack bank : Nat)
  | hbmTempRead (stack : Nat) (celsius : Int)
  | parityRetry (stack sector : Nat) (again : Bool)
  | d2dFrame (link dir slice : Nat) (sent : D2dSent) (got : BitVec 1152)
  | replayTimeout (link dir slice : Nat)
  | d2dWireFail (link dir slice : Nat)
  | lockLost (generator : Nat)
  | powerSample (watts : Nat)
  | forcedPeriodEnd
  | powerTick (vin10mV : Nat)
  | hintEnd
  | tempRead (celsius : List Int)
  | thermtrip (die : Nat) (celsius : Int)
  | vin48OutOfRange (above : Bool)
  | pgDrop
  | vauxLoss
  | powerOnReset
  | cold (source : Option BarWrite)
  | keepMem (master : Master) (value : Word)
  | functionLevelReset
  | verify (master : Master) (value : Word)
  | romTime
  | verifyTime
  | clocks (locked : Bool)
  | links (failedSlices : List (Nat × Nat × Nat))
  | clusters (selftestFails : List (Nat × Nat))
  | memory (trained : BitVec 20)
  | services
  | retirementRequest (master : Master) (value : Word)
  | reeveWdt
  | beat (master : Master) (value : Word)
  | runtimeStall
  | routeWrite (master : Master) (source : Nat) (value : Word)
  | linkDown
  | completionTimeout (id : Nat)
  | apertureReadCompletion (id : Nat) (answer : HostAnswer)
  | msixUnmask (mask : MsixMask)
  | doeDiscovery (request : List Byte)
  | doeAbort
  | getVersion (request : List Byte)
  | getCapabilities (request : List Byte)
  | negotiateAlgorithms (request : List Byte)
  | getDigests (request : List Byte)
  | getCertificate (request : List Byte)
  | challenge (request : List Byte)
  | getMeasurements (request : List Byte)
  | keyExchange (request : List Byte)
  | finish (request : List Byte)
  | endSession (request : List Byte)
  | heartbeat (request : List Byte)
  | data (frame : Frame)
  | read (frame : Frame)
  | bell (frame : Frame)
  | ack (frame : Frame)
  | hold (frame : Frame)
  | refuse (frame : Frame)
  | ackTimer (peer : Nat)
  | rtoResend (peer psn : Nat)
  | portMaskRestore (peer port : Nat)
  | peerLost (peer : Nat)
  | portUp (port : Nat)
  | portDown (port : Nat)
  | bindingWrite (master : Master) (ctx : Nat) (value : Word)
  | ptpMessage (msg : PtpMsg)
  | ppsEdge
  | timeSet (master : Master) (value : Word)
  | segmentRun (frame : Frame)
  | credit (frame : Frame)
  | ready (frame : Frame)
  | musterAck (frame : Frame)
  | go (frame : Frame)
  | abort (frame : Frame)
  | timeout (ctx : Nat)
  | readyHoldExpiry (ctx : Nat)
  | pulse (frame : Option Frame)
  | traceAdmit (source : TraceSrc)
  | traceRingWrite (master : Master) (value : Word)
  | shadowRingWrite (master : Master) (value : Word)
  | errorRingWrite (master : Master) (value : Word)
  | freeze (master : Master) (value : Word)
  | clearAll (master : Master) (value : Word)
  | counterWrite (write : BarWrite) (hit : Bool)
  | sbTransfer (address : Nat) (write : Option Word) (parityOk : Bool)
  | tripClear (value : Word)
  | entdaa (address : BitVec 7)
  | setdasa (address : BitVec 7)
  | rstdaa
  | getstatus
  | bypass (bits : List Bool)
  | idcode (tap : Nat)
  | samplePreload (pins : List Bool) (bits : List Bool)
  | extest (bits : List Bool)
  | coreParity (core : Nat)
  | linkUp (speed width : Nat) (flit : Bool)
  | perstRelease
  | vin48InRange
  | vaux3v3Present
  | bootStageOverrun
  | l1Evict (cluster ctx line : Nat) (invalidate : Bool)
  | unsupportedDoeObject (request : List Byte)
  | unsupportedSpdmRequest (request : List Byte)
  deriving DecidableEq, Repr

end Sys2Proof
end

