-- ==== Sys2Proof/Decode.lean ====
section
/-! DEFINITION. The command that a word of the opcode table spells; and the words of the clusters' instructions
(06_instruction_set.md R177, R179, R191, Tables 6.1 to 6.5 and 6.8), whose fields the rows' operands carry. -/

namespace Sys2Proof

/-- The table gives no row any bits: its rows are commands of the block, not encoded words, so no word spells one. -/
def decodeTableWord (_nbits _w : Nat) : Option Instr := none

/-! ### The four formats (Tables 6.1 to 6.5) -/

/-- A truth value as one bit. -/
def bit1 (b : Bool) : BitVec 1 := BitVec.ofBool b

/-- Table 6.2, with opcode `op`. -/
def VFmt.word (op : BitVec 8) (f : VFmt) : Word :=
  0#2 ++ op ++ bit1 f.ge ++ bit1 f.gn ++ f.gp ++ f.dst ++ f.sa ++ f.sb ++ f.sc ++ bit1 f.ua ++ bit1 f.ub ++ bit1 f.uc ++
    f.ty ++ f.mod

/-- Table 6.3, with opcode `op`. -/
def IFmt.word (op : BitVec 8) (f : IFmt) : Word :=
  1#2 ++ op ++ bit1 f.ge ++ bit1 f.gn ++ f.gp ++ f.dst ++ f.sa ++ bit1 f.res ++ f.imm

/-- Table 6.4, with opcode `op`. -/
def MFmt.word (op : BitVec 8) (f : MFmt) : Word :=
  2#2 ++ op ++ bit1 f.ge ++ bit1 f.gn ++ f.gp ++ f.data ++ f.addr ++ bit1 f.uaddr ++ bit1 f.spc ++ f.scope ++ f.size ++
    f.sub ++ f.ch ++ f.off

/-- Table 6.5, with opcode `op`. -/
def CFmt.word (op : BitVec 8) (f : CFmt) : Word :=
  3#2 ++ op ++ f.res ++ f.bp ++ bit1 f.bn ++ bit1 f.alw ++ f.tgt ++ f.jn

/-- The format and the opcode of a word (Table 6.1). -/
def wordFmt (w : Word) : BitVec 2 := w.extractLsb' 62 2
def wordOp (w : Word) : BitVec 8 := w.extractLsb' 54 8

/-- The fields of format V. -/
def VFmt.ofWord (w : Word) : VFmt :=
  ⟨w.getLsbD 53, w.getLsbD 52, w.extractLsb' 49 3, w.extractLsb' 41 8, w.extractLsb' 33 8, w.extractLsb' 25 8,
    w.extractLsb' 17 8, w.getLsbD 16, w.getLsbD 15, w.getLsbD 14, w.extractLsb' 10 4, w.extractLsb' 0 10⟩

/-- The fields of format I. -/
def IFmt.ofWord (w : Word) : IFmt :=
  ⟨w.getLsbD 53, w.getLsbD 52, w.extractLsb' 49 3, w.extractLsb' 41 8, w.extractLsb' 33 8, w.getLsbD 32,
    w.extractLsb' 0 32⟩

/-- The fields of format M. -/
def MFmt.ofWord (w : Word) : MFmt :=
  ⟨w.getLsbD 53, w.getLsbD 52, w.extractLsb' 49 3, w.extractLsb' 41 8, w.extractLsb' 33 8, w.getLsbD 32, w.getLsbD 31,
    w.extractLsb' 29 2, w.extractLsb' 26 3, w.extractLsb' 22 4, w.extractLsb' 20 2, w.extractLsb' 0 20⟩

/-- The fields of format C. -/
def CFmt.ofWord (w : Word) : CFmt :=
  ⟨w.extractLsb' 49 5, w.extractLsb' 46 3, w.getLsbD 45, w.getLsbD 44, w.extractLsb' 22 22, w.extractLsb' 0 22⟩

/-! ### The opcode map (Table 6.8): every opcode it does not list is reserved -/

/-- Format V. -/
def instrV (op : Nat) (i : Issue) (f : VFmt) : Option Instr :=
  match op with
  | 0x01 => some (.uadd i f)
  | 0x02 => some (.usub i f)
  | 0x03 => some (.umul i f)
  | 0x04 => some (.umulhu i f)
  | 0x05 => some (.uand i f)
  | 0x06 => some (.uor i f)
  | 0x07 => some (.uxor i f)
  | 0x08 => some (.ushl i f)
  | 0x09 => some (.ushr i f)
  | 0x0A => some (.usar i f)
  | 0x0B => some (.umin i f)
  | 0x0C => some (.umax i f)
  | 0x0D => some (.ucmp i f)
  | 0x18 => some (.utov i f)
  | 0x19 => some (.vtou i f)
  | 0x1A => some (.ptou i f)
  | 0x1B => some (.utop i f)
  | 0x1C => some (.sread i f)
  | 0x1D => some (.vlaneid i f)
  | 0x20 => some (.vadd i f)
  | 0x21 => some (.vsub i f)
  | 0x22 => some (.vmul i f)
  | 0x23 => some (.vmulh i f)
  | 0x24 => some (.vand i f)
  | 0x25 => some (.vor i f)
  | 0x26 => some (.vxor i f)
  | 0x27 => some (.vshl i f)
  | 0x28 => some (.vshr i f)
  | 0x29 => some (.vsar i f)
  | 0x2A => some (.vmin i f)
  | 0x2B => some (.vmax i f)
  | 0x2C => some (.vsel i f)
  | 0x2D => some (.vcmp i f)
  | 0x2E => some (.vmov i f)
  | 0x2F => some (.vpopc i f)
  | 0x40 => some (.vfadd i f)
  | 0x41 => some (.vfsub i f)
  | 0x42 => some (.vfmul i f)
  | 0x43 => some (.vfma i f)
  | 0x44 => some (.vfmin i f)
  | 0x45 => some (.vfmax i f)
  | 0x46 => some (.vfcmp i f)
  | 0x48 => some (.vfdiv i f)
  | 0x49 => some (.vfsqrt i f)
  | 0x4A => some (.vfrcp i f)
  | 0x4B => some (.vfrsq i f)
  | 0x4C => some (.vfexp2 i f)
  | 0x4D => some (.vflog2 i f)
  | 0x50 => some (.vcvt i f)
  | 0x58 => some (.vshfl i f)
  | 0x59 => some (.vred i f)
  | 0x60 => some (.pand i f)
  | 0x61 => some (.por i f)
  | 0x62 => some (.pxor i f)
  | 0x63 => some (.pandn i f)
  | 0x70 => some (.twait i f)
  | 0x80 => some (.taccOpen i f)
  | 0x81 => some (.tmma i f)
  | 0x82 => some (.tstore i f)
  | 0x83 => some (.taccLdp i f)
  | 0x84 => some (.tcomb i f)
  | 0x85 => some (.taccRel i f)
  | 0x90 => some (.haulCopy i f)
  | 0x91 => some (.haulGather i f)
  | 0x92 => some (.haulScatter i f)
  | 0x93 => some (.haulRed i f)
  | 0x94 => some (.haulPut i f)
  | 0x95 => some (.haulGet i f)
  | 0xA0 => some (.bellSig i f)
  | 0xA1 => some (.bellWait i f)
  | 0xA2 => some (.bellRead i f)
  | 0xA3 => some (.bellXchg i f)
  | _ => none

/-- Format I. -/
def instrI (op : Nat) (i : Issue) (f : IFmt) : Option Instr :=
  match op with
  | 0x01 => some (.umovi i f)
  | 0x02 => some (.umovhi i f)
  | 0x03 => some (.uaddi i f)
  | 0x04 => some (.uandi i f)
  | 0x05 => some (.uori i f)
  | 0x06 => some (.ushli i f)
  | 0x07 => some (.ushri i f)
  | 0x10 => some (.vmovi i f)
  | 0x11 => some (.vaddi i f)
  | 0x20 => some (.cairn i f)
  | _ => none

/-- Format M. -/
def instrM (op : Nat) (i : Issue) (f : MFmt) : Option Instr :=
  match op with
  | 0x01 => some (.ld i f)
  | 0x02 => some (.st i f)
  | 0x08 => some (.atom i f)
  | 0x09 => some (.red i f)
  | 0x10 => some (.tallyAdd i f)
  | 0x11 => some (.tallyCvt i f)
  | 0x12 => some (.tallyFlags i f)
  | 0x18 => some (.spinwait i f)
  | 0x19 => some (.glock i f)
  | 0x1A => some (.gunlock i f)
  | 0x20 => some (.fence i f)
  | _ => none

/-- Format C. -/
def instrC (op : Nat) (i : Issue) (f : CFmt) : Option Instr :=
  match op with
  | 0x00 => some (.nop i f)
  | 0x01 => some (.bra i f)
  | 0x02 => some (.call i f)
  | 0x03 => some (.ret i f)
  | 0x04 => some (.exit i f)
  | 0x05 => some (.bar i f)
  | _ => none

/-- The instruction that a word names when a rope issues it; none for a reserved opcode. -/
def decodeRope (i : Issue) (w : Word) : Option Instr :=
  if wordFmt w = 0#2 then instrV (wordOp w).toNat i (VFmt.ofWord w)
  else if wordFmt w = 1#2 then instrI (wordOp w).toNat i (IFmt.ofWord w)
  else if wordFmt w = 2#2 then instrM (wordOp w).toNat i (MFmt.ofWord w)
  else instrC (wordOp w).toNat i (CFmt.ofWord w)

/-- The word of a cluster instruction, and who issues it; none for a command that is not one. -/
def encodeRope : Instr → Option (Issue × Word)
  | .uadd i f => some (i, f.word 0x01)
  | .usub i f => some (i, f.word 0x02)
  | .umul i f => some (i, f.word 0x03)
  | .umulhu i f => some (i, f.word 0x04)
  | .uand i f => some (i, f.word 0x05)
  | .uor i f => some (i, f.word 0x06)
  | .uxor i f => some (i, f.word 0x07)
  | .ushl i f => some (i, f.word 0x08)
  | .ushr i f => some (i, f.word 0x09)
  | .usar i f => some (i, f.word 0x0A)
  | .umin i f => some (i, f.word 0x0B)
  | .umax i f => some (i, f.word 0x0C)
  | .ucmp i f => some (i, f.word 0x0D)
  | .utov i f => some (i, f.word 0x18)
  | .vtou i f => some (i, f.word 0x19)
  | .ptou i f => some (i, f.word 0x1A)
  | .utop i f => some (i, f.word 0x1B)
  | .sread i f => some (i, f.word 0x1C)
  | .vlaneid i f => some (i, f.word 0x1D)
  | .vadd i f => some (i, f.word 0x20)
  | .vsub i f => some (i, f.word 0x21)
  | .vmul i f => some (i, f.word 0x22)
  | .vmulh i f => some (i, f.word 0x23)
  | .vand i f => some (i, f.word 0x24)
  | .vor i f => some (i, f.word 0x25)
  | .vxor i f => some (i, f.word 0x26)
  | .vshl i f => some (i, f.word 0x27)
  | .vshr i f => some (i, f.word 0x28)
  | .vsar i f => some (i, f.word 0x29)
  | .vmin i f => some (i, f.word 0x2A)
  | .vmax i f => some (i, f.word 0x2B)
  | .vsel i f => some (i, f.word 0x2C)
  | .vcmp i f => some (i, f.word 0x2D)
  | .vmov i f => some (i, f.word 0x2E)
  | .vpopc i f => some (i, f.word 0x2F)
  | .vfadd i f => some (i, f.word 0x40)
  | .vfsub i f => some (i, f.word 0x41)
  | .vfmul i f => some (i, f.word 0x42)
  | .vfma i f => some (i, f.word 0x43)
  | .vfmin i f => some (i, f.word 0x44)
  | .vfmax i f => some (i, f.word 0x45)
  | .vfcmp i f => some (i, f.word 0x46)
  | .vfdiv i f => some (i, f.word 0x48)
  | .vfsqrt i f => some (i, f.word 0x49)
  | .vfrcp i f => some (i, f.word 0x4A)
  | .vfrsq i f => some (i, f.word 0x4B)
  | .vfexp2 i f => some (i, f.word 0x4C)
  | .vflog2 i f => some (i, f.word 0x4D)
  | .vcvt i f => some (i, f.word 0x50)
  | .vshfl i f => some (i, f.word 0x58)
  | .vred i f => some (i, f.word 0x59)
  | .pand i f => some (i, f.word 0x60)
  | .por i f => some (i, f.word 0x61)
  | .pxor i f => some (i, f.word 0x62)
  | .pandn i f => some (i, f.word 0x63)
  | .twait i f => some (i, f.word 0x70)
  | .taccOpen i f => some (i, f.word 0x80)
  | .tmma i f => some (i, f.word 0x81)
  | .tstore i f => some (i, f.word 0x82)
  | .taccLdp i f => some (i, f.word 0x83)
  | .tcomb i f => some (i, f.word 0x84)
  | .taccRel i f => some (i, f.word 0x85)
  | .haulCopy i f => some (i, f.word 0x90)
  | .haulGather i f => some (i, f.word 0x91)
  | .haulScatter i f => some (i, f.word 0x92)
  | .haulRed i f => some (i, f.word 0x93)
  | .haulPut i f => some (i, f.word 0x94)
  | .haulGet i f => some (i, f.word 0x95)
  | .bellSig i f => some (i, f.word 0xA0)
  | .bellWait i f => some (i, f.word 0xA1)
  | .bellRead i f => some (i, f.word 0xA2)
  | .bellXchg i f => some (i, f.word 0xA3)
  | .umovi i f => some (i, f.word 0x01)
  | .umovhi i f => some (i, f.word 0x02)
  | .uaddi i f => some (i, f.word 0x03)
  | .uandi i f => some (i, f.word 0x04)
  | .uori i f => some (i, f.word 0x05)
  | .ushli i f => some (i, f.word 0x06)
  | .ushri i f => some (i, f.word 0x07)
  | .vmovi i f => some (i, f.word 0x10)
  | .vaddi i f => some (i, f.word 0x11)
  | .cairn i f => some (i, f.word 0x20)
  | .ld i f => some (i, f.word 0x01)
  | .st i f => some (i, f.word 0x02)
  | .atom i f => some (i, f.word 0x08)
  | .red i f => some (i, f.word 0x09)
  | .tallyAdd i f => some (i, f.word 0x10)
  | .tallyCvt i f => some (i, f.word 0x11)
  | .tallyFlags i f => some (i, f.word 0x12)
  | .spinwait i f => some (i, f.word 0x18)
  | .glock i f => some (i, f.word 0x19)
  | .gunlock i f => some (i, f.word 0x1A)
  | .fence i f => some (i, f.word 0x20)
  | .nop i f => some (i, f.word 0x00)
  | .bra i f => some (i, f.word 0x01)
  | .call i f => some (i, f.word 0x02)
  | .ret i f => some (i, f.word 0x03)
  | .exit i f => some (i, f.word 0x04)
  | .bar i f => some (i, f.word 0x05)
  | _ => none

end Sys2Proof
end

