-- ==== Sys2Proof/Config.lean ====
section
/-! DEFINITION. What one package's manufacture fixes and the spec leaves open: uninterpreted constants.
None has a body, so nothing in Lean can evaluate one or prove a value of one. -/

namespace Sys2Proof.Config

/-- DESIGN CHOICE (log 9). A free bit, fresh for each value of the model's own counter. -/
opaque freeBit : Nat → Bool

/-- DESIGN CHOICE (log 9). A free 64-bit value, fresh for each value of the model's own counter. -/
opaque freeWord : Nat → Word

/-- DESIGN CHOICE (log 51). What an INT32 accumulator makes of a prior value that is no integer: its kind (0 and 1 a
positive and a negative number, 2 and 3 an infinity, 4 NaN), significand and exponent, and the accumulator's value. -/
opaque int32Prior : Nat → Nat → Int → Int → BitVec 32

/-- DESIGN CHOICE (log 43). What a scale of 0 becomes when R92 lowers it, by the element type's exponent, the
recipe's margin and the ledger entry. -/
opaque loweredScale : Nat → Nat → Nat → BitVec 8

/-- The stepping fused in the package (12_host_interface.md R375, 20 R577). -/
opaque stepping : BitVec 4

/-- The 16 bytes of the device identity, low byte first (18_reset_boot_firmware.md R537). -/
opaque deviceId : BitVec 128

/-- The key digest fused in key slot k, 32 bytes (18_reset_boot_firmware.md R528). -/
opaque keyDigest : Nat → List Byte

/-- Measurement 1, the hash of the ROM fused at manufacturing test (18 Table 18.7). -/
opaque romHash : List Byte

/-- The certificate chain of slot 0 (18_reset_boot_firmware.md R538), for the alias key of a bundle
whose firmware, configuration and runtime hashes are given. -/
opaque certChain : List Byte → List Byte → List Byte → List Byte

/-- SHAKE256 of a byte string, with so many output bytes (named, not defined, by 18 R528). -/
opaque shake256 : List Byte → Nat → List Byte

/-- SHA3-384 of a byte string (named, not defined, by 18 R539). -/
opaque sha3_384 : List Byte → List Byte

/-- ML-DSA-65 verification of a signature: public key, message, signature (18 R528). -/
opaque mldsa65Verify : List Byte → List Byte → List Byte → Bool

/-- The alias key's ML-DSA-65 signature of a transcript hash (18 R539); the counter separates the
draws of a randomised signature. -/
opaque aliasSign : List Byte → Nat → List Byte

/-- ML-KEM-768 encapsulation for a session: the ciphertext the responder sends (18 R539). -/
opaque kemEncap : List Byte → Nat → List Byte

/-- Whether a NEGOTIATE_ALGORITHMS message offers the four algorithms of 18 R539; the spec names the DMTF message and
does not give its layout. -/
opaque offersAlgorithms : List Byte → Bool

/-- Whether a FINISH or a secured message of a session verifies under the session's keys (18 R539). -/
opaque sessionAuth : List Byte → Nat → Bool

/-- The activation count at which stack s asks for refresh management (11_hbm_memory.md R369). -/
opaque rfmThreshold : Nat → Nat

/-- The receive credits of a slice direction for a message class after training: how many the spec does not give
(01_package_organisation.md R40). -/
opaque d2dCredits : Nat → Nat

/-- The best master clock algorithm's answer (15_pod_transport.md R477), by the model's counter: the port of the time
source, or a number above 5 for the node itself. -/
opaque bmcaChoice : Nat → Nat

/-- UNVERIFIED (log 143). What the UNIT field of an error record holds for core k of the Square: 19 Table 19.5 points to
09 Table 9.6, which numbers no core. -/
opaque coreUnit : Nat → BitVec 12

end Sys2Proof.Config
end

