-- ==== Sys2Proof/Machine/Tables.lean ====
section
/-! DEFINITION. Sparse tables and bit fields: the plain data the state is built of.
A table lists (key, value) pairs with keys strictly rising and no value equal to the default an unlisted key
reads as, so equal contents are equal data. -/

namespace Sys2Proof.Machine

/-- A sparse table: keys strictly rising, no entry equal to the default. -/
abbrev Table (α : Type) := List (Nat × α)

/-- The value at key `k`; `d` where the key is not listed. -/
def Table.get {α : Type} (d : α) : Table α → Nat → α
  | [], _ => d
  | (j, v) :: t, k => if k = j then v else Table.get d t k

/-- The value listed at key `k`, if any. -/
def Table.find {α : Type} : Table α → Nat → Option α
  | [], _ => none
  | (j, v) :: t, k => if k = j then some v else Table.find t k

/-- The table without key `k`. -/
def Table.erase {α : Type} : Table α → Nat → Table α
  | [], _ => []
  | (j, v) :: t, k => if k = j then Table.erase t k else (j, v) :: Table.erase t k

/-- The table with `v` at key `k`. -/
def Table.insert {α : Type} : Table α → Nat → α → Table α
  | [], k, v => [(k, v)]
  | (j, w) :: t, k, v =>
    if k = j then (k, v) :: t
    else if k < j then (k, v) :: (j, w) :: t
    else (j, w) :: Table.insert t k v

/-- The table with `v` at key `k`, in canonical form: the default removes the entry. -/
def Table.set {α : Type} [DecidableEq α] (d : α) (t : Table α) (k : Nat) (v : α) : Table α :=
  if v = d then Table.erase t k else Table.insert t k v

/-- Change the value at key `k`. -/
def Table.modify {α : Type} [DecidableEq α] (d : α) (t : Table α) (k : Nat) (f : α → α) : Table α :=
  Table.set d t k (f (Table.get d t k))

/-- Every listed key is at or above `lo`, keys rise strictly, and no value is its key's default. -/
def Table.wfFrom {α : Type} [DecidableEq α] (d : Nat → α) : Nat → Table α → Bool
  | _, [] => true
  | lo, (j, v) :: t => decide (lo ≤ j) && decide (v ≠ d j) && Table.wfFrom d (j + 1) t

/-- The canonical form of a table, with each key's default. -/
def Table.wf {α : Type} [DecidableEq α] (d : Nat → α) (t : Table α) : Bool := Table.wfFrom d 0 t

/-- Change every listed value, in canonical form: a value that becomes the default is no longer listed. -/
def Table.mapVals {α : Type} [DecidableEq α] (d : α) (f : Nat → α → α) (t : Table α) : Table α :=
  (t.map fun e => (e.1, f e.1 e.2)).filter fun e => e.2 ≠ d

/-- The lowest key at or above `k` that the table does not list, searching `n` keys. -/
def Table.firstFree {α : Type} (t : Table α) : Nat → Nat → Option Nat
  | _, 0 => none
  | k, n + 1 => if (Table.find t k).isNone then some k else Table.firstFree t (k + 1) n

/-- Bits `lo + w - 1` to `lo` of a number. -/
def bits (x lo w : Nat) : Nat := (x >>> lo) % 2 ^ w

/-- Bit `i` of a number. -/
def bit (x i : Nat) : Bool := x.testBit i

/-- The number with bits `lo + w - 1` to `lo` replaced by `v`. -/
def setBits (x lo w v : Nat) : Nat :=
  x - (bits x lo w) * 2 ^ lo + (v % 2 ^ w) * 2 ^ lo

/-- A truth value as a bit. -/
def bval (b : Bool) : Nat := if b then 1 else 0

/-- Bits `lo + w - 1` to `lo` of a word, as a number. -/
def fld (x : Word) (lo w : Nat) : Nat := bits x.toNat lo w

/-- The word with bits `lo + w - 1` to `lo` replaced by `v`. -/
def putFld (x : Word) (lo w v : Nat) : Word := BitVec.ofNat 64 (setBits x.toNat lo w v)

/-- Add to a field that saturates at all ones. -/
def satAdd (x : Word) (lo w n : Nat) : Word := putFld x lo w (min (fld x lo w + n) (2 ^ w - 1))

/-- Add to a field modulo its width. -/
def wrapAdd (x : Word) (lo w n : Nat) : Word := putFld x lo w (fld x lo w + n)

/-- The little-endian number a byte list spells (00_scope.md R15). -/
def leNat : List Byte → Nat
  | [] => 0
  | b :: t => b.toNat + 256 * leNat t

/-- The `n` low bytes of a number, low byte first (00_scope.md R15). -/
def leBytes : Nat → Nat → List Byte
  | 0, _ => []
  | n + 1, x => BitVec.ofNat 8 x :: leBytes n (x / 256)

/-- A field read as a two's complement number of `w` bits. -/
def signed (w x : Nat) : Int :=
  if x % 2 ^ w < 2 ^ (w - 1) then ((x % 2 ^ w : Nat) : Int) else ((x % 2 ^ w : Nat) : Int) - (2 ^ w : Nat)

/-- Round up to a multiple of `m`. -/
def roundUp (x m : Nat) : Nat := (x + m - 1) / m * m

/-- The positions of the set bits of a mask of `n` bits, rising. -/
def setBitsOf (n x : Nat) : List Nat := (List.range n).filter fun i => x.testBit i

/-- The first `n` elements of a list, padded with `d`. -/
def takePad {α : Type} (d : α) : Nat → List α → List α
  | 0, _ => []
  | n + 1, [] => d :: takePad d n []
  | n + 1, a :: t => a :: takePad d n t

/-- The list with element `i` replaced. -/
def listSet {α : Type} : List α → Nat → α → List α
  | [], _, _ => []
  | _ :: t, 0, v => v :: t
  | a :: t, i + 1, v => a :: listSet t i v

/-- Insert a number in a strictly rising list. -/
def setInsert : List Nat → Nat → List Nat
  | [], k => [k]
  | j :: t, k => if k = j then j :: t else if k < j then k :: j :: t else j :: setInsert t k

/-- Remove a number from a list. -/
def setErase (t : List Nat) (k : Nat) : List Nat := t.filter fun j => j ≠ k

end Sys2Proof.Machine
end

