-- ==== Sys2Proof/Machine/Fp.lean ====
section
/-! DEFINITION. Number formats, exact values and rounding (02_numerics_reference_order.md R54 to R60, R65,
R78 to R81, R596; 06_instruction_set.md R194 to R196). -/

namespace Sys2Proof.Machine

/-- What a finite overflow becomes (02 Table 2.3). -/
inductive Overflow where
  | toInf      -- to infinity
  | saturate   -- finite values saturate, infinities are kept
  | saturateAll -- finite values and infinities saturate
  deriving DecidableEq, Repr

/-- One row of 02 Table 2.1 with its canonical NaN (Table 2.2) and its overflow rule (Table 2.3). -/
structure Fmt where
  ebits : Nat
  fbits : Nat
  bias : Nat
  ieee : Bool       -- the top exponent field holds infinity and NaN
  nanTop : Bool     -- only the all-ones magnitude is NaN
  maxFin : Nat      -- the largest finite magnitude's bits
  nan : Nat         -- the canonical NaN
  ovf : Overflow
  deriving DecidableEq, Repr

def fp64 : Fmt := ⟨11, 52, 1023, true, false, 0x7FEFFFFFFFFFFFFF, 0x7FF8000000000000, .toInf⟩
def fp32 : Fmt := ⟨8, 23, 127, true, false, 0x7F7FFFFF, 0x7FC00000, .toInf⟩
def bf16 : Fmt := ⟨8, 7, 127, true, false, 0x7F7F, 0x7FC0, .toInf⟩
def fp16 : Fmt := ⟨5, 10, 15, true, false, 0x7BFF, 0x7E00, .toInf⟩
def e4m3 : Fmt := ⟨4, 3, 7, false, true, 0x7E, 0x7F, .saturateAll⟩
def e5m2 : Fmt := ⟨5, 2, 15, true, false, 0x7B, 0x7E, .saturate⟩
def e3m2 : Fmt := ⟨3, 2, 3, false, false, 0x1F, 0, .saturateAll⟩
def e2m3 : Fmt := ⟨2, 3, 1, false, false, 0x1F, 0, .saturateAll⟩
def e2m1 : Fmt := ⟨2, 1, 1, false, false, 0x7, 0, .saturateAll⟩

/-- Width of a format in bits. -/
def Fmt.width (f : Fmt) : Nat := 1 + f.ebits + f.fbits

/-- An exact value: NaN, an infinity, or plus or minus `m` times 2 to the `e`; `m = 0` is a signed zero. -/
inductive Fp where
  | nan
  | inf (neg : Bool)
  | fin (neg : Bool) (m : Nat) (e : Int)
  deriving DecidableEq, Repr

/-- The value a bit pattern of a format holds (R54, R56). -/
def Fmt.decode (f : Fmt) (x : Nat) : Fp :=
  let neg := x.testBit (f.ebits + f.fbits)
  let mag := x % 2 ^ (f.ebits + f.fbits)
  let ex := mag / 2 ^ f.fbits
  let fr := mag % 2 ^ f.fbits
  if f.ieee && ex == 2 ^ f.ebits - 1 then
    if fr = 0 then .inf neg else .nan
  else if f.nanTop && mag == 2 ^ (f.ebits + f.fbits) - 1 then .nan
  else if ex = 0 then .fin neg fr (1 - (f.bias : Int) - f.fbits)
  else .fin neg (2 ^ f.fbits + fr) ((ex : Int) - f.bias - f.fbits)

/-- Round `m` times 2 to the `d` to the nearest integer, ties to even; `sticky` says that a part below one
unit of `m` was dropped. -/
def rneShift (m : Nat) (d : Int) (sticky : Bool) : Nat :=
  if 0 ≤ d then m <<< d.toNat
  else
    let k := (-d).toNat
    let q := m >>> k
    let r := m % 2 ^ k
    let h := 2 ^ (k - 1)
    if r > h || (r == h && (sticky || q % 2 == 1)) then q + 1 else q

/-- The sign bit of a format. -/
def Fmt.sign (f : Fmt) (neg : Bool) : Nat := if neg then 2 ^ (f.ebits + f.fbits) else 0

/-- The infinity of a format, or its largest finite value where the format has none. -/
def Fmt.infBits (f : Fmt) : Nat := if f.ieee then (2 ^ f.ebits - 1) * 2 ^ f.fbits else f.maxFin

/-- The exponent of a format's last place for a magnitude of `m` times 2 to the `e`. -/
def Fmt.quantum (f : Fmt) (m : Nat) (e : Int) : Int :=
  max ((Nat.log2 m : Int) + e - f.fbits) (1 - (f.bias : Int) - f.fbits)

/-- Round a finite magnitude once to nearest even (R58): its magnitude bits, and whether it saturated. -/
def Fmt.roundMag (f : Fmt) (m : Nat) (e : Int) (sticky : Bool) : Nat × Bool :=
  if m = 0 then (0, false)
  else
    let q := f.quantum m e
    let r := rneShift m (e - q) sticky
    -- a magnitude's bits are its distance from zero in steps of its own quantum
    let mag := r + ((q - (1 - (f.bias : Int) - f.fbits)).toNat) * 2 ^ f.fbits
    if mag ≤ f.maxFin then (mag, false)
    else
      match f.ovf with
      | .toInf => (f.infBits, false)
      | .saturate => (f.maxFin, true)
      | .saturateAll => (f.maxFin, true)

/-- Round a value into a format (R58, R596): its bits, and whether it saturated. A finite value takes a
sticky bit for a part already dropped below one unit of its `m`. -/
def Fmt.roundS (f : Fmt) (v : Fp) (sticky : Bool) : Nat × Bool :=
  match v with
  | .nan => (f.nan, false)
  | .inf neg =>
    match f.ovf with
    | .saturateAll => (f.maxFin + f.sign neg, true)
    | _ => (f.infBits + f.sign neg, false)
  | .fin neg m e =>
    let r := f.roundMag m e sticky
    (r.1 + f.sign neg, r.2)

/-- Round a value into a format: its bits. -/
def Fmt.round (f : Fmt) (v : Fp) : Nat := (f.roundS v false).1

/-- Convert bits of one format into another, rounding once (R58, R596). -/
def convert (src dst : Fmt) (x : Nat) : Nat := dst.round (src.decode x)

/-- The signed integer value of `m` in units of 2 to the `q`, for `q` at most `e`. -/
def scaled (neg : Bool) (m : Nat) (e q : Int) : Int :=
  let n : Int := ((m <<< (e - q).toNat : Nat) : Int)
  if neg then -n else n

def Fp.isNan : Fp → Bool
  | .nan => true
  | _ => false

def Fp.isZero : Fp → Bool
  | .fin _ m _ => m == 0
  | _ => false

def Fp.isNeg : Fp → Bool
  | .nan => false
  | .inf n => n
  | .fin n _ _ => n

def Fp.neg : Fp → Fp
  | .nan => .nan
  | .inf n => .inf (!n)
  | .fin n m e => .fin (!n) m e

def Fp.abs : Fp → Fp
  | .nan => .nan
  | .inf _ => .inf false
  | .fin _ m e => .fin false m e

/-- Exact sum, with the zero signs of R65. -/
def Fp.add : Fp → Fp → Fp
  | .nan, _ => .nan
  | _, .nan => .nan
  | .inf a, .inf b => if a = b then .inf a else .nan
  | .inf a, _ => .inf a
  | _, .inf b => .inf b
  | .fin na ma ea, .fin nb mb eb =>
    let q := min ea eb
    let s := scaled na ma ea q + scaled nb mb eb q
    if s = 0 then .fin (na && nb) 0 0 else .fin (decide (s < 0)) s.natAbs q

/-- Exact product, with the product's sign and special cases of R62. -/
def Fp.mul : Fp → Fp → Fp
  | .nan, _ => .nan
  | _, .nan => .nan
  | .inf a, .inf b => .inf (a != b)
  | .inf a, .fin b m _ => if m = 0 then .nan else .inf (a != b)
  | .fin a m _, .inf b => if m = 0 then .nan else .inf (a != b)
  | .fin na ma ea, .fin nb mb eb => .fin (na != nb) (ma * mb) (ea + eb)

/-- Multiply by a power of two. -/
def Fp.scale (k : Int) : Fp → Fp
  | .fin n m e => .fin n m (e + k)
  | v => v

/-- Order of two values that are not NaN: negative, zero or positive as a is below, at or above b. -/
def Fp.cmp : Fp → Fp → Int
  | .nan, _ => 0
  | _, .nan => 0
  | .inf a, .inf b => if a = b then 0 else if a then -1 else 1
  | .inf a, .fin _ _ _ => if a then -1 else 1
  | .fin _ _ _, .inf b => if b then 1 else -1
  | .fin na ma ea, .fin nb mb eb =>
    let q := min ea eb
    scaled na ma ea q - scaled nb mb eb q

/-- R65: the device's addition of two accumulator values. -/
def rneAdd (f : Fmt) (a b : Nat) : Nat := f.round ((f.decode a).add (f.decode b))

/-- The largest r with r * r at most n, found bit by bit from bit `k - 1` down. -/
def isqrtFrom : Nat → Nat → Nat → Nat
  | 0, _, r => r
  | k + 1, n, r =>
    let t := r + 2 ^ k
    isqrtFrom k n (if t * t ≤ n then t else r)

/-- The integer square root. -/
def isqrt (n : Nat) : Nat := isqrtFrom (Nat.log2 n / 2 + 1) n 0

/-- IEEE 754 division, rounded once (R194). -/
def Fmt.div (f : Fmt) (a b : Fp) : Nat :=
  match a, b with
  | .nan, _ => f.nan
  | _, .nan => f.nan
  | .inf _, .inf _ => f.nan
  | .inf s, .fin t _ _ => f.round (.inf (s != t))
  | .fin s _ _, .inf t => f.round (.fin (s != t) 0 0)
  | .fin s m e, .fin t n g =>
    if n = 0 then (if m = 0 then f.nan else f.round (.inf (s != t)))
    else
      let k := 2 * f.fbits + 8 + Nat.log2 n
      let num := m <<< k
      (f.roundS (.fin (s != t) (num / n) (e - g - k)) (num % n != 0)).1

/-- IEEE 754 square root, rounded once (R194). -/
def Fmt.sqrt (f : Fmt) (a : Fp) : Nat :=
  match a with
  | .nan => f.nan
  | .inf s => if s then f.nan else f.round (.inf false)
  | .fin s m e =>
    if m = 0 then f.sign s
    else if s then f.nan
    else
      -- an even exponent and room for two bits beyond the result's precision
      let k := 2 * f.fbits + 8 + (if (e - (2 * f.fbits + 8 : Nat)) % 2 = 0 then 0 else 1)
      let n := m <<< k
      let r := isqrt n
      (f.roundS (.fin false r ((e - k) / 2)) (r * r != n)).1

/-- VFRCP (R196, Table 6.12). -/
def fpRcp (a : Fp) : Nat := fp32.div (.fin false 1 0) a

/-- VFRSQ (R196, Table 6.12). -/
def fpRsq (a : Fp) : Nat :=
  match a with
  | .nan => fp32.nan
  | .inf s => if s then fp32.nan else 0
  | .fin s m e =>
    if m = 0 then fp32.round (.inf s)
    else if s then fp32.nan
    else
      let m' := if e % 2 = 0 then m else 2 * m
      let e' := if e % 2 = 0 then e else e - 1
      let k := 64 + Nat.log2 m'
      let r := isqrt (2 ^ (2 * k) / m')
      (fp32.roundS (.fin false r (-(e' / 2) - k)) (r * r * m' != 2 ^ (2 * k))).1

/-- The fixed-point precision of VFEXP2's constants, in bits. -/
def expPrec : Nat := 128

/-- Multiply `acc` by 2 to the 2^-i for each set bit i of a fraction; `c` is the current constant in
fixed point, and the fraction's top bit of `n` stands for 2^-1. -/
def exp2Frac : Nat → Nat → Nat → Nat → Nat
  | 0, _, _, acc => acc
  | n + 1, fr, c, acc =>
    let c' := isqrt (c <<< expPrec)
    exp2Frac n fr c' (if fr.testBit n then (acc * c') >>> expPrec else acc)

/-- VFEXP2 (R196, Table 6.12): exact for integers; elsewhere the irrational power is found to more places
than any FP32 rounding needs, then rounded once. -/
def fpExp2 (a : Fp) : Nat :=
  match a with
  | .nan => fp32.nan
  | .inf s => if s then 0 else fp32.round (.inf false)
  | .fin s m e =>
    if m = 0 then fp32.round (.fin false 1 0)
    else if 9 ≤ (Nat.log2 m : Int) + e then (if s then 0 else fp32.round (.inf false))
    else if (Nat.log2 m : Int) + e < -30 then fp32.round (.fin false 1 0)
    else if 0 ≤ e then
      let n : Int := ((m <<< e.toNat : Nat) : Int)
      fp32.round (.fin false 1 (if s then -n else n))
    else
      let k := (-e).toNat
      let x : Int := if s then -(m : Int) else m
      let n := x / ((2 ^ k : Nat) : Int)
      let fr := (x % ((2 ^ k : Nat) : Int)).toNat
      if fr = 0 then fp32.round (.fin false 1 n)
      else
        let acc := exp2Frac k fr (2 ^ (expPrec + 1)) (2 ^ expPrec)
        (fp32.roundS (.fin false acc (n - expPrec)) true).1

/-- The binary digits of log2 of `y` / 2^320, for a value of 1 to 2, most significant first. -/
def log2Frac : Nat → Nat → Nat → Nat
  | 0, _, acc => acc
  | n + 1, y, acc =>
    let z := (y * y) >>> 320
    if 2 ^ 321 ≤ z then log2Frac n (z >>> 1) (2 * acc + 1) else log2Frac n z (2 * acc)

/-- VFLOG2 (R196, Table 6.12): exact for powers of two; elsewhere the irrational logarithm is found to 128
binary places, then rounded once. -/
def fpLog2 (a : Fp) : Nat :=
  match a with
  | .nan => fp32.nan
  | .inf s => if s then fp32.nan else fp32.round (.inf false)
  | .fin s m e =>
    if m = 0 then fp32.round (.inf true)
    else if s then fp32.nan
    else
      let k := Nat.log2 m
      let n : Int := (k : Int) + e
      if m = 2 ^ k then fp32.round (.fin (decide (n < 0)) n.natAbs 0)
      else
        let fr := log2Frac 128 (m <<< (320 - k)) 0
        let t : Int := n * ((2 ^ 128 : Nat) : Int) + fr
        if 0 ≤ t then (fp32.roundS (.fin false t.natAbs (-128)) true).1
        else (fp32.roundS (.fin true (t + 1).natAbs (-128)) true).1

/-- VFMIN and VFMAX of two values (R195); `hi` selects VFMAX. -/
def Fp.minmax (hi : Bool) (a b : Fp) : Fp :=
  match a, b with
  | .nan, b => b
  | a, .nan => a
  | a, b =>
    let c := a.cmp b
    if c = 0 then
      -- equal values differ at most in the sign of zero, and −0 lies below +0
      if hi then (if a.isNeg then b else a) else (if a.isNeg then a else b)
    else if (c < 0) != hi then a else b

/-- A comparison of 06 Table 6.11 (R195): 0 EQ, 1 NE, 2 LT, 3 LE, 4 GT, 5 GE, 6 UN. -/
def Fp.test (c : Nat) (a b : Fp) : Bool :=
  if a.isNan || b.isNan then c == 1 || c == 6
  else
    let d := a.cmp b
    match c with
    | 0 => d == 0
    | 1 => d != 0
    | 2 => decide (d < 0)
    | 3 => decide (d ≤ 0)
    | 4 => decide (0 < d)
    | 5 => decide (0 ≤ d)
    | _ => false

/-- Round to an integer: to nearest even, or toward zero (R197). -/
def Fp.toInt (rtz : Bool) (m : Nat) (e : Int) (neg : Bool) : Int :=
  let n : Nat := if rtz then (if 0 ≤ e then m <<< e.toNat else m >>> (-e).toNat) else rneShift m e false
  if neg then -(n : Int) else n

/-- A float to an integer range, saturating (R197; Table 2.3 for INT8). -/
def Fp.toIntSat (rtz : Bool) (lo hi : Int) : Fp → Int
  | .nan => 0
  | .inf s => if s then lo else hi
  | .fin s m e => max lo (min hi (Fp.toInt rtz m e s))

/-- An integer as an exact value. -/
def Fp.ofInt (n : Int) : Fp := .fin (decide (n < 0)) n.natAbs 0

/-- R80: stochastic rounding into BF16 of the exact value `x` with the 16-bit random value `r`. -/
def srBf16 (x : Fp) (r : Nat) : Nat :=
  match x with
  | .nan => bf16.nan
  | .inf s => bf16.infBits + bf16.sign s
  | .fin s m e =>
    if m = 0 then bf16.sign s
    else
      let u := bf16.quantum m e
      let q : Nat := if u ≤ e then m <<< (e - u).toNat else m >>> (u - e).toNat
      let f : Nat := if u ≤ e then 0 else ((m % 2 ^ (u - e).toNat) <<< 16) >>> (u - e).toNat
      let q' := if 65536 ≤ f + r then q + 1 else q
      bf16.round (.fin s q' u)

/-- One round of Philox-4x32: PRESUMED multipliers 0xD2511F53 and 0xCD9E8D57, which the spec names the
algorithm of and does not list (log 10). -/
def philoxRound (k0 k1 : Nat) (c : Nat × Nat × Nat × Nat) : Nat × Nat × Nat × Nat :=
  let p0 := 0xD2511F53 * c.1
  let p1 := 0xCD9E8D57 * c.2.2.1
  ((p1 >>> 32) ^^^ c.2.1 ^^^ k0, p1 % 2 ^ 32, (p0 >>> 32) ^^^ c.2.2.2 ^^^ k1, p0 % 2 ^ 32)

/-- Philox-4x32 rounds with the key bumped between them: PRESUMED Weyl constants (log 10). -/
def philoxRounds : Nat → Nat → Nat → Nat × Nat × Nat × Nat → Nat × Nat × Nat × Nat
  | 0, _, _, c => c
  | n + 1, k0, k1, c =>
    philoxRounds n ((k0 + 0x9E3779B9) % 2 ^ 32) ((k1 + 0xBB67AE85) % 2 ^ 32) (philoxRound k0 k1 c)

/-- R81: the 16-bit random value for element `e`, from the context seed, tensor identifier and step counter; `m` is
the split point of a collective's combine (16 R487), 0 for a store. -/
def philoxAt (seed tensor step m e : Nat) : Nat :=
  let out := philoxRounds 10 (bits seed 0 32) (bits seed 32 32)
    (bits e 3 32, (m * 2 ^ 13 + bits e 35 13) % 2 ^ 32, tensor % 2 ^ 32, step % 2 ^ 32)
  let w := match bits e 1 2 with
    | 0 => out.1
    | 1 => out.2.1
    | 2 => out.2.2.1
    | _ => out.2.2.2
  bits w (16 * (e % 2)) 16

/-- R81: the random value of an accumulate-store. -/
def philoxR (seed tensor step e : Nat) : Nat := philoxAt seed tensor step 0 e

/-- A value as numbers: what it is, its significand and its exponent. -/
def Fp.key : Fp → Nat × Nat × Int
  | .fin n m e => (if n then 1 else 0, m, e)
  | .inf n => (if n then 3 else 2, 0, 0)
  | .nan => (4, 0, 0)

end Sys2Proof.Machine
end

