-- ==== Sys2Proof/Machine/RefSum.lean ====
section
/-! DEFINITION. The reference order of operations (02_numerics_reference_order.md R61 to R77). -/

namespace Sys2Proof.Machine

/-- An accumulator format (02 Table 2.4, and ACC_FMT of Table 2.5). -/
inductive AccFmt where
  | fp32 | fp64 | int32
  deriving DecidableEq, Repr

/-- ACC_FMT's code (02 Table 2.5). -/
def AccFmt.code : AccFmt → Nat
  | .fp32 => 0
  | .fp64 => 1
  | .int32 => 2

/-- The float format of an accumulator; INT32 has none. -/
def AccFmt.fmt : AccFmt → Fmt
  | .fp32 => Sys2Proof.Machine.fp32
  | .fp64 => Sys2Proof.Machine.fp64
  | .int32 => Sys2Proof.Machine.fp32

/-- Bytes of one accumulator element. -/
def AccFmt.bytes : AccFmt → Nat
  | .fp64 => 8
  | _ => 4

/-- The exponent of a non-zero finite value: floor of log2 of its magnitude. -/
def Fp.floorLog2 : Fp → Int
  | .fin _ m e => (Nat.log2 m : Int) + e
  | _ => 0

/-- The greatest exponent of the non-zero values of a group. -/
def maxExp : List Fp → Option Int
  | [] => none
  | p :: t =>
    match p, maxExp t with
    | .fin _ m e, none => if m = 0 then none else some ((Nat.log2 m : Int) + e)
    | .fin _ m e, some x => if m = 0 then some x else some (max x ((Nat.log2 m : Int) + e))
    | _, r => r

/-- A value truncated toward zero to a multiple of 2 to the `q`, in units of it. -/
def truncTo (q : Int) : Fp → Int
  | .fin n m e =>
    let t : Nat := if q ≤ e then m <<< (e - q).toNat else m >>> (q - e).toNat
    if n then -(t : Int) else t
  | _ => 0

/-- R64: the sum of one group, rounded once into the accumulator format; `w` is the window of Table 2.4. -/
def groupSum (acc : Fmt) (w : Nat) (ps : List Fp) : Nat :=
  if ps.any Fp.isNan then acc.nan
  else
    let hasP := ps.any fun p => p == .inf false
    let hasN := ps.any fun p => p == .inf true
    if hasP && hasN then acc.nan
    else if hasP then acc.round (.inf false)
    else if hasN then acc.round (.inf true)
    else
      let q := (maxExp ps).getD 0 - w
      let s := ps.foldl (fun a p => a + truncTo q p) 0
      let allNegZero := ps.all fun p => p.isNeg && truncTo q p == 0
      if s = 0 then acc.sign allNegZero
      else acc.round (.fin (decide (s < 0)) s.natAbs q)

/-- The window of an accumulator format's groups (02 Table 2.4); `wide` marks FP32 inputs. -/
def groupWindow (acc : AccFmt) (wide : Bool) : Nat :=
  match acc with
  | .fp64 => 160
  | _ => if wide then 96 else 48

/-- Two accumulator values added (R65; INT32 wraps, R70). -/
def accAdd (a : AccFmt) (x y : Nat) : Nat :=
  match a with
  | .int32 => (x + y) % 2 ^ 32
  | f => rneAdd f.fmt x y

/-- The carry stack: values and levels, top first (R67). -/
abbrev CarryStack := List (Nat × Nat)

/-- R67: place a chunk's sum, folding equal levels; `n` bounds the folds. -/
def carryPush (a : AccFmt) : Nat → CarryStack → Nat → Nat → CarryStack
  | n + 1, (u, l) :: t, v, level =>
    if l = level then carryPush a n t (accAdd a u v) (level + 1) else (v, level) :: (u, l) :: t
  | _, st, v, level => (v, level) :: st

/-- R67: the flush, from the top entry down. -/
def carryFlush (a : AccFmt) : CarryStack → Nat
  | [] => 0
  | (v, _) :: t => t.foldl (fun acc e => accAdd a e.1 acc) v

/-- Chunks of a reduction over K elements (R67). -/
def chunks (k : Nat) : Nat := (k + 1023) / 1024

/-- R74: [ca, cb) is a node of the reference tree over n chunks. -/
def isNode (n ca cb : Nat) : Bool :=
  if n = 0 then ca == 0 && cb == 0
  else
    let len := cb - ca
    decide (ca < cb) && decide (cb ≤ n) &&
      ((len == 2 ^ Nat.log2 len && ca % len == 0) ||
       (cb == n && (List.range (Nat.log2 n + 2)).any fun m => decide (1 ≤ m) && ca == 2 ^ m * (n / 2 ^ m)))

/-- R75: where a node splits into its two children; none for a single chunk. -/
def nodeSplit (ca cb : Nat) : Option Nat :=
  let len := cb - ca
  if len ≤ 1 then none
  else if len = 2 ^ Nat.log2 len then some (ca + len / 2)
  else some (ca + 2 ^ Nat.log2 len)

/-- A partial tag (02 Table 2.5). -/
structure Tag where
  valid : Bool
  accFmt : Nat
  kTotal : Nat
  kEnd : Nat
  kStart : Nat
  deriving DecidableEq, Repr

/-- A tag read from its 128 bits. -/
def Tag.ofNat (x : Nat) : Tag := ⟨bit x 127, bits x 105 2, bits x 70 35, bits x 35 35, bits x 0 35⟩

/-- A tag's 128 bits. -/
def Tag.toNat (t : Tag) : Nat :=
  bval t.valid * 2 ^ 127 + t.accFmt * 2 ^ 105 + t.kTotal * 2 ^ 70 + t.kEnd * 2 ^ 35 + t.kStart

/-- The chunk range a tag covers, if it lies on chunk boundaries (R74). -/
def Tag.range (t : Tag) : Option (Nat × Nat) :=
  let ca := t.kStart / 1024
  let cb := (t.kEnd + 1023) / 1024
  if t.kStart = 1024 * ca && t.kEnd = min (1024 * cb) t.kTotal then some (ca, cb) else none

/-- R74: the tag names a node of the reference tree. -/
def Tag.legal (t : Tag) : Bool :=
  match t.range with
  | some (ca, cb) => isNode (chunks t.kTotal) ca cb
  | none => false

/-- R76: combining P and Q is legal; the parent's tag. -/
def Tag.combine (p q : Tag) : Option Tag :=
  if p.valid && q.valid && p.kTotal == q.kTotal && p.accFmt == q.accFmt && p.kEnd == q.kStart &&
      p.legal && q.legal then
    match p.range, q.range with
    | some (a, b), some (_, d) =>
      if isNode (chunks p.kTotal) a d && nodeSplit a d == some b then
        some { p with kEnd := q.kEnd }
      else none
    | _, _ => none
  else none

end Sys2Proof.Machine
end

