-- ==== Sys2Proof/Machine/Regs.lean ====
section
/-! DEFINITION. The registers: every register table of the spec, its BAR0 address, fields, access types and
reset value (00_scope.md R17, R18; 12_host_interface.md R378; the sideband registers of
21_electrical_mechanical.md R590 stand above BAR0 at addresses of the model's own). -/

namespace Sys2Proof.Machine

/-- Field access types (00_scope.md Table 0.7). -/
inductive Access where
  | ro | rw | w1c | w1s | wo
  deriving DecidableEq, Repr

/-- The registers of the block: `n` is the register's index, `c` a logical cluster. -/
inductive Reg where
  | glbClkStatus -- GLB_CLK_STATUS, 01_package_organisation.md Table 1.11
  | glbD2dStatus -- GLB_D2D_STATUS, 01_package_organisation.md Table 1.12
  | glbD2dErr (n : Nat) -- GLB_D2D_ERRn, 01_package_organisation.md Table 1.13
  | glbSpareCd (n : Nat) -- GLB_SPARE_CDn, 01_package_organisation.md Table 1.14
  | glbPhysMap (n : Nat) -- GLB_PHYS_MAPn, 01_package_organisation.md Table 1.15
  | fltShadowCtl (n : Nat) -- FLT_SHADOW_CTLn, 03_scaling_ledger_shadow_checks.md Table 3.10
  | fltShadowCnt (n : Nat) -- FLT_SHADOW_CNTn, 03_scaling_ledger_shadow_checks.md Table 3.11
  | fltShadowRing -- FLT_SHADOW_RING, 03_scaling_ledger_shadow_checks.md Table 3.12
  | fltShadowPtr -- FLT_SHADOW_PTR, 03_scaling_ledger_shadow_checks.md Table 3.13
  | clTeStat (c : Nat) -- CL_TE_STAT, 04_tensor_engine.md Table 4.8
  | clTeEcc (c : Nat) -- CL_TE_ECC, 04_tensor_engine.md Table 4.9
  | clOccupancy (c : Nat) -- CL_OCCUPANCY, 05_clusters_ropes_parties.md Table 5.6
  | bellVal (n : Nat) -- BELL_VALn, 07_memory_model_bells.md Table 7.6
  | bellSig (n : Nat) -- BELL_SIGn, 07_memory_model_bells.md Table 7.7
  | bellOwner (n : Nat) -- BELL_OWNERn, 07_memory_model_bells.md Table 7.8
  | bellStatus -- BELL_STATUS, 07_memory_model_bells.md Table 7.9
  | clHaulStat (c : Nat) -- CL_HAUL_STAT, 08_tensor_descriptors_haul.md Table 8.8
  | clHaulDrops (c : Nat) -- CL_HAUL_DROPS, 08_tensor_descriptors_haul.md Table 8.9
  | xltCtx (n : Nat) -- XLT_CTXn, 09_ranges_translation.md Table 9.7
  | xltInvStart -- XLT_INV_START, 09_ranges_translation.md Table 9.8
  | xltInvLen -- XLT_INV_LEN, 09_ranges_translation.md Table 9.9
  | xltInvCtrl -- XLT_INV_CTRL, 09_ranges_translation.md Table 9.10
  | xltStatus -- XLT_STATUS, 09_ranges_translation.md Table 9.11
  | xltOwnCtrl -- XLT_OWN_CTRL, 09_ranges_translation.md Table 9.12
  | xltOwnRead -- XLT_OWN_READ, 09_ranges_translation.md Table 9.13
  | fltXfNew (n : Nat) -- FLT_XF_NEWn, 09_ranges_translation.md Table 9.14
  | fltXfOpen (n : Nat) -- FLT_XF_OPENn, 09_ranges_translation.md Table 9.15
  | fltXfResolve -- FLT_XF_RESOLVE, 09_ranges_translation.md Table 9.16
  | fltXfStat -- FLT_XF_STAT, 09_ranges_translation.md Table 9.17
  | fltXfRecW (n : Nat) -- FLT_XF_RECn_Wk, 09_ranges_translation.md Table 9.18
  | clRcStat (c : Nat) -- CL_RC_STAT, 09_ranges_translation.md Table 9.19
  | glbSwpStart (n : Nat) -- GLB_SWP_STARTn, 10_coherence_caches.md Table 10.10
  | glbSwpLen (n : Nat) -- GLB_SWP_LENn, 10_coherence_caches.md Table 10.11
  | glbSwpCtrl (n : Nat) -- GLB_SWP_CTRLn, 10_coherence_caches.md Table 10.12
  | glbCacheErr (n : Nat) -- GLB_CACHE_ERRn, 10_coherence_caches.md Table 10.13
  | glbHomeStat (n : Nat) -- GLB_HOME_STATs, 10_coherence_caches.md Table 10.14
  | glbMemPlace -- GLB_MEM_PLACE, 11_hbm_memory.md Table 11.6
  | glbMemScrub -- GLB_MEM_SCRUB, 11_hbm_memory.md Table 11.7
  | glbMemStat (n : Nat) -- GLB_MEM_STATs, 11_hbm_memory.md Table 11.8
  | glbMemErr (n : Nat) -- GLB_MEM_ERRs, 11_hbm_memory.md Table 11.9
  | glbMemLast (n : Nat) -- GLB_MEM_LASTs, 11_hbm_memory.md Table 11.10
  | hqWinBase (n : Nat) -- HQ_WINn_BASE, 12_host_interface.md Table 12.7
  | hqWinArrived (n : Nat) -- HQ_WINn_ARRIVED, 12_host_interface.md Table 12.8
  | hqWinStat -- HQ_WIN_STAT, 12_host_interface.md Table 12.9
  | hqLinkStatus -- HQ_LINK_STATUS, 12_host_interface.md Table 12.10
  | hqLinkDrop -- HQ_LINK_DROP, 12_host_interface.md Table 12.11
  | hqDoorbell -- HQ_DOORBELL, 13_command_queues.md Table 13.7
  | hqQdrop -- HQ_QDROP, 13_command_queues.md Table 13.8
  | hqSqBase (n : Nat) -- HQ_SQn_BASE, 13_command_queues.md Table 13.9
  | hqSqCtrl (n : Nat) -- HQ_SQn_CTRL, 13_command_queues.md Table 13.10
  | hqSqStatus (n : Nat) -- HQ_SQn_STATUS, 13_command_queues.md Table 13.11
  | hqSqDone (n : Nat) -- HQ_SQn_DONE, 13_command_queues.md Table 13.12
  | hqCqBase (n : Nat) -- HQ_CQm_BASE, 13_command_queues.md Table 13.13
  | hqCqCtrl (n : Nat) -- HQ_CQm_CTRL, 13_command_queues.md Table 13.14
  | hqCqHead (n : Nat) -- HQ_CQm_HEAD, 13_command_queues.md Table 13.15
  | hqCqTail (n : Nat) -- HQ_CQm_TAIL, 13_command_queues.md Table 13.16
  | glbSqirqRoute (n : Nat) -- GLB_SQIRQ_ROUTEi, 14_square_services.md Table 14.5
  | glbSqirqPend (n : Nat) -- GLB_SQIRQ_PENDn, 14_square_services.md Table 14.6
  | glbRtHeartbeat -- GLB_RT_HEARTBEAT, 14_square_services.md Table 14.8
  | glbWrDrop -- GLB_WR_DROP, 14_square_services.md Table 14.10
  | podNode -- POD_NODE, 15_pod_transport.md Table 15.5
  | podCfg -- POD_CFG, 15_pod_transport.md Table 15.6
  | podStateBase -- POD_STATE_BASE, 15_pod_transport.md Table 15.7
  | podEvent -- POD_EVENT, 15_pod_transport.md Table 15.8
  | podXstat -- POD_XSTAT, 15_pod_transport.md Table 15.9
  | podCtxJob (n : Nat) -- POD_CTXn_JOB, 15_pod_transport.md Table 15.10
  | podCtxMap (n : Nat) -- POD_CTXn_MAP, 15_pod_transport.md Table 15.11
  | podPortStatus (n : Nat) -- POD_PORTp_STATUS, 15_pod_transport.md Table 15.12
  | podPortFec (n : Nat) -- POD_PORTp_FEC, 15_pod_transport.md Table 15.13
  | podPortFrames (n : Nat) -- POD_PORTp_FRAMES, 15_pod_transport.md Table 15.14
  | podTime -- POD_TIME, 15_pod_transport.md Table 15.15
  | podTimeCtl -- POD_TIME_CTL, 15_pod_transport.md Table 15.16
  | podTimeSet -- POD_TIME_SET, 15_pod_transport.md Table 15.17
  | podCollStat (n : Nat) -- POD_COLLe_STAT, 16_collectives_muster.md Table 16.10
  | podCollErr -- POD_COLL_ERR, 16_collectives_muster.md Table 16.11
  | podMusterStat -- POD_MUSTER_STAT, 16_collectives_muster.md Table 16.12
  | pwrCapWatts -- PWR_CAP_WATTS, 17_power_control.md Table 17.3
  | pwrWindow -- PWR_WINDOW, 17_power_control.md Table 17.4
  | pwrCtl -- PWR_CTL, 17_power_control.md Table 17.5
  | pwrStatus -- PWR_STATUS, 17_power_control.md Table 17.6
  | pwrEvent -- PWR_EVENT, 17_power_control.md Table 17.7
  | pwrOp -- PWR_OP, 17_power_control.md Table 17.8
  | pwrHint -- PWR_HINT, 17_power_control.md Table 17.9
  | pwrHintCnt -- PWR_HINT_CNT, 17_power_control.md Table 17.10
  | pwrTemp (n : Nat) -- PWR_TEMPd, 17_power_control.md Table 17.11
  | pwrPoolStat (n : Nat) -- PWR_POOLd_STAT, 17_power_control.md Table 17.12
  | pwrEnergy -- PWR_ENERGY, 17_power_control.md Table 17.13
  | bootStatus -- BOOT_STATUS, 18_reset_boot_firmware.md Table 18.8
  | bootCtl -- BOOT_CTL, 18_reset_boot_firmware.md Table 18.9
  | bootReset -- BOOT_RESET, 18_reset_boot_firmware.md Table 18.10
  | bootId (n : Nat) -- BOOT_IDn, 18_reset_boot_firmware.md Table 18.11
  | bootSvn -- BOOT_SVN, 18_reset_boot_firmware.md Table 18.12
  | bootRetire -- BOOT_RETIRE, 18_reset_boot_firmware.md Table 18.13
  | fltErrRing -- FLT_ERR_RING, 19_faults_and_errors.md Table 19.6
  | fltErrPtr -- FLT_ERR_PTR, 19_faults_and_errors.md Table 19.7
  | fltErrCtl -- FLT_ERR_CTL, 19_faults_and_errors.md Table 19.8
  | fltErrStat -- FLT_ERR_STAT, 19_faults_and_errors.md Table 19.9
  | fltFatal -- FLT_FATAL, 19_faults_and_errors.md Table 19.10
  | fltCtxFail -- FLT_CTX_FAIL, 19_faults_and_errors.md Table 19.11
  | fltCtxState (n : Nat) -- FLT_CTXn_STATE, 19_faults_and_errors.md Table 19.12
  | fltCtxAddr (n : Nat) -- FLT_CTXn_ADDR, 19_faults_and_errors.md Table 19.13
  | fltHalted (n : Nat) -- FLT_HALTEDk, 19_faults_and_errors.md Table 19.14
  | clMemEcc (c : Nat) -- CL_MEM_ECC, 19_faults_and_errors.md Table 19.15
  | obsTraceRing -- OBS_TRACE_RING, 20_observation_and_test.md Table 20.6
  | obsTracePtr -- OBS_TRACE_PTR, 20_observation_and_test.md Table 20.7
  | obsTraceCtl -- OBS_TRACE_CTL, 20_observation_and_test.md Table 20.8
  | obsTraceStat -- OBS_TRACE_STAT, 20_observation_and_test.md Table 20.9
  | obsEvent -- OBS_EVENT, 20_observation_and_test.md Table 20.10
  | obsCtrCtl -- OBS_CTR_CTL, 20_observation_and_test.md Table 20.11
  | obsPctrOvf (n : Nat) -- OBS_PCTR_OVFn, 20_observation_and_test.md Table 20.12
  | obsCtxTrace (n : Nat) -- OBS_CTXn_TRACE, 20_observation_and_test.md Table 20.13
  | obsPsel (n : Nat) -- OBS_PSELk, 20_observation_and_test.md Table 20.14
  | obsPctr (n : Nat) -- OBS_PCTRk, 20_observation_and_test.md Table 20.15
  | clCtrSel (c n : Nat) -- CL_CTR_SELk, 20_observation_and_test.md Table 20.16
  | clCtr (c n : Nat) -- CL_CTRk, 20_observation_and_test.md Table 20.17
  | clCtrOvf (c : Nat) -- CL_CTR_OVF, 20_observation_and_test.md Table 20.18
  | sbId -- SB_ID, 21_electrical_mechanical.md Table 21.6
  | sbStatus -- SB_STATUS, 21_electrical_mechanical.md Table 21.7
  | sbTrip -- SB_TRIP, 21_electrical_mechanical.md Table 21.8
  | sbTemp (n : Nat) -- SB_TEMPd, 21_electrical_mechanical.md Table 21.9
  | sbPower -- SB_POWER, 21_electrical_mechanical.md Table 21.10
  | sbVin -- SB_VIN, 21_electrical_mechanical.md Table 21.11
  deriving DecidableEq, Repr

/-- The field names of the register tables. -/
inductive RF where
  | accepted | action | active | addr | all | aperture | arrived | badSize | base | bundleSvn
  | busy | cap | capUnmet | capUnmetTicks | ce | class | clearAll | code | cold | completed
  | consumed | consumer | core | corrected | count | cq | crcErrors | creditWaits | ctrOvf | ctx
  | ctxFailures | data | dirCorr | dirEvict | disReads | disWrites | domain | doneSeq | downCount | dropped
  | drops | en | enable | entry0 | entry1 | entry2 | entry3 | error | event | failed
  | fatalCode | fault | faults | fecCorr | fecUncorr | fetched | first | flit | followLock | forced
  | frame | freeze | fullWaits | fwMin | gmEn | go | grants | halted | handles | hard
  | head | health | held | hintEn | host | hostDrop | hostEpReads | hot | id | ignored
  | increment | inflight | inst | invRefused | irq | irqEn | jobId | keepMem | keySlot | kind
  | kinds | lastBell | lastCore | lastCtx | lastEpoch | lastHost | lastKind | lastOffset | lastOutcome | lastPeer
  | lastQueue | lastRank | lastReason | lastReset | lastRing | len | limitMs | localK | lockLost | locked
  | logCe | logical | lost | lsKib | mask | maxWait | mergeWait | mismatch | misses | mj
  | mode | mult | myRank | nLog2 | nacks | new | nodeId | ns | odeCe | offset
  | op | openCount | openMask | ov | ovf | ownParity | ownRefused | owner | ownerFaults | pAvg
  | pRes | pTick | parity | part | parties | passes | pcp | peak | peakEvents | peerLost
  | peerTimeoutMs | periodH | permitWait | pgDrop | phys0 | phys1 | phys2 | phys3 | phys4 | phys5
  | phys6 | phys7 | poisonReads | portChange | powerW | ppsEn | priority1 | producer | ptpDomain | q
  | queue | queued | railsOn | raised | ranks | rdFail | ref2x | refused | remainUs | remote
  | remoteDrop | replays | resetRefused | resume | retransmits | revoked | ringRefused | rootLock | ropes | rows
  | rsvGrants | rtoUs | rx | rxDiscard | rxRefused | sealWait | sealWaits | seconds | sector | segments
  | seqLow | shadowWait | sizeLog2 | slot | slotsLow | soft | speed | split | sramDrops | stage
  | start | state | step | symbol | table | tagParity | tail | targetUs | temp | tempHot
  | tempWarn | therm | timeUnlock | timeouts | traceLost | traceWater | trained | tripTemp | tx | txDrop
  | ue | uncorr | up | uv | valid | value | vcdMv | vecErr | vecFatal | vector
  | vid | vin | vinOk | vlanEn | vsqMv | vsramMv | waitKind | waits | warn | water
  | whereCode | width | winFaults | window | windowMs | xltStall
  deriving DecidableEq, Repr

/-- A field of a register: name, lowest bit, width, access. -/
structure RegField where
  name : RF
  lo : Nat
  w : Nat
  acc : Access
  deriving DecidableEq, Repr

/-- The address of a register. -/
def Reg.addr : Reg → Nat
  | .glbClkStatus => 0x10
  | .glbD2dStatus => 0x18
  | .glbD2dErr n => 0x20 + 0x8 * n
  | .glbSpareCd n => 0x60 + 0x8 * n
  | .glbPhysMap n => 0x1000 + 0x8 * n
  | .fltShadowCtl n => 0x200800 + 0x8 * n
  | .fltShadowCnt n => 0x200A00 + 0x8 * n
  | .fltShadowRing => 0x200C00
  | .fltShadowPtr => 0x200C08
  | .clTeStat c => 0x1000400 + 0x4000 * c
  | .clTeEcc c => 0x1000408 + 0x4000 * c
  | .clOccupancy c => 0x1000200 + 0x4000 * c
  | .bellVal n => 0x400000 + 0x8 * n
  | .bellSig n => 0x420000 + 0x8 * n
  | .bellOwner n => 0x440000 + 0x8 * n
  | .bellStatus => 0x460000
  | .clHaulStat c => 0x1000500 + 0x4000 * c
  | .clHaulDrops c => 0x1000508 + 0x4000 * c
  | .xltCtx n => 0x500000 + 0x8 * n
  | .xltInvStart => 0x500400
  | .xltInvLen => 0x500408
  | .xltInvCtrl => 0x500410
  | .xltStatus => 0x500418
  | .xltOwnCtrl => 0x500500
  | .xltOwnRead => 0x500508
  | .fltXfNew n => 0x201000 + 0x8 * n
  | .fltXfOpen n => 0x201020 + 0x8 * n
  | .fltXfResolve => 0x201040
  | .fltXfStat => 0x201048
  | .fltXfRecW n => 0x202000 + 0x8 * n
  | .clRcStat c => 0x1000600 + 0x4000 * c
  | .glbSwpStart n => 0x2000 + 0x20 * n
  | .glbSwpLen n => 0x2008 + 0x20 * n
  | .glbSwpCtrl n => 0x2010 + 0x20 * n
  | .glbCacheErr n => 0x2018 + 0x20 * n
  | .glbHomeStat n => 0x2100 + 0x8 * n
  | .glbMemPlace => 0x3000
  | .glbMemScrub => 0x3008
  | .glbMemStat n => 0x3100 + 0x8 * n
  | .glbMemErr n => 0x3200 + 0x8 * n
  | .glbMemLast n => 0x3300 + 0x8 * n
  | .hqWinBase n => 0x100000 + 0x10 * n
  | .hqWinArrived n => 0x100008 + 0x10 * n
  | .hqWinStat => 0x100040
  | .hqLinkStatus => 0x100100
  | .hqLinkDrop => 0x100108
  | .hqDoorbell => 0x101000
  | .hqQdrop => 0x101008
  | .hqSqBase n => 0x102000 + 0x20 * n
  | .hqSqCtrl n => 0x102008 + 0x20 * n
  | .hqSqStatus n => 0x102010 + 0x20 * n
  | .hqSqDone n => 0x102018 + 0x20 * n
  | .hqCqBase n => 0x104000 + 0x20 * n
  | .hqCqCtrl n => 0x104008 + 0x20 * n
  | .hqCqHead n => 0x104010 + 0x20 * n
  | .hqCqTail n => 0x104018 + 0x20 * n
  | .glbSqirqRoute n => 0x4000 + 0x8 * n
  | .glbSqirqPend n => 0x4400 + 0x8 * n
  | .glbRtHeartbeat => 0x4500
  | .glbWrDrop => 0x80
  | .podNode => 0x700000
  | .podCfg => 0x700008
  | .podStateBase => 0x700010
  | .podEvent => 0x700018
  | .podXstat => 0x700020
  | .podCtxJob n => 0x700100 + 0x10 * n
  | .podCtxMap n => 0x700108 + 0x10 * n
  | .podPortStatus n => 0x701000 + 0x20 * n
  | .podPortFec n => 0x701008 + 0x20 * n
  | .podPortFrames n => 0x701010 + 0x20 * n
  | .podTime => 0x702000
  | .podTimeCtl => 0x702008
  | .podTimeSet => 0x702010
  | .podCollStat n => 0x704000 + 0x10 * n
  | .podCollErr => 0x704040
  | .podMusterStat => 0x704080
  | .pwrCapWatts => 0x300000
  | .pwrWindow => 0x300008
  | .pwrCtl => 0x300010
  | .pwrStatus => 0x300018
  | .pwrEvent => 0x300020
  | .pwrOp => 0x300028
  | .pwrHint => 0x300030
  | .pwrHintCnt => 0x300038
  | .pwrTemp n => 0x300040 + 0x8 * n
  | .pwrPoolStat n => 0x300080 + 0x8 * n
  | .pwrEnergy => 0x3000A0
  | .bootStatus => 0x800000
  | .bootCtl => 0x800008
  | .bootReset => 0x800010
  | .bootId n => 0x800018 + 0x8 * n
  | .bootSvn => 0x800028
  | .bootRetire => 0x800030
  | .fltErrRing => 0x204000
  | .fltErrPtr => 0x204008
  | .fltErrCtl => 0x204010
  | .fltErrStat => 0x204018
  | .fltFatal => 0x204020
  | .fltCtxFail => 0x204028
  | .fltCtxState n => 0x204100 + 0x10 * n
  | .fltCtxAddr n => 0x204108 + 0x10 * n
  | .fltHalted n => 0x204800 + 0x8 * n
  | .clMemEcc c => 0x1000700 + 0x4000 * c
  | .obsTraceRing => 0x600000
  | .obsTracePtr => 0x600008
  | .obsTraceCtl => 0x600010
  | .obsTraceStat => 0x600018
  | .obsEvent => 0x600020
  | .obsCtrCtl => 0x600028
  | .obsPctrOvf n => 0x600040 + 0x8 * n
  | .obsCtxTrace n => 0x600100 + 0x8 * n
  | .obsPsel n => 0x601000 + 0x10 * n
  | .obsPctr n => 0x601008 + 0x10 * n
  | .clCtrSel c n => 0x1000800 + 0x4000 * c + 0x10 * n
  | .clCtr c n => 0x1000808 + 0x4000 * c + 0x10 * n
  | .clCtrOvf c => 0x1000900 + 0x4000 * c
  | .sbId => 0x100000000
  | .sbStatus => 0x100000004
  | .sbTrip => 0x100000008
  | .sbTemp n => 0x100000010 + 0x4 * n
  | .sbPower => 0x100000024
  | .sbVin => 0x100000028

/-- The value a register table gives for reset; a fused or boot-set value is 0 here (log 3, log 4). -/
def Reg.reset : Reg → Nat
  | .fltShadowCtl _ => 0xA
  | .glbMemScrub => 0x8000000000000018
  | .glbRtHeartbeat => 0x3E800000000
  | .podCfg => 0xA080640800
  | .podTimeCtl => 0x80000000000000
  | .pwrCapWatts => 0x12C0
  | .pwrWindow => 0xFA0
  | .pwrCtl => 0x1
  | .obsPsel _ => 0xFF3F00
  | .clCtrSel _ _ => 0x3F00
  | .sbId => 0x20400000
  | _ => 0

/-- The width of a register in bits. -/
def Reg.width : Reg → Nat
  | .glbClkStatus => 32
  | .glbD2dStatus => 32
  | .sbId => 32
  | .sbStatus => 32
  | .sbTrip => 32
  | .sbTemp _ => 32
  | .sbPower => 32
  | .sbVin => 32
  | _ => 64

/-- The fields of a register, from the most significant. -/
def Reg.fields : Reg → List RegField
  | .glbClkStatus =>
    [⟨.lockLost, 31, 1, .ro⟩,
     ⟨.mult, 8, 8, .ro⟩,
     ⟨.followLock, 1, 4, .ro⟩,
     ⟨.rootLock, 0, 1, .ro⟩]
  | .glbD2dStatus =>
    [⟨.failed, 24, 8, .ro⟩,
     ⟨.trained, 8, 8, .ro⟩]
  | .glbD2dErr _ =>
    [⟨.replays, 32, 32, .ro⟩,
     ⟨.crcErrors, 0, 32, .ro⟩]
  | .glbSpareCd _ =>
    [⟨.entry3, 48, 16, .ro⟩,
     ⟨.entry2, 32, 16, .ro⟩,
     ⟨.entry1, 16, 16, .ro⟩,
     ⟨.entry0, 0, 16, .ro⟩]
  | .glbPhysMap _ =>
    [⟨.phys7, 56, 8, .ro⟩,
     ⟨.phys6, 48, 8, .ro⟩,
     ⟨.phys5, 40, 8, .ro⟩,
     ⟨.phys4, 32, 8, .ro⟩,
     ⟨.phys3, 24, 8, .ro⟩,
     ⟨.phys2, 16, 8, .ro⟩,
     ⟨.phys1, 8, 8, .ro⟩,
     ⟨.phys0, 0, 8, .ro⟩]
  | .fltShadowCtl _ =>
    [⟨.nLog2, 0, 5, .rw⟩]
  | .fltShadowCnt _ =>
    [⟨.hard, 32, 32, .ro⟩,
     ⟨.soft, 0, 32, .ro⟩]
  | .fltShadowRing =>
    [⟨.base, 8, 56, .rw⟩,
     ⟨.sizeLog2, 0, 4, .rw⟩]
  | .fltShadowPtr =>
    [⟨.dropped, 48, 16, .w1c⟩,
     ⟨.consumer, 24, 22, .rw⟩,
     ⟨.producer, 0, 22, .ro⟩]
  | .clTeStat _ =>
    [⟨.permitWait, 32, 32, .ro⟩,
     ⟨.mergeWait, 16, 16, .ro⟩,
     ⟨.shadowWait, 0, 16, .ro⟩]
  | .clTeEcc _ =>
    [⟨.uncorr, 63, 1, .ro⟩,
     ⟨.corrected, 0, 32, .w1c⟩]
  | .clOccupancy _ =>
    [⟨.split, 60, 2, .ro⟩,
     ⟨.lsKib, 48, 12, .ro⟩,
     ⟨.rows, 32, 13, .ro⟩,
     ⟨.handles, 21, 5, .ro⟩,
     ⟨.parties, 16, 5, .ro⟩,
     ⟨.slotsLow, 8, 6, .ro⟩,
     ⟨.ropes, 0, 7, .ro⟩]
  | .bellVal _ =>
    [⟨.value, 0, 64, .ro⟩]
  | .bellSig _ =>
    [⟨.increment, 0, 64, .wo⟩]
  | .bellOwner _ =>
    [⟨.host, 9, 1, .rw⟩,
     ⟨.remote, 8, 1, .rw⟩,
     ⟨.ctx, 0, 6, .rw⟩]
  | .bellStatus =>
    [⟨.lastBell, 48, 14, .ro⟩,
     ⟨.remoteDrop, 32, 16, .w1c⟩,
     ⟨.hostDrop, 16, 16, .w1c⟩,
     ⟨.ownerFaults, 0, 16, .w1c⟩]
  | .clHaulStat _ =>
    [⟨.xltStall, 32, 32, .ro⟩,
     ⟨.inflight, 8, 3, .ro⟩,
     ⟨.queued, 0, 6, .ro⟩]
  | .clHaulDrops _ =>
    [⟨.drops, 0, 48, .w1c⟩]
  | .xltCtx _ =>
    [⟨.valid, 63, 1, .rw⟩,
     ⟨.aperture, 61, 2, .rw⟩,
     ⟨.count, 40, 17, .rw⟩,
     ⟨.base, 12, 28, .rw⟩]
  | .xltInvStart =>
    [⟨.start, 16, 39, .rw⟩]
  | .xltInvLen =>
    [⟨.len, 16, 40, .rw⟩]
  | .xltInvCtrl =>
    [⟨.go, 63, 1, .wo⟩,
     ⟨.busy, 62, 1, .ro⟩,
     ⟨.all, 61, 1, .rw⟩,
     ⟨.ctx, 32, 6, .rw⟩,
     ⟨.doneSeq, 0, 32, .ro⟩]
  | .xltStatus =>
    [⟨.invRefused, 48, 16, .w1c⟩,
     ⟨.ownRefused, 32, 16, .w1c⟩,
     ⟨.winFaults, 16, 16, .w1c⟩,
     ⟨.ownParity, 0, 16, .w1c⟩]
  | .xltOwnCtrl =>
    [⟨.go, 63, 1, .wo⟩,
     ⟨.busy, 62, 1, .ro⟩,
     ⟨.owner, 48, 6, .rw⟩,
     ⟨.count, 19, 19, .rw⟩,
     ⟨.first, 0, 19, .rw⟩]
  | .xltOwnRead =>
    [⟨.owner, 48, 6, .ro⟩,
     ⟨.frame, 0, 19, .rw⟩]
  | .fltXfNew _ =>
    [⟨.new, 0, 64, .w1c⟩]
  | .fltXfOpen _ =>
    [⟨.openMask, 0, 64, .ro⟩]
  | .fltXfResolve =>
    [⟨.action, 63, 1, .wo⟩,
     ⟨.slot, 0, 8, .wo⟩]
  | .fltXfStat =>
    [⟨.ovf, 48, 16, .w1c⟩,
     ⟨.held, 16, 16, .ro⟩,
     ⟨.openCount, 0, 9, .ro⟩]
  | .fltXfRecW _ =>
    [⟨.data, 0, 64, .ro⟩]
  | .clRcStat _ =>
    [⟨.misses, 32, 32, .ro⟩,
     ⟨.parity, 16, 16, .w1c⟩,
     ⟨.corrected, 0, 16, .w1c⟩]
  | .glbSwpStart _ =>
    [⟨.start, 16, 24, .rw⟩]
  | .glbSwpLen _ =>
    [⟨.len, 16, 25, .rw⟩]
  | .glbSwpCtrl _ =>
    [⟨.go, 63, 1, .wo⟩,
     ⟨.busy, 62, 1, .ro⟩,
     ⟨.all, 61, 1, .rw⟩,
     ⟨.op, 60, 1, .rw⟩,
     ⟨.refused, 32, 16, .w1c⟩,
     ⟨.doneSeq, 0, 32, .ro⟩]
  | .glbCacheErr _ =>
    [⟨.tagParity, 48, 16, .w1c⟩,
     ⟨.uncorr, 32, 16, .w1c⟩,
     ⟨.corrected, 0, 32, .w1c⟩]
  | .glbHomeStat _ =>
    [⟨.nacks, 40, 24, .w1c⟩,
     ⟨.rsvGrants, 24, 16, .w1c⟩,
     ⟨.dirEvict, 8, 16, .w1c⟩,
     ⟨.dirCorr, 0, 8, .w1c⟩]
  | .glbMemPlace =>
    [⟨.localK, 0, 6, .ro⟩]
  | .glbMemScrub =>
    [⟨.enable, 63, 1, .rw⟩,
     ⟨.passes, 16, 32, .ro⟩,
     ⟨.periodH, 0, 8, .rw⟩]
  | .glbMemStat _ =>
    [⟨.failed, 63, 1, .ro⟩,
     ⟨.trained, 62, 1, .ro⟩,
     ⟨.hot, 61, 1, .ro⟩,
     ⟨.ref2x, 60, 1, .ro⟩,
     ⟨.poisonReads, 32, 16, .w1c⟩,
     ⟨.temp, 0, 8, .ro⟩]
  | .glbMemErr _ =>
    [⟨.odeCe, 48, 16, .w1c⟩,
     ⟨.ue, 32, 16, .w1c⟩,
     ⟨.ce, 0, 32, .w1c⟩]
  | .glbMemLast _ =>
    [⟨.valid, 63, 1, .w1c⟩,
     ⟨.kind, 60, 3, .ro⟩,
     ⟨.symbol, 56, 4, .ro⟩,
     ⟨.sector, 5, 31, .ro⟩]
  | .hqWinBase _ =>
    [⟨.enable, 63, 1, .rw⟩,
     ⟨.ctx, 56, 6, .rw⟩,
     ⟨.base, 16, 40, .rw⟩]
  | .hqWinArrived _ =>
    [⟨.arrived, 0, 64, .ro⟩]
  | .hqWinStat =>
    [⟨.disWrites, 48, 16, .w1c⟩,
     ⟨.disReads, 32, 16, .w1c⟩,
     ⟨.badSize, 16, 16, .w1c⟩]
  | .hqLinkStatus =>
    [⟨.up, 63, 1, .ro⟩,
     ⟨.downCount, 32, 16, .w1c⟩,
     ⟨.speed, 16, 4, .ro⟩,
     ⟨.width, 8, 5, .ro⟩,
     ⟨.flit, 0, 1, .ro⟩]
  | .hqLinkDrop =>
    [⟨.txDrop, 32, 32, .w1c⟩,
     ⟨.rdFail, 0, 32, .w1c⟩]
  | .hqDoorbell =>
    [⟨.queue, 32, 8, .wo⟩,
     ⟨.producer, 0, 32, .wo⟩]
  | .hqQdrop =>
    [⟨.drops, 48, 16, .w1c⟩,
     ⟨.lastQueue, 40, 8, .ro⟩,
     ⟨.lastRing, 39, 1, .ro⟩,
     ⟨.lastHost, 38, 1, .ro⟩,
     ⟨.lastKind, 32, 4, .ro⟩]
  | .hqSqBase _ =>
    [⟨.base, 12, 44, .rw⟩,
     ⟨.sizeLog2, 0, 4, .rw⟩]
  | .hqSqCtrl _ =>
    [⟨.enable, 63, 1, .rw⟩,
     ⟨.resume, 62, 1, .wo⟩,
     ⟨.owner, 60, 1, .ro⟩,
     ⟨.ctx, 48, 6, .rw⟩,
     ⟨.cq, 40, 6, .rw⟩]
  | .hqSqStatus _ =>
    [⟨.state, 61, 3, .ro⟩,
     ⟨.sealWait, 60, 1, .ro⟩,
     ⟨.waitKind, 56, 4, .ro⟩,
     ⟨.sealWaits, 32, 16, .w1c⟩,
     ⟨.fetched, 0, 32, .ro⟩]
  | .hqSqDone _ =>
    [⟨.completed, 0, 32, .ro⟩]
  | .hqCqBase _ =>
    [⟨.base, 12, 44, .rw⟩,
     ⟨.sizeLog2, 0, 4, .rw⟩]
  | .hqCqCtrl _ =>
    [⟨.enable, 63, 1, .rw⟩,
     ⟨.irq, 62, 1, .rw⟩,
     ⟨.owner, 60, 1, .ro⟩,
     ⟨.vector, 32, 11, .rw⟩,
     ⟨.fullWaits, 16, 16, .w1c⟩]
  | .hqCqHead _ =>
    [⟨.head, 0, 32, .rw⟩]
  | .hqCqTail _ =>
    [⟨.tail, 0, 32, .ro⟩]
  | .glbSqirqRoute _ =>
    [⟨.enable, 63, 1, .rw⟩,
     ⟨.core, 0, 7, .rw⟩]
  | .glbSqirqPend _ =>
    [⟨.raised, 0, 64, .ro⟩]
  | .glbRtHeartbeat =>
    [⟨.limitMs, 32, 16, .rw⟩,
     ⟨.count, 0, 32, .rw⟩]
  | .glbWrDrop =>
    [⟨.drops, 48, 16, .w1c⟩,
     ⟨.lastCore, 32, 7, .ro⟩,
     ⟨.lastOffset, 0, 26, .ro⟩]
  | .podNode =>
    [⟨.valid, 63, 1, .rw⟩,
     ⟨.domain, 16, 8, .rw⟩,
     ⟨.nodeId, 0, 16, .rw⟩]
  | .podCfg =>
    [⟨.pcp, 59, 3, .rw⟩,
     ⟨.vid, 47, 12, .rw⟩,
     ⟨.vlanEn, 46, 1, .rw⟩,
     ⟨.peerTimeoutMs, 36, 10, .rw⟩,
     ⟨.targetUs, 28, 8, .rw⟩,
     ⟨.rtoUs, 16, 12, .rw⟩,
     ⟨.window, 0, 13, .rw⟩]
  | .podStateBase =>
    [⟨.base, 21, 19, .ro⟩]
  | .podEvent =>
    [⟨.lastPeer, 32, 16, .ro⟩,
     ⟨.rxRefused, 3, 1, .w1c⟩,
     ⟨.timeUnlock, 2, 1, .w1c⟩,
     ⟨.peerLost, 1, 1, .w1c⟩,
     ⟨.portChange, 0, 1, .w1c⟩]
  | .podXstat =>
    [⟨.retransmits, 32, 32, .w1c⟩,
     ⟨.timeouts, 16, 16, .w1c⟩,
     ⟨.rxDiscard, 0, 16, .w1c⟩]
  | .podCtxJob _ =>
    [⟨.valid, 63, 1, .rw⟩,
     ⟨.ranks, 32, 17, .rw⟩,
     ⟨.jobId, 0, 32, .rw⟩]
  | .podCtxMap _ =>
    [⟨.myRank, 48, 16, .rw⟩,
     ⟨.table, 5, 35, .rw⟩]
  | .podPortStatus _ =>
    [⟨.up, 63, 1, .ro⟩,
     ⟨.mode, 60, 3, .ro⟩,
     ⟨.downCount, 32, 16, .w1c⟩,
     ⟨.fecUncorr, 0, 32, .w1c⟩]
  | .podPortFec _ =>
    [⟨.fecCorr, 0, 48, .w1c⟩]
  | .podPortFrames _ =>
    [⟨.tx, 32, 32, .ro⟩,
     ⟨.rx, 0, 32, .ro⟩]
  | .podTime =>
    [⟨.ns, 0, 64, .ro⟩]
  | .podTimeCtl =>
    [⟨.locked, 63, 1, .ro⟩,
     ⟨.gmEn, 62, 1, .rw⟩,
     ⟨.ppsEn, 61, 1, .rw⟩,
     ⟨.priority1, 48, 8, .rw⟩,
     ⟨.ptpDomain, 40, 8, .rw⟩,
     ⟨.offset, 0, 32, .ro⟩]
  | .podTimeSet =>
    [⟨.seconds, 0, 64, .wo⟩]
  | .podCollStat _ =>
    [⟨.segments, 32, 32, .ro⟩,
     ⟨.active, 16, 6, .ro⟩,
     ⟨.creditWaits, 0, 16, .w1c⟩]
  | .podCollErr =>
    [⟨.mismatch, 48, 16, .w1c⟩,
     ⟨.lastCtx, 32, 6, .ro⟩,
     ⟨.lastPeer, 0, 16, .ro⟩]
  | .podMusterStat =>
    [⟨.lastEpoch, 32, 32, .ro⟩,
     ⟨.lastOutcome, 28, 4, .ro⟩,
     ⟨.lastReason, 24, 4, .ro⟩,
     ⟨.lastCtx, 16, 6, .ro⟩,
     ⟨.lastRank, 0, 16, .ro⟩]
  | .pwrCapWatts =>
    [⟨.cap, 0, 13, .rw⟩]
  | .pwrWindow =>
    [⟨.windowMs, 0, 14, .rw⟩]
  | .pwrCtl =>
    [⟨.hintEn, 0, 1, .rw⟩]
  | .pwrStatus =>
    [⟨.q, 56, 8, .ro⟩,
     ⟨.forced, 55, 1, .ro⟩,
     ⟨.pTick, 32, 16, .ro⟩,
     ⟨.pAvg, 16, 16, .ro⟩,
     ⟨.pRes, 0, 16, .ro⟩]
  | .pwrEvent =>
    [⟨.peakEvents, 48, 16, .w1c⟩,
     ⟨.capUnmetTicks, 32, 16, .w1c⟩,
     ⟨.tempHot, 3, 1, .w1c⟩,
     ⟨.tempWarn, 2, 1, .w1c⟩,
     ⟨.peak, 1, 1, .w1c⟩,
     ⟨.capUnmet, 0, 1, .w1c⟩]
  | .pwrOp =>
    [⟨.vsramMv, 48, 10, .ro⟩,
     ⟨.vsqMv, 32, 10, .ro⟩,
     ⟨.vcdMv, 16, 10, .ro⟩,
     ⟨.op, 0, 2, .ro⟩]
  | .pwrHint =>
    [⟨.active, 63, 1, .ro⟩,
     ⟨.mask, 48, 4, .ro⟩,
     ⟨.powerW, 32, 16, .ro⟩,
     ⟨.remainUs, 0, 32, .ro⟩]
  | .pwrHintCnt =>
    [⟨.accepted, 32, 32, .ro⟩,
     ⟨.ignored, 0, 16, .w1c⟩]
  | .pwrTemp _ =>
    [⟨.hot, 63, 1, .ro⟩,
     ⟨.warn, 62, 1, .ro⟩,
     ⟨.temp, 0, 8, .ro⟩]
  | .pwrPoolStat _ =>
    [⟨.grants, 32, 32, .ro⟩,
     ⟨.waits, 16, 16, .w1c⟩,
     ⟨.maxWait, 0, 10, .w1c⟩]
  | .pwrEnergy =>
    [⟨.mj, 0, 64, .ro⟩]
  | .bootStatus =>
    [⟨.stage, 60, 4, .ro⟩,
     ⟨.error, 56, 4, .ro⟩,
     ⟨.health, 54, 2, .ro⟩,
     ⟨.sramDrops, 32, 16, .w1c⟩,
     ⟨.resetRefused, 16, 16, .w1c⟩,
     ⟨.lastReset, 0, 2, .ro⟩]
  | .bootCtl =>
    [⟨.go, 63, 1, .wo⟩]
  | .bootReset =>
    [⟨.cold, 63, 1, .wo⟩,
     ⟨.keepMem, 62, 1, .wo⟩]
  | .bootId _ =>
    [⟨.id, 0, 64, .ro⟩]
  | .bootSvn =>
    [⟨.fwMin, 56, 7, .ro⟩,
     ⟨.bundleSvn, 48, 7, .ro⟩,
     ⟨.keySlot, 8, 2, .ro⟩,
     ⟨.revoked, 0, 4, .ro⟩]
  | .bootRetire =>
    [⟨.go, 63, 1, .wo⟩,
     ⟨.refused, 62, 1, .w1c⟩,
     ⟨.logical, 0, 10, .rw⟩]
  | .fltErrRing =>
    [⟨.base, 8, 56, .rw⟩,
     ⟨.sizeLog2, 0, 4, .rw⟩]
  | .fltErrPtr =>
    [⟨.dropped, 48, 16, .w1c⟩,
     ⟨.consumer, 24, 22, .rw⟩,
     ⟨.producer, 0, 22, .ro⟩]
  | .fltErrCtl =>
    [⟨.irqEn, 63, 1, .rw⟩,
     ⟨.logCe, 62, 1, .rw⟩,
     ⟨.vecFatal, 32, 11, .rw⟩,
     ⟨.vecErr, 0, 11, .rw⟩]
  | .fltErrStat =>
    [⟨.consumed, 48, 16, .w1c⟩,
     ⟨.hostEpReads, 32, 16, .w1c⟩,
     ⟨.ctxFailures, 0, 32, .ro⟩]
  | .fltFatal =>
    [⟨.valid, 63, 1, .ro⟩,
     ⟨.code, 32, 16, .ro⟩,
     ⟨.whereCode, 0, 16, .ro⟩]
  | .fltCtxFail =>
    [⟨.go, 63, 1, .wo⟩,
     ⟨.ctx, 0, 6, .wo⟩]
  | .fltCtxState _ =>
    [⟨.failed, 63, 1, .ro⟩,
     ⟨.class, 60, 3, .ro⟩,
     ⟨.code, 32, 16, .ro⟩,
     ⟨.faults, 16, 16, .ro⟩,
     ⟨.seqLow, 0, 16, .ro⟩]
  | .fltCtxAddr _ =>
    [⟨.addr, 0, 64, .ro⟩]
  | .fltHalted _ =>
    [⟨.halted, 0, 64, .ro⟩]
  | .clMemEcc _ =>
    [⟨.uncorr, 63, 1, .ro⟩,
     ⟨.corrected, 0, 32, .w1c⟩]
  | .obsTraceRing =>
    [⟨.base, 12, 44, .rw⟩,
     ⟨.sizeLog2, 0, 5, .rw⟩]
  | .obsTracePtr =>
    [⟨.consumer, 32, 32, .rw⟩,
     ⟨.producer, 0, 32, .ro⟩]
  | .obsTraceCtl =>
    [⟨.enable, 63, 1, .rw⟩,
     ⟨.mode, 62, 1, .rw⟩,
     ⟨.water, 0, 32, .rw⟩]
  | .obsTraceStat =>
    [⟨.lost, 32, 32, .w1c⟩,
     ⟨.ringRefused, 0, 16, .w1c⟩]
  | .obsEvent =>
    [⟨.ctrOvf, 2, 1, .w1c⟩,
     ⟨.traceLost, 1, 1, .w1c⟩,
     ⟨.traceWater, 0, 1, .w1c⟩]
  | .obsCtrCtl =>
    [⟨.enable, 63, 1, .rw⟩,
     ⟨.freeze, 62, 1, .rw⟩,
     ⟨.clearAll, 61, 1, .wo⟩]
  | .obsPctrOvf _ =>
    [⟨.ovf, 0, 64, .w1c⟩]
  | .obsCtxTrace _ =>
    [⟨.kinds, 0, 7, .rw⟩]
  | .obsPsel _ =>
    [⟨.en, 63, 1, .rw⟩,
     ⟨.inst, 16, 8, .rw⟩,
     ⟨.ctx, 8, 6, .rw⟩,
     ⟨.event, 0, 8, .rw⟩]
  | .obsPctr _ =>
    [⟨.value, 0, 48, .rw⟩]
  | .clCtrSel _ _ =>
    [⟨.en, 63, 1, .rw⟩,
     ⟨.ctx, 8, 6, .rw⟩,
     ⟨.event, 0, 4, .rw⟩]
  | .clCtr _ _ =>
    [⟨.value, 0, 48, .rw⟩]
  | .clCtrOvf _ =>
    [⟨.ovf, 0, 16, .w1c⟩]
  | .sbId =>
    [⟨.part, 16, 16, .ro⟩,
     ⟨.step, 0, 8, .ro⟩]
  | .sbStatus =>
    [⟨.vinOk, 31, 1, .ro⟩,
     ⟨.railsOn, 30, 1, .ro⟩,
     ⟨.fault, 29, 1, .ro⟩,
     ⟨.stage, 24, 4, .ro⟩,
     ⟨.health, 22, 2, .ro⟩,
     ⟨.fatalCode, 0, 16, .ro⟩]
  | .sbTrip =>
    [⟨.ov, 8, 1, .w1c⟩,
     ⟨.uv, 7, 1, .w1c⟩,
     ⟨.pgDrop, 6, 1, .w1c⟩,
     ⟨.therm, 0, 5, .w1c⟩]
  | .sbTemp _ =>
    [⟨.tripTemp, 8, 8, .ro⟩,
     ⟨.temp, 0, 8, .ro⟩]
  | .sbPower =>
    [⟨.pAvg, 16, 16, .ro⟩,
     ⟨.pTick, 0, 16, .ro⟩]
  | .sbVin =>
    [⟨.vin, 0, 16, .ro⟩]

/-- A family of registers with one index: first address, stride, how many, and the register of an index. -/
structure RegFamily where
  base : Nat
  stride : Nat
  count : Nat
  reg : Nat → Reg

/-- Register families, part 1. -/
def regFamilies1 : List RegFamily :=
  [⟨0x10, 0x8, 1, fun _ => .glbClkStatus⟩,
   ⟨0x18, 0x8, 1, fun _ => .glbD2dStatus⟩,
   ⟨0x20, 0x8, 8, fun n => .glbD2dErr n⟩,
   ⟨0x60, 0x8, 4, fun n => .glbSpareCd n⟩,
   ⟨0x1000, 0x8, 88, fun n => .glbPhysMap n⟩,
   ⟨0x200800, 0x8, 64, fun n => .fltShadowCtl n⟩,
   ⟨0x200A00, 0x8, 64, fun n => .fltShadowCnt n⟩,
   ⟨0x200C00, 0x8, 1, fun _ => .fltShadowRing⟩,
   ⟨0x200C08, 0x8, 1, fun _ => .fltShadowPtr⟩,
   ⟨0x400000, 0x8, 16384, fun n => .bellVal n⟩,
   ⟨0x420000, 0x8, 16384, fun n => .bellSig n⟩,
   ⟨0x440000, 0x8, 16384, fun n => .bellOwner n⟩,
   ⟨0x460000, 0x8, 1, fun _ => .bellStatus⟩,
   ⟨0x500000, 0x8, 63, fun n => .xltCtx n⟩,
   ⟨0x500400, 0x8, 1, fun _ => .xltInvStart⟩,
   ⟨0x500408, 0x8, 1, fun _ => .xltInvLen⟩,
   ⟨0x500410, 0x8, 1, fun _ => .xltInvCtrl⟩,
   ⟨0x500418, 0x8, 1, fun _ => .xltStatus⟩,
   ⟨0x500500, 0x8, 1, fun _ => .xltOwnCtrl⟩,
   ⟨0x500508, 0x8, 1, fun _ => .xltOwnRead⟩,
   ⟨0x201000, 0x8, 4, fun n => .fltXfNew n⟩,
   ⟨0x201020, 0x8, 4, fun n => .fltXfOpen n⟩,
   ⟨0x201040, 0x8, 1, fun _ => .fltXfResolve⟩,
   ⟨0x201048, 0x8, 1, fun _ => .fltXfStat⟩,
   ⟨0x202000, 0x8, 1024, fun n => .fltXfRecW n⟩,
   ⟨0x2000, 0x20, 5, fun n => .glbSwpStart n⟩,
   ⟨0x2008, 0x20, 5, fun n => .glbSwpLen n⟩,
   ⟨0x2010, 0x20, 5, fun n => .glbSwpCtrl n⟩,
   ⟨0x2018, 0x20, 5, fun n => .glbCacheErr n⟩,
   ⟨0x2100, 0x8, 20, fun n => .glbHomeStat n⟩]

/-- Register families, part 2. -/
def regFamilies2 : List RegFamily :=
  [⟨0x3000, 0x8, 1, fun _ => .glbMemPlace⟩,
   ⟨0x3008, 0x8, 1, fun _ => .glbMemScrub⟩,
   ⟨0x3100, 0x8, 20, fun n => .glbMemStat n⟩,
   ⟨0x3200, 0x8, 20, fun n => .glbMemErr n⟩,
   ⟨0x3300, 0x8, 20, fun n => .glbMemLast n⟩,
   ⟨0x100000, 0x10, 4, fun n => .hqWinBase n⟩,
   ⟨0x100008, 0x10, 4, fun n => .hqWinArrived n⟩,
   ⟨0x100040, 0x8, 1, fun _ => .hqWinStat⟩,
   ⟨0x100100, 0x8, 1, fun _ => .hqLinkStatus⟩,
   ⟨0x100108, 0x8, 1, fun _ => .hqLinkDrop⟩,
   ⟨0x101000, 0x8, 1, fun _ => .hqDoorbell⟩,
   ⟨0x101008, 0x8, 1, fun _ => .hqQdrop⟩,
   ⟨0x102000, 0x20, 256, fun n => .hqSqBase n⟩,
   ⟨0x102008, 0x20, 256, fun n => .hqSqCtrl n⟩,
   ⟨0x102010, 0x20, 256, fun n => .hqSqStatus n⟩,
   ⟨0x102018, 0x20, 256, fun n => .hqSqDone n⟩,
   ⟨0x104000, 0x20, 64, fun n => .hqCqBase n⟩,
   ⟨0x104008, 0x20, 64, fun n => .hqCqCtrl n⟩,
   ⟨0x104010, 0x20, 64, fun n => .hqCqHead n⟩,
   ⟨0x104018, 0x20, 64, fun n => .hqCqTail n⟩,
   ⟨0x4000, 0x8, 128, fun n => .glbSqirqRoute n⟩,
   ⟨0x4400, 0x8, 2, fun n => .glbSqirqPend n⟩,
   ⟨0x4500, 0x8, 1, fun _ => .glbRtHeartbeat⟩,
   ⟨0x80, 0x8, 1, fun _ => .glbWrDrop⟩,
   ⟨0x700000, 0x8, 1, fun _ => .podNode⟩,
   ⟨0x700008, 0x8, 1, fun _ => .podCfg⟩,
   ⟨0x700010, 0x8, 1, fun _ => .podStateBase⟩,
   ⟨0x700018, 0x8, 1, fun _ => .podEvent⟩,
   ⟨0x700020, 0x8, 1, fun _ => .podXstat⟩,
   ⟨0x700100, 0x10, 63, fun n => .podCtxJob n⟩]

/-- Register families, part 3. -/
def regFamilies3 : List RegFamily :=
  [⟨0x700108, 0x10, 63, fun n => .podCtxMap n⟩,
   ⟨0x701000, 0x20, 6, fun n => .podPortStatus n⟩,
   ⟨0x701008, 0x20, 6, fun n => .podPortFec n⟩,
   ⟨0x701010, 0x20, 6, fun n => .podPortFrames n⟩,
   ⟨0x702000, 0x8, 1, fun _ => .podTime⟩,
   ⟨0x702008, 0x8, 1, fun _ => .podTimeCtl⟩,
   ⟨0x702010, 0x8, 1, fun _ => .podTimeSet⟩,
   ⟨0x704000, 0x10, 4, fun n => .podCollStat n⟩,
   ⟨0x704040, 0x8, 1, fun _ => .podCollErr⟩,
   ⟨0x704080, 0x8, 1, fun _ => .podMusterStat⟩,
   ⟨0x300000, 0x8, 1, fun _ => .pwrCapWatts⟩,
   ⟨0x300008, 0x8, 1, fun _ => .pwrWindow⟩,
   ⟨0x300010, 0x8, 1, fun _ => .pwrCtl⟩,
   ⟨0x300018, 0x8, 1, fun _ => .pwrStatus⟩,
   ⟨0x300020, 0x8, 1, fun _ => .pwrEvent⟩,
   ⟨0x300028, 0x8, 1, fun _ => .pwrOp⟩,
   ⟨0x300030, 0x8, 1, fun _ => .pwrHint⟩,
   ⟨0x300038, 0x8, 1, fun _ => .pwrHintCnt⟩,
   ⟨0x300040, 0x8, 5, fun n => .pwrTemp n⟩,
   ⟨0x300080, 0x8, 4, fun n => .pwrPoolStat n⟩,
   ⟨0x3000A0, 0x8, 1, fun _ => .pwrEnergy⟩,
   ⟨0x800000, 0x8, 1, fun _ => .bootStatus⟩,
   ⟨0x800008, 0x8, 1, fun _ => .bootCtl⟩,
   ⟨0x800010, 0x8, 1, fun _ => .bootReset⟩,
   ⟨0x800018, 0x8, 2, fun n => .bootId n⟩,
   ⟨0x800028, 0x8, 1, fun _ => .bootSvn⟩,
   ⟨0x800030, 0x8, 1, fun _ => .bootRetire⟩,
   ⟨0x204000, 0x8, 1, fun _ => .fltErrRing⟩,
   ⟨0x204008, 0x8, 1, fun _ => .fltErrPtr⟩,
   ⟨0x204010, 0x8, 1, fun _ => .fltErrCtl⟩]

/-- Register families, part 4. -/
def regFamilies4 : List RegFamily :=
  [⟨0x204018, 0x8, 1, fun _ => .fltErrStat⟩,
   ⟨0x204020, 0x8, 1, fun _ => .fltFatal⟩,
   ⟨0x204028, 0x8, 1, fun _ => .fltCtxFail⟩,
   ⟨0x204100, 0x10, 63, fun n => .fltCtxState n⟩,
   ⟨0x204108, 0x10, 63, fun n => .fltCtxAddr n⟩,
   ⟨0x204800, 0x8, 11, fun n => .fltHalted n⟩,
   ⟨0x600000, 0x8, 1, fun _ => .obsTraceRing⟩,
   ⟨0x600008, 0x8, 1, fun _ => .obsTracePtr⟩,
   ⟨0x600010, 0x8, 1, fun _ => .obsTraceCtl⟩,
   ⟨0x600018, 0x8, 1, fun _ => .obsTraceStat⟩,
   ⟨0x600020, 0x8, 1, fun _ => .obsEvent⟩,
   ⟨0x600028, 0x8, 1, fun _ => .obsCtrCtl⟩,
   ⟨0x600040, 0x8, 4, fun n => .obsPctrOvf n⟩,
   ⟨0x600100, 0x8, 63, fun n => .obsCtxTrace n⟩,
   ⟨0x601000, 0x10, 256, fun n => .obsPsel n⟩,
   ⟨0x601008, 0x10, 256, fun n => .obsPctr n⟩]

/-- Register families, part 1. -/
def clFamilies1 (c : Nat) : List RegFamily :=
  [⟨0x400, 0x8, 1, fun _ => .clTeStat c⟩,
   ⟨0x408, 0x8, 1, fun _ => .clTeEcc c⟩,
   ⟨0x200, 0x8, 1, fun _ => .clOccupancy c⟩,
   ⟨0x500, 0x8, 1, fun _ => .clHaulStat c⟩,
   ⟨0x508, 0x8, 1, fun _ => .clHaulDrops c⟩,
   ⟨0x600, 0x8, 1, fun _ => .clRcStat c⟩,
   ⟨0x700, 0x8, 1, fun _ => .clMemEcc c⟩,
   ⟨0x800, 0x10, 16, fun n => .clCtrSel c n⟩,
   ⟨0x808, 0x10, 16, fun n => .clCtr c n⟩,
   ⟨0x900, 0x8, 1, fun _ => .clCtrOvf c⟩]

/-- The register whose 8-byte span holds a BAR0 address (R378); none where the offset is reserved. -/
def findReg (a : Nat) : List RegFamily → Option Reg
  | [] => none
  | f :: t =>
    if f.base ≤ a ∧ a < f.base + f.stride * f.count ∧ (a - f.base) % f.stride < 8 then
      some (f.reg ((a - f.base) / f.stride))
    else findReg a t

/-- The register at an address of BAR0. -/
def Reg.ofAddr (a : Nat) : Option Reg :=
  if 0x1000000 ≤ a then
    if a < 0x1000000 + 0x4000 * 704 then
      findReg ((a - 0x1000000) % 0x4000) (clFamilies1 ((a - 0x1000000) / 0x4000))
    else none
  else findReg a (regFamilies1 ++ regFamilies2 ++ regFamilies3 ++ regFamilies4)

/-- Where a named field of a register lies. -/
def findField (f : RF) : List RegField → RegField
  | [] => ⟨f, 0, 0, .ro⟩
  | x :: t => if x.name = f then x else findField f t

/-- The field of a register with a name. -/
def Reg.field (r : Reg) (f : RF) : RegField := findField f r.fields

end Sys2Proof.Machine
end

