-- ==== Sys2Proof/Machine/State.lean ====
section
/-! DEFINITION. The state of the block: every register, buffer, queue, counter, mode and pin the spec gives
it, as plain data, and the state right after a power-on reset has begun. -/

namespace Sys2Proof.Machine

/-! ### Device memory -/

/-- Device memory: bytes by physical address, strictly rising and none zero (an unlisted byte reads 0,
11_hbm_memory.md R371), and the poisoned 32-byte sectors (physical address / 32), strictly rising. -/
structure Mem where
  bytes : List Host.Cell
  poison : List Nat
  deriving DecidableEq, Repr

/-! ### Ropes and parties (05_clusters_ropes_parties.md) -/

/-- The engine a token's outstanding operations belong to (06 R189). -/
inductive Engine where
  | none | tensor | haul
  deriving DecidableEq, Repr

/-- A token (06 R188). -/
structure Token where
  issued : BitVec 16
  done : BitVec 16
  engine : Engine
  deriving DecidableEq, Repr

/-- An entry of a mask stack (05 R141). -/
structure MaskEntry where
  join : Word
  saved : Mask
  pendingPc : Word
  pendingMask : Mask
  deriving DecidableEq, Repr

/-- What a rope waits for after issuing an instruction that waits. -/
inductive Wait where
  | none
  | token (mod sa : Nat)
  | bell (bell : Nat) (threshold : Word) (scope : Nat)
  | bar
  | spin (f : MFmt) (rest : Mask)
  | glock (f : MFmt) (e : Mask)
  | aperture (cvt : Bool) (f : MFmt) (id : Nat)
  deriving DecidableEq, Repr

/-- A rope: its registers, divergence state (05 R141), return stack (06 R214), waits, and livelock count
(05 R174). `stall` is the context and 64 KiB block of a translation fault the rope waits for; `issueLog` what an
instruction that stalled at issue has read of its descriptors (08 R252). -/
structure Rope where
  party : Nat
  index : Nat
  pc : Word
  active : Mask
  exited : Mask
  stack : List MaskEntry
  ret : List (Word × Nat)
  u : Table Word
  p : Table Mask
  v : Table VReg
  wait : Wait
  stall : Option (Nat × Nat)
  livelock : Nat
  issueLog : List Nat
  deriving DecidableEq, Repr

/-- The parameters all parties of one launch share (05 Table 5.3, 13 R413). -/
structure LaunchParams where
  ctx : Nat
  code : Word
  arg : Word
  parties : Nat
  first : Nat
  clusters : Nat
  ropes : Nat
  vregs : Nat
  split : Nat
  lsKib : Nat
  slots : Nat
  handles : Nat
  deriving DecidableEq, Repr

/-- A launch in progress: the command that carries it, how many of its parties have ended on each cluster,
and how many clusters have made the release of 07 R234. -/
structure Launch where
  par : LaunchParams
  queue : Nat
  index : Nat
  ended : Table Nat
  released : Nat
  deriving DecidableEq, Repr

/-- The sticky flags of a party's tally adds (05 R164). -/
structure TallyFlags where
  inexact : Bool
  range : Bool
  nonfinite : Bool
  deriving DecidableEq, Repr

/-- A resident party: its launch, index, parameters, local store, tokens and tally flags. -/
structure Party where
  launch : Nat
  index : Nat
  par : LaunchParams
  ls : Table Byte
  tokens : Table Token
  tally : TallyFlags
  deriving DecidableEq, Repr

/-! ### The cluster L1 and range caches -/

/-- An L1 line, tagged by context and device VA (09 R299), with the physical line of its translation;
valid and dirty masks of one bit per byte (07 R231). -/
structure L1Line where
  ctx : Nat
  line : Nat
  pa : Nat
  data : Line
  valid : BitVec 128
  dirty : BitVec 128
  poison : BitVec 4
  deriving DecidableEq, Repr

/-- A range-cache entry (09 R293); `index` is the entry's place in its range table, which a fault record of
a hit without permission names (09 Table 9.6 ENTRY). -/
structure RcEntry where
  ctx : Nat
  start : Nat
  len : Nat
  pa : Nat
  r : Bool
  w : Bool
  x : Bool
  index : Nat
  deriving DecidableEq, Repr

/-- A range cache: its filled entries by number and the round-robin pointer (09 R295). -/
structure RangeCache where
  entries : Table RcEntry
  ptr : Nat
  deriving DecidableEq, Repr

/-! ### The tensor engine (04_tensor_engine.md) -/

/-- A tensor descriptor as an engine reads it (08_tensor_descriptors_haul.md Table 8.1). -/
structure Desc where
  base : Nat
  scaleVa : Nat
  ledgerVa : Nat
  dropVa : Nat
  fill : Nat
  tensorId : Nat
  type : Nat
  recipe : Nat
  rank : Nat
  q : Int
  noalloc : Bool
  ls : Bool
  splitM1 : List Nat
  axes : List Nat
  extent : List Nat
  stride : List Int
  deriving DecidableEq, Repr

/-- A panel word (04 Table 4.2). -/
structure Panel where
  map : Nat
  pageLog2 : Nat
  trans : Bool
  fmt : Nat
  scalePitch : Nat
  scaleBase : Nat
  pitch : Nat
  base : Nat
  deriving DecidableEq, Repr

/-- An accumulation: what a handle names until it closes, and what queued work still holds after (04 R116).
`queuedTo` is its position in program order, `tag` its tag in program order, `cur` the chunk in progress of
`groups` groups, `stack` the carry stack of finished chunks (level and tile, top first), and `wide` the shadow
unit's two running values for each element (03 R98). -/
structure Acc where
  party : Nat
  ctx : Nat
  fmtA : Nat
  fmtB : Nat
  accFmt : AccFmt
  queuedTo : Nat
  doneTo : Nat
  origin : Option (Nat × Nat)
  tag : Tag
  loaded : Bool
  loading : Bool
  slots : Nat
  closed : Bool
  groups : Nat
  cur : List Nat
  stack : List (Nat × List Nat)
  wide : List (Nat × Nat)
  freeAt : Nat
  deriving DecidableEq, Repr

/-- A queued tensor operation (04 Table 4.3), with the accumulation numbers it works on. -/
inductive TensorOpKind where
  | mma (acc : Nat) (a b : Panel) (kcount seq : Nat)
  | store (acc mode : Nat) (addc sr trans : Bool) (d : Desc) (rc : Option Desc) (step : Nat)
  | comb (into lo hi : Nat)
  | ldp (acc : Nat) (d : Desc) (tagVa : Nat)
  deriving DecidableEq, Repr

/-- A tensor operation in flight with the party, rope and token that issued it, and the handle it named; `id` numbers
an engine's operations in issue order. `log` and `written` are the values it has read and the accesses it has
performed (08 R279). -/
structure TensorOp where
  kind : TensorOpKind
  handle : Nat
  party : Nat
  slot : Nat
  ctx : Nat
  pc : Word
  token : Nat
  id : Nat
  log : List Nat
  written : Nat
  deriving DecidableEq, Repr

/-- A sampled tile in the shadow unit (03 R98). -/
structure ShadowJob where
  ctx : Nat
  accFmt : AccFmt
  kStart : Nat
  kEnd : Nat
  tileM : Nat
  tileN : Nat
  opSeq : Nat
  tileSeq : Nat
  y : List Nat
  wide : List (Nat × Nat)
  deriving DecidableEq, Repr

/-- A tensor engine and its shadow unit. `queue` holds the operations in flight in issue order, TACC.LDP loads among
them (04 R114). `shadowAt` is the ac since which the array waits for the shadow unit, `arrayAt` and `mergeAt` the ac
at which the array and the merge unit come free, `mergeRest` and `shadowRest` waits too short to count yet
(04 Table 4.8). `handles` maps party × 16 + handle to an accumulation number;
`tiles` and `ops` count completed tiles and issued matrix operations by context (03 R97, Table 3.9). `asked` is
the ac of a permit request that waits, `idleAc` the ac the array has been idle while a permit is held (04 R128). -/
structure TensorEngine where
  accs : Table Acc
  handles : Table Nat
  queue : List TensorOp
  stall : Option (Nat × Nat)
  permit : Bool
  asked : Option Nat
  idleAc : Nat
  tiles : Table Nat
  ops : Table Nat
  shadow : Option ShadowJob
  nextId : Nat
  shadowAt : Option Nat
  shadowRest : Nat
  arrayAt : Nat
  mergeAt : Nat
  mergeRest : Nat
  deriving DecidableEq, Repr

/-! ### The Haul engine (08_tensor_descriptors_haul.md) -/

/-- The Haul instructions (08 Table 8.4). -/
inductive HaulKind where
  | copy | gather | scatter (add : Bool) | red (op : Nat) | put (rank bell : Nat) (ring : Bool) (inc : Nat)
  | get (rank : Nat)
  deriving DecidableEq, Repr

/-- A queued Haul operation: its descriptors' VAs, whether it has done its work, and the drops it has counted. One that
a translation fault stopped half way has `begun`: `log` holds the values it has read, descriptors included, and
`written` how many accesses it has performed (08 R252, R279). -/
structure HaulOp where
  kind : HaulKind
  src : Nat
  idx : Nat
  dst : Nat
  party : Nat
  slot : Nat
  ctx : Nat
  pc : Word
  token : Nat
  started : Bool
  drops : Nat
  id : Nat
  begun : Bool
  log : List Nat
  written : Nat
  deriving DecidableEq, Repr

/-- A Haul engine: its queue in issue order. -/
structure HaulEngine where
  queue : List HaulOp
  stall : Option (Nat × Nat)
  nextId : Nat
  deriving DecidableEq, Repr

/-! ### Clusters -/

/-- A logical cluster: parties waiting in order (launch and party index, 05 R149), resident parties and
ropes, local-memory split, L1, range cache and engines. `ctr` holds the 16 counters' running values. -/
structure Cluster where
  split : Nat
  waiting : List (Nat × Nat)
  parties : Table Party
  ropes : Table Rope
  l1 : List L1Line
  rc : RangeCache
  te : TensorEngine
  haul : HaulEngine
  deriving DecidableEq, Repr

/-! ### Contexts, launches, command queues -/

/-- A live context (13 R419, Table 13.17). -/
structure Ctx where
  strict : Bool
  tolExp32 : Nat
  tolExp64 : Nat
  hardExp : Nat
  seed : Nat
  axes : List Nat
  recipe : List Nat
  deriving DecidableEq, Repr

/-- Where a fetched command stands (13 R407, R421, R428): `waiting 0` is started and stalled, `full` has ended and
waits for room in its ring (R423). -/
inductive CmdState where
  | fetched
  | waiting (kind : Nat)
  | running
  | finished (status : Nat) (result detail : Word)
  | full (status : Nat) (result detail : Word)
  deriving DecidableEq, Repr

/-- A command record the processor has fetched and not yet reported. -/
structure Cmd where
  index : Nat
  record : BitVec 512
  state : CmdState
  deriving DecidableEq, Repr

/-- A submission queue's processor state beside its registers: the accepted producer count (13 R405), the
fetched commands oldest first, and a held record with whether only its CRC fails (13 R404). -/
structure Queue where
  producer : Nat
  cmds : List Cmd
  heldRec : Option (Bool × BitVec 512)
  stall : Option (Nat × Nat)
  deriving DecidableEq, Repr

/-! ### Translation (09_ranges_translation.md) -/

/-- An open translation fault record (09 Table 9.6). -/
structure XfRec where
  seq : Nat
  agent : XltAgent
  waiters : Nat
  access : Nat
  cause : Nat
  ctx : Nat
  va : Nat
  entry : Nat
  deriving DecidableEq, Repr

/-- A fault an agent holds in its own fault register (09 R312). -/
structure HeldFault where
  agent : XltAgent
  access : Nat
  cause : Nat
  ctx : Nat
  va : Nat
  entry : Nat
  deriving DecidableEq, Repr

/-- The invalidation in progress (09 R304): its span, the caches that have acknowledged (a cluster's number,
704 for the Square), and the queue command that waits for it, if any. -/
structure Invalidation where
  ctx : Nat
  all : Bool
  start : Nat
  len : Nat
  acked : List Nat
  cmd : Option (Nat × Nat)
  deriving DecidableEq, Repr

/-- The translation unit: open records by slot, held faults, the agent number admitted last, records written,
the Square's range cache, the invalidation in progress, and frame owners as override ranges
(first, count, owner), latest first, over an owner of 0 (09 R300, R303). -/
structure Xlt where
  recs : Table XfRec
  held : List HeldFault
  lastAdmitted : Nat
  seq : Nat
  square : RangeCache
  inv : Option Invalidation
  owners : List (Nat × Nat × Nat)
  ownPending : Option (Nat × Nat × Nat)
  deriving DecidableEq, Repr

/-! ### Coherence (10_coherence_caches.md) -/

/-- Caching-agent states that hold a line (10 Table 10.2); an unlisted line is invalid. -/
inductive LineState where
  | m | o | e | s
  deriving DecidableEq, Repr

/-- A line in a caching agent, and the way of its set that holds it (10 Table 10.1). Data messages carry 128 bytes
(R327), so all four valid bits of a held line are set. -/
structure CLine where
  st : LineState
  data : Line
  poison : BitVec 4
  way : Nat
  deriving DecidableEq, Repr

/-- The requests of the fabric (10 Table 10.4), and the home's own eviction of a directory entry (R326). -/
inductive ReqKind where
  | rdS | rdX | upg | wbD | wbC | rdCur | wrNC
  | atomH (addr : Nat) (op : HomeAtomic)
  | evict
  deriving DecidableEq, Repr

/-- An agent's outstanding request for a line: the bytes it will write, the access it is made for, the way kept for
the line, NACKs received, its reservation bit, whether it is in flight (not since a NACK), the data (with poison, and
whether the copy it came from gave up a dirty line) and grant that have arrived (10 R331, R337), and the poisoned sector
of an AtomH that the home did not apply (19 Table 19.3). -/
structure CReq where
  kind : ReqKind
  ctx : Nat
  data : Line
  mask : BitVec 128
  use : LineUse
  way : Nat
  failed : Option Nat
  nacks : Nat
  rsv : Bool
  sent : Bool
  gotData : Option (Line × BitVec 4 × Bool)
  gotGrant : Option LineState
  deriving DecidableEq, Repr

/-- A write-back buffer entry (10 R341): the state the line had, whether a snoop has superseded it, whether the home
has taken its data, and whether a clean copy is kept (WbC). -/
structure WbBuf where
  st : LineState
  data : Line
  poison : BitVec 4
  superseded : Bool
  taken : Bool
  keep : Bool
  deriving DecidableEq, Repr

/-- An agent: lines, outstanding requests and write-back buffers, by line number, and the replacement tree of each
set (10 R322). Agents 0 to 13 cache; the others only have requests. -/
structure CAgent where
  lines : Table CLine
  reqs : Table CReq
  wbs : Table WbBuf
  trees : Table Nat
  deriving DecidableEq, Repr

/-- Directory states that need an entry (10 Table 10.3). -/
inductive DirState where
  | ds | dx | do
  deriving DecidableEq, Repr

/-- A directory entry: state, owner, presence vector (10 R325), and its age rank, lower for an older entry. -/
structure DirEntry where
  st : DirState
  owner : Nat
  presence : List Nat
  age : Nat
  deriving DecidableEq, Repr

/-- What a transaction waits for: a directory entry (10 R326), snoop responses and data, the requester's Ack. -/
inductive TransPhase where
  | room | snoops | ack
  deriving DecidableEq, Repr

/-- A home transaction in progress on a line: its request, agents whose snoop responses are awaited, responses
received (0 NotPresent, 1 Invalidated, 2 KeptShared, 3 KeptOwned), Data messages announced to the home and arrived,
the data a SnpCur brought (10 R330, R333), and whether it runs in a reserved entry (R337). -/
structure Trans where
  agent : Nat
  kind : ReqKind
  ctx : Nat
  data : Line
  mask : BitVec 128
  phase : TransPhase
  waiting : List Nat
  answers : List (Nat × Nat)
  due : Nat
  got : Nat
  dataIn : Option (Line × BitVec 4)
  rsv : Bool
  deriving DecidableEq, Repr

/-- Where a snoop's data goes (10 R327). -/
inductive SnpDest where
  | agent (a : Nat)
  | home
  | nowhere
  deriving DecidableEq, Repr

/-- The messages in flight between agents and homes (10 Table 10.4). The home is no agent: as a destination of Data it
has the number after the last requester's. -/
inductive CMsg where
  | snpShr (agent line : Nat) (dest : SnpDest)
  | snpInv (agent line : Nat) (dest : SnpDest)
  | snpCur (agent line : Nat)
  | snpRsp (agent line : Nat) (kind : Nat) (dataSent : Bool)
  | cmp (agent line : Nat) (grant : Option LineState)
  | nack (agent line : Nat)
  | ack (agent line : Nat)
  | data (dest line : Nat) (bytes : Line) (poison : BitVec 4) (dirty : Bool) (grant : Option LineState)
  deriving DecidableEq, Repr

/-- A Sweep in progress (10 R345): CLEAN_INV or CLEAN, and the lines of remote and of memory-side role still to act
on. -/
structure Sweep where
  inv : Bool
  lines : List Nat
  side : List Nat
  deriving DecidableEq, Repr

/-- The coherence fabric: agents, the directory and the transactions by line, the homes' reservation queues as
(line, agent) in order of entry, messages in flight, the Sweep engines, and the age of the next directory entry. -/
structure Coh where
  agents : Table CAgent
  dir : Table DirEntry
  trans : Table Trans
  rsv : List (Nat × Nat)
  msgs : List CMsg
  sweeps : Table Sweep
  nextAge : Nat
  deriving DecidableEq, Repr

/-! ### HBM (11_hbm_memory.md) -/

/-- A line of the home die's shared cache in the memory-side role (10 R320, R321): its valid and dirty sectors, and of
each valid sector the bytes and poison that the stack itself holds. Every other sector is the stack's own. -/
structure SideLine where
  valid : BitVec 4
  dirty : BitVec 4
  hbm : Line
  poison : BitVec 4
  deriving DecidableEq, Repr

/-- The memory controllers: scrub reads done by stack (R367); by 3072 × stack + bank the activations counted since the
last RFM, the row to refresh next (R369), and the open row plus 1 (0: none); and above them the memory-side lines. -/
structure Hbm where
  scrubs : Table Nat
  acts : Table Nat
  refRow : Table Nat
  rows : Table Nat
  side : Table SideLine
  deriving DecidableEq, Repr

/-! ### The Square's cores (14_square_services.md) -/

/-- What the device holds of a core beside its caches: the address of its last access fault (R433, R435), the line its
LR reserved, what its last load, AMO, LR or SC returned, and a poisoned sector that a load has met and that is not yet
reported. -/
structure Core where
  trap : Option Nat
  rsv : Option Nat
  value : Word
  met : Option Nat
  deriving DecidableEq, Repr

/-! ### The host link (12_host_interface.md) -/

/-- Who waits for an aperture read (12 R392): a rope, with the host addresses of the 32-byte sectors it reads, or a core
of the Square, with the host address and the number of bytes of its load. -/
inductive ApReader where
  | rope (cluster slot : Nat) (sectors : List Nat)
  | core (core addr len : Nat)
  deriving DecidableEq, Repr

/-- An entry of the MSI-X table (12 R394). -/
structure MsixEntry where
  addr : Nat
  data : Nat
  masked : Bool
  deriving DecidableEq, Repr

/-- The endpoint: MSI-X table and function mask, pending bits, outstanding aperture reads, whether the link has trained
at a width other than 8 or 16 lanes (12 R374), and the window bytes written since the last Window Fence of their window (12 R385), by 2^29 × window + sector, as masks. -/
structure Pcie where
  msix : Table MsixEntry
  pend : List Nat
  funcMask : Bool
  otherWidth : Bool
  apReads : List (Nat × ApReader)
  nextRead : Nat
  written : Table Nat
  deriving DecidableEq, Repr

/-! ### The pod transport and the collective unit (15_pod_transport.md, 16_collectives_muster.md) -/

/-- What a sequenced frame belongs to: a put or a get of a Haul operation, a remote bell, the answer to the READ
of a PSN, a collective, a muster message. -/
inductive FrameOf where
  | put (cluster id : Nat)
  | bell
  | get (cluster id : Nat)
  | answer (psn : Nat)
  | coll (engine cseq : Nat)
  | muster (mtype : Nat)
  deriving DecidableEq, Repr

/-- A sequenced frame before it has a PSN (15 Table 15.2). -/
structure Body where
  type : Nat
  job : Nat
  msg : Nat
  va : Nat
  aux : Nat
  len : Nat
  ctx : Nat
  owner : FrameOf
  payload : List Byte
  deriving DecidableEq, Repr

/-- A frame in the retransmit pool (15 R466): its port, if it has been sent on one that is still up, resends,
whether the peer holds it (15 R472), and the PSN that the sender would have given next when it was last sent. -/
structure PoolFrame where
  psn : Nat
  body : Body
  port : Option Nat
  resends : Nat
  held : Bool
  mark : Nat
  deriving DecidableEq, Repr

/-- The state kept for one peer: as sender the next PSN, window, time of the last cut, port mask and the ports
removed from it, round-robin pointer, unacknowledged frames and frames that wait; as receiver the cumulative PSN,
the PSNs received above it, frames marked since the last ACK, whether one is due, and the stamp, port and job of the
latest frame (15 R461 to R467). -/
structure Peer where
  nextPsn : Nat
  cwnd : Nat
  lastCut : Nat
  mask : List Nat
  removed : List Nat
  rr : Nat
  pool : List PoolFrame
  backlog : List Body
  rxC : Nat
  rxGot : List Nat
  marked : Nat
  ackDue : Bool
  stamp : Nat
  port : Nat
  job : Nat
  deriving DecidableEq, Repr

/-- A BELL frame that waits for the acknowledgement of its message's DATA frames (15 R469). -/
structure PendingBell where
  peer : Nat
  msg : Nat
  body : Body
  deriving DecidableEq, Repr

/-- A run of a get that has not arrived (15 R468); `ls` is the party whose local store it goes to, if not to device
memory. -/
structure GetRun where
  cluster : Nat
  id : Nat
  ctx : Nat
  peer : Nat
  msg : Nat
  va : Nat
  len : Nat
  ls : Option Nat
  deriving DecidableEq, Repr

/-- An arrived frame that waits for a translation fault (15 R472). -/
structure HeldFrame where
  peer : Nat
  port : Nat
  psn : Nat
  type : Nat
  job : Nat
  msg : Nat
  va : Nat
  aux : Nat
  len : Nat
  payload : List Byte
  ctx : Nat
  block : Nat
  deriving DecidableEq, Repr

/-- A credit received: the segment and phase that `rank` accepts (16 R492). -/
structure Credit where
  ctx : Nat
  engine : Nat
  cseq : Nat
  phase : Nat
  seg : Nat
  rank : Nat
  deriving DecidableEq, Repr

/-- A value being received or held: node [a, b) of a segment in a phase, the member that sends it, the bytes
present, its SUM_EXACT flags and workspace slot (16 R489 to R492). -/
structure CollVal where
  phase : Nat
  seg : Nat
  src : Nat
  slot : Nat
  flags : Nat
  runs : List (Nat × List Byte)
  deriving DecidableEq, Repr

/-- An active collective (16 R482): the command that carries it, its group's ranks by group index and this node's
index, values granted and arriving, values sent, finished segments, workspace slots used, SUM_EXACT flags seen, and
the stall of its engine for it. -/
structure Coll where
  ctx : Nat
  engine : Nat
  cseq : Nat
  queue : Nat
  index : Nat
  record : BitVec 512
  ranks : List Nat
  me : Nat
  vals : List CollVal
  sent : List (Nat × Nat × Nat)
  done : List Nat
  used : List Nat
  flags : Nat
  stall : Option (Nat × Nat)
  deriving DecidableEq, Repr

/-- Where a context's muster stands (16 R496 to R502). -/
inductive MusterStage where
  | unmustered | started | held | go | running
  deriving DecidableEq, Repr

/-- A context's muster: its MUSTER command, epoch and digest once started, the READY that has arrived (epoch and
digest), the children that have answered with their counts, and whether this node has answered its parent. -/
structure Muster where
  stage : MusterStage
  cmd : Option (Nat × Nat)
  epoch : Nat
  digest : List Byte
  ready : Option (Nat × List Byte)
  acks : Table Nat
  answered : Bool
  deriving DecidableEq, Repr

/-- A delay request-response exchange (15 R477; IEEE 1588): its Sync's port, sequence number, origin time once known and
local arrival time, then the sequence number and local departure time of the Delay_Req. -/
structure PtpExchange where
  port : Nat
  seq : Nat
  t1 : Option Nat
  t2 : Nat
  t3 : Option (Nat × Nat)
  deriving DecidableEq, Repr

/-- The pod transport, the collective unit, the muster of each context, and the time servo: an armed
POD_TIME_SET, the nanoseconds the counter is still held, the rate in ppm, and since when the offset has stayed
within 200 ns, the port that is the time source, whether the node is grandmaster, and the PTP exchange in progress
(15 R477 to R479). Collectives started and the queue that owns an engine go by 4 × context + engine. -/
structure Pod where
  peers : Table Peer
  nextMsg : Nat
  bells : List PendingBell
  gets : List GetRun
  held : List HeldFrame
  colls : List Coll
  credits : List Credit
  cseq : Table Nat
  collQueue : Table Nat
  musters : Table Muster
  timeSet : Option Nat
  timeHold : Nat
  rate : Int
  lockFrom : Option Nat
  source : Option Nat
  grandmaster : Bool
  ptpSeq : Nat
  exchange : Option PtpExchange
  deriving DecidableEq, Repr

/-! ### The die links (01_package_organisation.md R32 to R44) -/

/-- A frame in a replay buffer: its SEQ, bits, resends (01 R36, R41), and the messages whose first slots it holds. -/
structure LinkFrame where
  seq : Nat
  bits : BitVec 1152
  resends : Nat
  msgs : List D2dMsg
  deriving DecidableEq, Repr

/-- A message that a slice direction is sending (01 Table 1.9): whose slots have begun and not ended; a forwarded one's
slots still to send. -/
structure Sending where
  msg : D2dMsg
  rest : Option (List Nat)
  deriving DecidableEq, Repr

/-- A whole message at a die's fabric stop: its class and its 32-byte slots, first to last. -/
structure StopMsg where
  msg : D2dMsg
  cls : Nat
  slots : List Nat
  deriving DecidableEq, Repr

/-- One direction of a slice. At its sender: the next SEQ, the replay buffer, the SEQs still to resend, the fc of its
replay events, the receive credits it holds by message class (returned ones; R40), and by class the message whose
slots it is sending. At its receiver: the next SEQ expected, whether it discards and sets NAK, and by class the message
whose slots are arriving. -/
structure SliceDir where
  next : Nat
  buf : List LinkFrame
  resend : List Nat
  replays : List Nat
  credits : List Int
  expected : Nat
  nak : Bool
  sending : Table Sending
  arriving : Table (D2dMsg × List Nat)
  deriving DecidableEq, Repr

/-! ### Supplies, fuses and boot (18_reset_boot_firmware.md, 21_electrical_mechanical.md) -/

/-- The supplies and pins: VAUX3V3 present, VIN48 in range, PWRGOOD high, PWRGOOD waiting for VIN48 (21 R584), PERST#
asserted, the rails fed from VIN48 on, a THERMTRIP that holds them off until VIN48 is removed (17 R519), and the board
reference REFCLK100 present at power-on (01 R31, 21 R586). -/
structure Board where
  vaux : Bool
  vinOk : Bool
  pwrgood : Bool
  pgWaiting : Bool
  perst : Bool
  rails : Bool
  tripped : Bool
  reference : Bool
  deriving DecidableEq, Repr

/-- The fuses that the package writes: retirement entries by 4 × die + entry (01 R47), failed links (R42), failed stacks
(11 R372), the count of the FW_MIN row (18 R529), and revoked key slots. `weak` holds, by the same numbers, what an
entry reads back as when it is written and does not verify (01 R48), and `inForce` how many of a die's entries the last
cluster map was built from (01 R46, R49). -/
structure Fuses where
  entries : Table Nat
  failedLinks : Nat
  failedStacks : Nat
  fwMin : Nat
  revoked : Nat
  weak : Table Nat
  inForce : Table Nat
  deriving DecidableEq, Repr

/-- Boot: boot mode (12 R397), the boot SRAM, the verdict of the verification in progress (an ERROR code, 0 for none),
whether this boot keeps memory, the firmware part in the reeve SRAM, the port modes, subsystem identity and
program keys of the bundle that runs, and measurements 2 to 6 as taken (18 Table 18.7). -/
structure Boot where
  mode : Bool
  sram : Table Byte
  verdict : Nat
  keepMem : Bool
  firmware : List Byte
  ports : List Nat
  subsys : Nat
  progKeys : List (List Byte)
  measurements : List (List Byte)
  deriving DecidableEq, Repr

/-! ### The power controller (17_power_control.md) -/

/-- The samples of the tick in progress, latest first; the values of P_k held, latest first; and P of the first tick,
which stands for every older one (17 R506, R507). -/
structure Power where
  samples : List Nat
  history : List Nat
  first : Nat
  deriving DecidableEq, Repr

/-! ### The DOE mailbox (12 R395, R396; 18 R539) -/

/-- The DOE and SPDM answers: their kind and what they carry, not their wire layout. -/
inductive DoeReply where
  | doeError
  | discovery (vendor type next : Nat)
  | busy
  | unsupported
  | unexpected
  | invalid
  | sessionLimit
  | decryptError
  | version
  | capabilities
  | algorithms
  | digests (digest : List Byte)
  | certificate (portion : List Byte) (remainder : Nat)
  | challengeAuth (digest measurements signature : List Byte)
  | measurements (count : Nat) (blocks : List (Nat × List Byte)) (signature : List Byte)
  | keyExchangeRsp (kem signature : List Byte)
  | finishRsp
  | endSessionAck
  | heartbeatAck
  deriving DecidableEq, Repr

/-- The secured session: none, exchanging keys, open. -/
inductive SessionPhase where
  | none | exchanging | opened
  deriving DecidableEq, Repr

/-- The mailbox: answers not yet read, oldest first; how far the connection has negotiated (1 version, 2
capabilities, 3 algorithms); the transcript so far; the session. -/
structure Doe where
  replies : List DoeReply
  negotiated : Nat
  transcript : List Byte
  session : SessionPhase
  deriving DecidableEq, Repr

/-! ### Trace, sideband and test port (20_observation_and_test.md, 21_electrical_mechanical.md) -/

/-- The trace: each source's queue of records, its records dropped since its last LOST record, its SEQ by
64 × source + context, and the source the collector admitted last. Sources are numbered as 09 R312 numbers agents. -/
structure Obs where
  queues : Table (List (BitVec 256))
  lost : Table Nat
  seqs : Table Nat
  last : Nat
  deriving DecidableEq, Repr

/-- The sideband target: its dynamic address, and whether a protocol error waits for GETSTATUS. -/
structure Sideband where
  dynamic : Option (BitVec 7)
  protoError : Bool
  deriving DecidableEq, Repr

/-- The test port: the five bypass bits, the Square's boundary register, and whether EXTEST drives it onto the
balls. -/
structure Tap where
  bypass : List Bool
  boundary : List Bool
  driving : Bool
  deriving DecidableEq, Repr

/-! ### The outside -/

/-- The PTP messages a node sends (15 R477). -/
inductive PtpKind where
  | announce | sync | followUp | delayReq | delayResp
  deriving DecidableEq, Repr

/-- What the block sends to the outside: a posted write to host memory, a read request to it and an MSI-X message, each
with its No Snoop and Relaxed Ordering attributes (12 Table 12.5), an Ethernet frame, a PTP message (EtherType 0x88F7)
with its domain, sequence number, time and priority1, the completion of a BAR2 read with the sectors it marks poisoned, sideband read data, and test data out. -/
inductive Out where
  | hostWrite (addr : Nat) (bytes : List (Option Byte)) (noSnoop relaxed : Bool)
  | hostRead (addr len : Nat) (noSnoop relaxed : Bool)
  | msix (vector addr data : Nat) (noSnoop relaxed : Bool)
  | frame (port : Nat) (bytes : List Byte)
  | ptp (port : Nat) (kind : PtpKind) (domain seq time priority1 : Nat)
  | readData (offset : Nat) (bytes : List Byte) (poison : List Nat)
  | sideband (bytes : List Byte)
  | tdo (bits : List Bool)
  deriving DecidableEq, Repr

/-! ### The state -/

/-- The machine's state. -/
structure State where
  pending : List Instr
  free : Nat
  acCount : Nat
  time : Nat
  timeFrac : Nat
  errSeq : Nat
  regs : Table Word
  mem : Mem
  clusters : Table Cluster
  grants : Table (List Nat)
  launches : Table Launch
  nextLaunch : Nat
  ctxs : Table Ctx
  queues : Table Queue
  xlt : Xlt
  coh : Coh
  hbm : Hbm
  cores : Table Core
  pcie : Pcie
  pod : Pod
  d2d : Table SliceDir
  stops : Table (List StopMsg)
  board : Board
  fuses : Fuses
  boot : Boot
  power : Power
  doe : Doe
  obs : Obs
  sideband : Sideband
  tap : Tap
  outbox : List Out
  deriving DecidableEq, Repr

/-- The machine right after a power-on reset has begun (18_reset_boot_firmware.md R522, Table 18.2; 21 Table 21.4): STAGE is
ROM, the rails are on, PERST# is still asserted, every register shows its reset value, and every memory, queue and
engine is empty. The fuses, the boot SRAM and the supplies are log 3, 4 and 6. -/
def State.reset : State where
  pending := []
  free := 0
  acCount := 0
  time := 0
  timeFrac := 0
  errSeq := 0
  regs := []
  mem := ⟨[], []⟩
  clusters := []
  grants := []
  launches := []
  nextLaunch := 0
  ctxs := []
  queues := []
  xlt := ⟨[], [], 0, 0, ⟨[], 0⟩, none, [], none⟩
  coh := ⟨[], [], [], [], [], [], 0⟩
  hbm := ⟨[], [], [], [], []⟩
  cores := []
  pcie := ⟨[], [], false, false, [], 0, []⟩
  pod := ⟨[], 0, [], [], [], [], [], [], [], [], none, 0, 0, none, none, false, 0, none⟩
  d2d := []
  stops := []
  board := ⟨true, true, true, false, true, true, false, true⟩
  fuses := ⟨[], 0, 0, 0, 0, [], []⟩
  boot := ⟨true, [], 0, false, [], [], 0, [], []⟩
  power := ⟨[], [], 0⟩
  doe := ⟨[], 0, [], .none⟩
  obs := ⟨[], [], [], 0⟩
  sideband := ⟨none, false⟩
  tap := ⟨[], [], false⟩
  outbox := []

/-- Why the machine stops with a fault. -/
inductive Fault where
  /-- A home-agent command names a physical address at or above 960 GiB (09 R283): raised by RDS to ATOMH and
  the messages of the coherence fabric. Safe: the machine stops where the spec gives no memory. -/
  | noSuchAddress
  deriving DecidableEq, Repr

/-- Why the machine refuses a command. -/
inductive Refusal where
  /-- The command has no meaning yet: raised by an arm of exec that is rejected by name. Safe: nothing
  happens. -/
  | notModelled (mnemonic : String)
  deriving DecidableEq, Repr

end Sys2Proof.Machine
end

