-- ==== Sys2Proof/Machine/Blocks.lean ====
section
/-! DEFINITION. The blocks of BAR0 and the masters that reach them (12_host_interface.md R378, Table 12.4;
14_square_services.md R433, R448). -/

namespace Sys2Proof.Machine

/-! ### BAR0 blocks (12 Table 12.4) -/

/-- The blocks of BAR0. -/
inductive Block where
  | glb | hq | flt | pwr | bell | xlt | obs | pod | boot | msix | cl
  deriving DecidableEq, Repr

/-- The block that holds a BAR0 offset. -/
def blockAt (a : Nat) : Block :=
  if 0x1000000 ≤ a then .cl
  else if 0x900000 ≤ a then .msix
  else if 0x800000 ≤ a then .boot
  else if 0x700000 ≤ a then .pod
  else if 0x600000 ≤ a then .obs
  else if 0x500000 ≤ a then .xlt
  else if 0x400000 ≤ a then .bell
  else if 0x300000 ≤ a then .pwr
  else if 0x200000 ≤ a then .flt
  else if 0x100000 ≤ a then .hq
  else .glb

/-- Table 12.4: a master reaches a block. -/
def Block.reached (b : Block) (m : Master) : Bool :=
  match m with
  | .host => true
  | .core _ => b != .boot && b != .msix
  | .reeve => b == .glb || b == .flt || b == .pwr || b == .pod || b == .boot

end Sys2Proof.Machine
end

