-- ==== Sys2Proof/Machine/Basic.lean ====
section
/-! DEFINITION. The plainest operations over State: registers and counters, stages, clusters, bytes and lines, and
device memory. -/

namespace Sys2Proof.Machine

/-! ### Registers -/

/-- A register's value. -/
def State.reg (s : State) (r : Reg) : Word := Table.get (BitVec.ofNat 64 r.reset) s.regs r.addr

/-- Set a register's value. -/
def State.setReg (s : State) (r : Reg) (v : Word) : State :=
  { s with regs := Table.set (BitVec.ofNat 64 r.reset) s.regs r.addr v }

/-- A field of a register. -/
def State.rf (s : State) (r : Reg) (f : RF) : Nat := fld (s.reg r) (r.field f).lo (r.field f).w

/-- A one-bit field of a register. -/
def State.rbit (s : State) (r : Reg) (f : RF) : Bool := s.rf r f == 1

/-- Set a field of a register, modulo its width. -/
def State.setRf (s : State) (r : Reg) (f : RF) (n : Nat) : State :=
  s.setReg r (putFld (s.reg r) (r.field f).lo (r.field f).w n)

/-- Add to a field of a register that saturates at all ones. -/
def State.satRf (s : State) (r : Reg) (f : RF) (n : Nat) : State :=
  s.setRf r f (min (s.rf r f + n) (2 ^ (r.field f).w - 1))

/-- Add to a field of a register modulo its width. -/
def State.wrapRf (s : State) (r : Reg) (f : RF) (n : Nat) : State := s.setRf r f (s.rf r f + n)

/-- Set bit `i` of a one-field register of flags. -/
def State.setBit (s : State) (r : Reg) (i : Nat) : State := s.setReg r (s.reg r ||| BitVec.ofNat 64 (2 ^ i))

/-- Clear bit `i` of a register. -/
def State.clearBit (s : State) (r : Reg) (i : Nat) : State := s.setReg r (s.reg r &&& ~~~ BitVec.ofNat 64 (2 ^ i))

/-! ### Counters (20_observation_and_test.md R571, Tables 20.3 and 20.4) -/

/-- Counters may count now (R571, R573). -/
def State.counting (s : State) : Bool := s.rbit .obsCtrCtl .enable && !s.rbit .obsCtrCtl .freeze

/-- Add to a counter of 48 bits; a wrap sets its overflow bit and CTR_OVF. -/
def State.bump (s : State) (ctr ovf : Reg) (ovfBit n : Nat) : State :=
  let v := s.rf ctr .value + n
  let s1 := s.setRf ctr .value v
  if 2 ^ 48 ≤ v then (s1.setBit ovf ovfBit).setRf .obsEvent .ctrOvf 1 else s1

/-- A context filter passes an event's context (63 in the filter counts every one). -/
def ctxPasses (filter ctx : Nat) : Bool := filter == 63 || (filter == ctx && ctx != 63)

/-- Count `n` events of a code of Table 20.3 on a cluster, attributed to a context. -/
def State.countCl (s : State) (c ev ctx n : Nat) : State :=
  if !s.counting || n == 0 then s
  else (List.range 16).foldl (fun s k =>
    if s.rbit (.clCtrSel c k) .en && s.rf (.clCtrSel c k) .event == ev && ctxPasses (s.rf (.clCtrSel c k) .ctx) ctx
    then s.bump (.clCtr c k) (.clCtrOvf c) k n else s) s

/-- Count `n` events of a code of Table 20.4 at an instance, attributed to a context (63: none). -/
def State.countPkg (s : State) (ev inst ctx n : Nat) : State :=
  if !s.counting || n == 0 then s
  else (List.range 256).foldl (fun s k =>
    if s.rbit (.obsPsel k) .en && s.rf (.obsPsel k) .event == ev && ctxPasses (s.rf (.obsPsel k) .ctx) ctx &&
      (s.rf (.obsPsel k) .inst == 0xFF || s.rf (.obsPsel k) .inst == inst)
    then s.bump (.obsPctr k) (.obsPctrOvf (k / 64)) (k % 64) n else s) s

/-! ### Stages of the package (18_reset_boot_firmware.md, 19 R556) -/

/-- A package-fatal error is latched (19 Table 19.10). -/
def State.fatal (s : State) : Bool := s.rbit .fltFatal .valid

/-- STAGE is READY (8). -/
def stReady : Nat := 8

/-- The package runs: STAGE is READY, its rails are on and no package-fatal error has stopped it. -/
def State.ready (s : State) : Bool := s.rf .bootStatus .stage == stReady && s.board.rails && !s.fatal

/-! ### Clusters -/

/-- A tensor engine with nothing in it. -/
def TensorEngine.idle : TensorEngine := ⟨[], [], [], none, false, none, 0, [], [], none, 0, none, 0, 0, 0, 0⟩

/-- A Haul engine with nothing in it. -/
def HaulEngine.idle : HaulEngine := ⟨[], none, 0⟩

/-- A cluster after reset: no party, split 0, every line and entry invalid. -/
def Cluster.idle : Cluster := ⟨0, [], [], [], [], ⟨[], 0⟩, .idle, .idle⟩

/-- A logical cluster. -/
def State.cluster (s : State) (c : Nat) : Cluster := Table.get .idle s.clusters c

/-- Replace a logical cluster. -/
def State.setCluster (s : State) (c : Nat) (k : Cluster) : State :=
  { s with clusters := Table.set .idle s.clusters c k }

/-- Change every cluster that is not idle. -/
def State.mapClusters (s : State) (f : Nat → Cluster → Cluster) : State :=
  { s with clusters := Table.mapVals .idle f s.clusters }

/-- The cluster is halted (19 R552, Table 19.14). -/
def State.clusterHalted (s : State) (c : Nat) : Bool := bit (s.reg (.fltHalted (c / 64))).toNat (c % 64)

/-- Set a rope of a cluster. -/
def Cluster.setRope (k : Cluster) (slot : Nat) (r : Rope) : Cluster :=
  { k with ropes := Table.insert k.ropes slot r }

/-- Set a party of a cluster. -/
def Cluster.setParty (k : Cluster) (n : Nat) (p : Party) : Cluster :=
  { k with parties := Table.insert k.parties n p }

/-- Set a rope. -/
def State.setRope (s : State) (c slot : Nat) (r : Rope) : State :=
  s.setCluster c ((s.cluster c).setRope slot r)

/-- Set a party. -/
def State.setParty (s : State) (c n : Nat) (p : Party) : State :=
  s.setCluster c ((s.cluster c).setParty n p)

/-! ### Bytes and lines -/

/-- 960 GiB in lines of 128 bytes (09 R283). -/
def memLines : Nat := 0xF000000000 / 128

/-- The byte mask of a line as a mask of bits. -/
def wideMask (m : BitVec 128) : Nat :=
  (List.range 128).foldl (fun a i => if m.getLsbD i then a + 255 <<< (8 * i) else a) 0

/-- Bytes of `new` where the mask is set, of `old` elsewhere. -/
def mergeLine (old new : Line) (mask : BitVec 128) : Line :=
  let w := BitVec.ofNat 1024 (wideMask mask)
  (old &&& ~~~w) ||| (new &&& w)

/-- The mask of `n` bytes from byte `lo` of a line. -/
def spanMask (lo n : Nat) : BitVec 128 := BitVec.ofNat 128 ((2 ^ n - 1) <<< lo)

/-- The number held by `n` bytes of a line from byte `lo`. -/
def lineNat (l : Line) (lo n : Nat) : Nat := bits l.toNat (8 * lo) (8 * n)

/-- The poison bits of the sectors that a byte mask touches. -/
def sectorsOf (m : BitVec 128) : BitVec 4 :=
  BitVec.ofNat 4 ((List.range 4).foldl (fun a k => if bits m.toNat (32 * k) 32 = 0 then a else a + 2 ^ k) 0)

/-- The sectors a byte mask covers whole. -/
def wholeSectors (m : BitVec 128) : BitVec 4 :=
  BitVec.ofNat 4 ((List.range 4).foldl
    (fun a k => if bits m.toNat (32 * k) 32 = 2 ^ 32 - 1 then a + 2 ^ k else a) 0)

/-! ### Device memory (11_hbm_memory.md R363, R365) -/

/-- The 128 bytes of a line of memory. -/
def Mem.line (m : Mem) (line : Nat) : Line :=
  BitVec.ofNat 1024 (m.bytes.foldl
    (fun a c => if 128 * line ≤ c.1 ∧ c.1 < 128 * line + 128 then a + c.2.toNat <<< (8 * (c.1 - 128 * line))
      else a) 0)

/-- The poison bits of a line's four sectors. -/
def Mem.linePoison (m : Mem) (line : Nat) : BitVec 4 :=
  BitVec.ofNat 4 ((List.range 4).foldl (fun a k => if m.poison.contains (4 * line + k) then a + 2 ^ k else a) 0)

/-- One byte of memory. -/
def Mem.read (m : Mem) (a : Nat) : Byte := Table.get 0 m.bytes a

/-- Write one byte of memory, keeping the canonical form. -/
def Mem.write (m : Mem) (a : Nat) (b : Byte) : Mem := { m with bytes := Table.set 0 m.bytes a b }

/-- Write the masked bytes of a line. -/
def Mem.writeBytes (m : Mem) (line : Nat) (d : Line) (mask : BitVec 128) : Mem :=
  (List.range 128).foldl
    (fun m i => if mask.getLsbD i then m.write (128 * line + i) (BitVec.ofNat 8 (lineNat d i 1)) else m) m

/-- Set the poison bit of each sector of a line where `which` is set. -/
def Mem.setPoison (m : Mem) (line : Nat) (which value : BitVec 4) : Mem :=
  let p' := (List.range 4).foldl (fun p k =>
    if which.getLsbD k then
      (if value.getLsbD k then setInsert p (4 * line + k) else setErase p (4 * line + k))
    else p) m.poison
  { m with poison := p' }

/-- A masked write: a write of a whole sector clears its poison, a partial one keeps it (R363, R365). -/
def Mem.writeLine (m : Mem) (line : Nat) (d : Line) (mask : BitVec 128) : Mem :=
  (m.writeBytes line d mask).setPoison line (wholeSectors mask) 0

/-- The canonical form of memory. -/
def Mem.wf (m : Mem) : Bool := Table.wf (fun _ => (0 : Byte)) m.bytes

end Sys2Proof.Machine
end

