-- ==== Sys2Proof/Machine/Fabric.lean ====
section
/-! DEFINITION. What lies beneath a line of device memory: its placement and stack (11_hbm_memory.md R353 to R355, R369),
the memory-side copy (10_coherence_caches.md R320, R321), and the coherent fabric: agents, directory, home transactions,
and what each message does when it is taken (R322 to R341). -/

namespace Sys2Proof.Machine

/-! ### Placement (R353 to R355) -/

def gib : Nat := 2 ^ 30

/-- R354: a physical address as stack and stack address. -/
def stackPlace (localK p : Nat) : Nat × Nat :=
  let l := 5 * localK * gib
  if p < 4 * l then
    let d := p / l
    let o := p - d * l
    let c := o / 512
    (5 * d + c % 5, c / 5 * 512 + o % 512)
  else
    let o := p - 4 * l
    let c := o / 512
    (c % 20, localK * gib + c / 20 * 512 + o % 512)

/-- The inverse of the placement: the physical address of a stack address. -/
def stackUnplace (localK s a : Nat) : Nat :=
  if a < localK * gib then
    let c := a / 512 * 5 + s % 5
    s / 5 * (5 * localK * gib) + c * 512 + a % 512
  else
    let b := a - localK * gib
    4 * (5 * localK * gib) + (b / 512 * 20 + s) * 512 + b % 512

/-- LOCAL_K. -/
def State.localK (s : State) : Nat := s.rf .glbMemPlace .localK

/-- The stack, and so the home agent, of a line. -/
def State.homeOf (s : State) (line : Nat) : Nat := (stackPlace s.localK (128 * line)).1

/-- Where a stack address lies in its stack (Table 11.4). -/
structure HbmPlace where
  sid : Nat
  row : Nat
  bank : Nat
  group : Nat
  lineInRow : Nat
  pseudoChannel : Nat
  sector : Nat
  byte : Nat
  deriving DecidableEq, Repr

/-- R355: the location that a stack address selects. -/
def hbmPlace (a : Nat) : HbmPlace :=
  { sid := bits a 34 2, row := bits a 20 14, bank := bits a 18 2, group := bits a 16 2, lineInRow := bits a 13 3
    pseudoChannel := bits a 7 6 ^^^ bits a 13 6, sector := bits a 5 2, byte := bits a 0 5 }

/-- The bank of a stack address among the 3072 of its stack. -/
def bankOf (a : Nat) : Nat :=
  let p := hbmPlace a
  p.pseudoChannel * 48 + p.sid * 16 + p.bank * 4 + p.group

/-! ### Sectors of memory -/

/-- The data of a sector (physical address / 32). -/
def Mem.sector (m : Mem) (k : Nat) : Nat := lineNat (m.line (k / 4)) (32 * (k % 4)) 32

/-- Replace a sector, with its poison. -/
def Mem.setSector (m : Mem) (k x : Nat) (poisoned : Bool) : Mem :=
  let m1 := m.writeBytes (k / 4) (BitVec.ofNat 1024 (x <<< (256 * (k % 4)))) (spanMask (32 * (k % 4)) 32)
  { m1 with poison := if poisoned then setInsert m1.poison k else setErase m1.poison k }

/-- The latest error of a stack (Table 11.10). -/
def State.memLast (s : State) (st kind symbol a : Nat) : State :=
  s.setReg (.glbMemLast st) (BitVec.ofNat 64 (2 ^ 63 + kind * 2 ^ 60 + symbol % 16 * 2 ^ 56 + a / 32 * 32))

/-! ### Rows and bursts (11 R350, R369) -/

/-- An access to a row of a bank: one that is not open is activated, and the activation counted. -/
def State.rowAccess (s : State) (st a : Nat) : State :=
  let key := 3072 * st + bankOf a
  let row := (hbmPlace a).row + 1
  if Table.get 0 s.hbm.rows key = row then s
  else { s with hbm := { s.hbm with rows := Table.set 0 s.hbm.rows key row
                                    acts := Table.set 0 s.hbm.acts key (Table.get 0 s.hbm.acts key + 1) } }

/-- The burst that reads a sector (physical address / 32) from its stack, counted. -/
def State.hbmBurst (s : State) (k : Nat) : State :=
  let p := stackPlace s.localK (32 * k)
  (s.rowAccess p.1 p.2).countPkg 4 p.1 63 1

/-- The burst that writes a sector to its stack, counted. -/
def State.hbmStore (s : State) (k : Nat) : State :=
  let p := stackPlace s.localK (32 * k)
  (s.rowAccess p.1 p.2).countPkg 5 p.1 63 1

/-- R362: a read of a poisoned sector. -/
def State.poisonRead (s : State) (k : Nat) : State :=
  let p := stackPlace s.localK (32 * k)
  (s.satRf (.glbMemStat p.1) .poisonReads 1).memLast p.1 2 0 p.2

/-! ### The memory-side copy (10 R321) -/

/-- The mask of the bytes of some sectors. -/
def sectorBytes (b : BitVec 4) : BitVec 128 :=
  BitVec.ofNat 128 ((List.range 4).foldl (fun a k => if b.getLsbD k then a + (2 ^ 32 - 1) * 2 ^ (32 * k) else a) 0)

/-- The memory-side line of a line; no sector valid where the cache does not hold it. -/
def State.sideOf (s : State) (line : Nat) : SideLine := (Table.find s.hbm.side line).getD ⟨0, 0, 0, 0⟩

/-- Set a memory-side line; one with no valid sector is not held. -/
def State.setSide (s : State) (line : Nat) (l : SideLine) : State :=
  { s with hbm := { s.hbm with
    side := if l.valid = 0 then Table.erase s.hbm.side line else Table.insert s.hbm.side line l } }

/-- Sectors come to be held, remembering what the stack holds of them. -/
def State.sideTake (s : State) (line : Nat) (secs : BitVec 4) : State :=
  let l := s.sideOf line
  let new := secs &&& ~~~l.valid
  s.setSide line { l with valid := l.valid ||| new, hbm := mergeLine l.hbm (s.mem.line line) (sectorBytes new)
                          poison := (l.poison &&& ~~~new) ||| (s.mem.linePoison line &&& new) }

/-- The stack's own bytes and poison of a sector, whatever the caches hold. -/
def State.hbmCopy (s : State) (k : Nat) : Nat × Bool :=
  let l := s.sideOf (k / 4)
  if l.valid.getLsbD (k % 4) then (lineNat l.hbm (32 * (k % 4)) 32, l.poison.getLsbD (k % 4))
  else (s.mem.sector k, s.mem.poison.contains k)

/-- The memory-side copy reads the sectors of a line that it does not hold; they meet no error. -/
def State.sideRead (s : State) (line : Nat) (secs : BitVec 4) : State :=
  let l := s.sideOf line
  let s1 := (List.range 4).foldl (fun t i =>
    if secs.getLsbD i && !l.valid.getLsbD i then
      let t1 := t.hbmBurst (4 * line + i)
      if t.mem.poison.contains (4 * line + i) then t1.poisonRead (4 * line + i) else t1
    else t) s
  s1.sideTake line secs

/-- The memory-side copy comes to hold the whole line. -/
def State.sideFill (s : State) (line : Nat) : State := s.sideRead line 15

/-- A write at the memory-side copy that changes the sectors `secs`, of which `part` keep some of their bytes and are
read first (11 R365). -/
def State.sideStore (s : State) (line : Nat) (secs part : BitVec 4) (f : Mem → Mem) : State :=
  let s1 := (s.sideRead line part).sideTake line secs
  let l := s1.sideOf line
  let s2 := s1.setSide line { l with dirty := l.dirty ||| secs }
  { s2 with mem := f s2.mem }

/-- A masked write at the memory-side copy. -/
def State.memWrite (s : State) (line : Nat) (d : Line) (mask : BitVec 128) : State :=
  s.sideStore line (sectorsOf mask) (sectorsOf mask &&& ~~~wholeSectors mask) fun m => m.writeLine line d mask

/-- The memory-side copy takes a whole line with its poison. -/
def State.memTake (s : State) (line : Nat) (d : Line) (p : BitVec 4) : State :=
  s.sideStore line 15 0 fun m => (m.writeBytes line d (BitVec.allOnes 128)).setPoison line 15 p

/-- A held sector is given up: a dirty one is written to the stack, a clean one leaves the stack's own bytes. -/
def State.sideDrop (s : State) (k : Nat) : State :=
  let l := s.sideOf (k / 4)
  let b := BitVec.ofNat 4 (2 ^ (k % 4))
  if !l.valid.getLsbD (k % 4) then s
  else
    let s1 := s.setSide (k / 4) { l with valid := l.valid &&& ~~~b, dirty := l.dirty &&& ~~~b
                                         hbm := mergeLine l.hbm 0 (sectorBytes b), poison := l.poison &&& ~~~b }
    if l.dirty.getLsbD (k % 4) then s1.hbmStore k
    else { s1 with mem := s1.mem.setSector k (lineNat l.hbm (32 * (k % 4)) 32) (l.poison.getLsbD (k % 4)) }

/-- A dirty sector is written to the stack and stays held, clean. -/
def State.sideClean (s : State) (k : Nat) : State :=
  let l := s.sideOf (k / 4)
  let b := BitVec.ofNat 4 (2 ^ (k % 4))
  if !l.dirty.getLsbD (k % 4) then s
  else
    let s1 := s.setSide (k / 4) { l with dirty := l.dirty &&& ~~~b
                                         hbm := mergeLine l.hbm (s.mem.line (k / 4)) (sectorBytes b)
                                         poison := (l.poison &&& ~~~b) ||| (s.mem.linePoison (k / 4) &&& b) }
    s1.hbmStore k

/-- What the stacks hold: the memory once every memory-side copy is discarded (R348). -/
def State.hbmImage (s : State) : Mem :=
  s.hbm.side.foldl (fun m e => (List.range 4).foldl (fun m i =>
    if e.2.valid.getLsbD i then m.setSector (4 * e.1 + i) (lineNat e.2.hbm (32 * i) 32) (e.2.poison.getLsbD i) else m) m)
    s.mem

/-! ### Agents, requests, transactions -/

/-- Nothing held, requested or written back. -/
def CAgent.empty : CAgent := ⟨[], [], [], []⟩

/-- A caching agent. -/
def State.agent (s : State) (a : Nat) : CAgent := Table.get .empty s.coh.agents a

/-- Set a caching agent. -/
def State.setAgent (s : State) (a : Nat) (g : CAgent) : State :=
  { s with coh := { s.coh with agents := Table.set .empty s.coh.agents a g } }

/-- The home's number as the destination of Data, above every requester's. -/
def homeDest : Nat := 46730

/-- Snoop responses (R327). -/
def rspNotPresent : Nat := 0
def rspInvalidated : Nat := 1
def rspKeptShared : Nat := 2
def rspKeptOwned : Nat := 3

/-- The class of a message (01 Table 1.9, 10 Table 10.4). -/
def CMsg.cls : CMsg → Nat
  | .snpShr _ _ _ => 1
  | .snpInv _ _ _ => 1
  | .snpCur _ _ => 1
  | .snpRsp _ _ _ _ => 2
  | .cmp _ _ _ => 2
  | .nack _ _ => 2
  | .ack _ _ => 2
  | .data _ _ _ _ _ _ => 3

/-- Change the fabric. -/
def State.mapCoh (s : State) (f : Coh → Coh) : State := { s with coh := f s.coh }

/-- Send a message. -/
def State.cohSend (s : State) (m : CMsg) : State := s.mapCoh fun k => { k with msgs := k.msgs ++ [m] }

/-- The first message in flight that a test selects, and the state without it. -/
def State.cohTake (s : State) (p : CMsg → Bool) : Option (CMsg × State) :=
  (s.coh.msgs.find? p).map fun m => (m, s.mapCoh fun k => { k with msgs := k.msgs.erase m })

/-- The agent's outstanding request for a line. -/
def State.cohReq (s : State) (a line : Nat) : Option CReq := Table.find (s.agent a).reqs line

/-- Set or remove an agent's request. -/
def State.setCohReq (s : State) (a line : Nat) (q : CReq) : State :=
  s.setAgent a { s.agent a with reqs := Table.insert (s.agent a).reqs line q }
def State.dropCohReq (s : State) (a line : Nat) : State :=
  s.setAgent a { s.agent a with reqs := Table.erase (s.agent a).reqs line }

/-- The agent of a core's group (14 R431, R432). -/
def coreAgent (core : Nat) : Nat := 5 + core / 8

/-- A line's reservations are lost, but one core's. -/
def loseRsv (cores : Table Core) (line : Nat) (but : Option Nat) : Table Core :=
  Table.mapVals ⟨none, none, 0, none⟩ (fun k c => if c.rsv = some line ∧ but ≠ some k then { c with rsv := none } else c)
    cores

/-- The reservations of an agent's cores on a line are lost. -/
def State.unreserve (s : State) (a line : Nat) (but : Option Nat) : State :=
  { s with cores := Table.mapVals ⟨none, none, 0, none⟩ (fun k c =>
      if coreAgent k = a ∧ c.rsv = some line ∧ but ≠ some k then { c with rsv := none } else c) s.cores }

/-- Set or remove an agent's line; its cores' reservations go with it. -/
def State.setLine (s : State) (a line : Nat) (l : CLine) : State :=
  s.setAgent a { s.agent a with lines := Table.insert (s.agent a).lines line l }
def State.dropLine (s : State) (a line : Nat) : State :=
  (s.setAgent a { s.agent a with lines := Table.erase (s.agent a).lines line }).unreserve a line none

/-- Set or remove a write-back buffer. -/
def State.setWb (s : State) (a line : Nat) (w : WbBuf) : State :=
  s.setAgent a { s.agent a with wbs := Table.insert (s.agent a).wbs line w }
def State.dropWb (s : State) (a line : Nat) : State :=
  s.setAgent a { s.agent a with wbs := Table.erase (s.agent a).wbs line }

/-- A transaction of a line. -/
def State.transOf (s : State) (line : Nat) : Option Trans := Table.find s.coh.trans line
def State.setTrans (s : State) (line : Nat) (t : Trans) : State :=
  s.mapCoh fun k => { k with trans := Table.insert k.trans line t }
def State.endTrans (s : State) (line : Nat) : State := s.mapCoh fun k => { k with trans := Table.erase k.trans line }

/-! ### Sets and ways (10 R320, R322) -/

/-- The sets of an agent's cache (10 Table 10.1, 14 Table 14.1). -/
def cacheSets (a : Nat) : Nat := if a < 4 then 98304 else if a = 4 then 65536 else 8192

/-- The set of a line in an agent's cache. DESIGN CHOICE (log 141): the line number modulo the sets. -/
def cacheSet (a line : Nat) : Nat := line % cacheSets a

/-- The depth of the replacement tree over the ways that an agent's lines may occupy: 8 of a shared cache's 16 (R322),
16 of any other. -/
def treeDepth (a : Nat) : Nat := if a < 4 then 3 else 4

/-- The node at depth `i` of a tree of depth `n` on the path to a way. -/
def treeNode (n way i : Nat) : Nat := 2 ^ i + way / 2 ^ (n - i)

/-- R322: the nodes on the path to a way point away from it, or, for a fill at the least recently used position, to
it. Bit k of the tree is node k: 1 points to the upper half of its ways. -/
def treePoint (n tree way : Nat) (off : Bool) : Nat :=
  (List.range n).foldl (fun t i =>
    let node := treeNode n way i
    let up := bit way (n - 1 - i)
    let cleared := if bit t node then t - 2 ^ node else t
    if up != off then cleared + 2 ^ node else cleared) tree

/-- The way that the tree points to. -/
def treeVictim (n tree : Nat) : Nat := (List.range n).foldl (fun k _ => 2 * k + bval (bit tree k)) 1 - 2 ^ n

/-- An agent's access of a line that it holds, or fills, makes its way the most recently used; a NOALLOC fill makes it
the least. -/
def State.touchWay (s : State) (a line way : Nat) (low : Bool) : State :=
  let g := s.agent a
  let set := cacheSet a line
  let n := treeDepth a
  s.setAgent a { g with trees := Table.set 0 g.trees set (treePoint n (Table.get 0 g.trees set) way (!low)) }

/-- Ways of a line's set that are held, or kept for a request. -/
def CAgent.usedWays (g : CAgent) (a line : Nat) : List Nat :=
  ((g.lines.filter fun e => cacheSet a e.1 == cacheSet a line).map fun e => e.2.way) ++
    ((g.reqs.filter fun e => cacheSet a e.1 == cacheSet a line && (e.2.kind == .rdS || e.2.kind == .rdX)).map fun e =>
      e.2.way)

/-- The lowest free way of a line's set. -/
def State.freeWay (s : State) (a line : Nat) : Option Nat :=
  (List.range (2 ^ treeDepth a)).find? fun w => !((s.agent a).usedWays a line).contains w

/-- R322: the line of the set that makes room: the tree's way, or, while that one is in use by a request, the lowest
other. -/
def State.cacheVictim (s : State) (a line : Nat) : Option (Nat × CLine) :=
  let g := s.agent a
  let may := g.lines.filter fun e => cacheSet a e.1 == cacheSet a line && (Table.find g.reqs e.1).isNone &&
    (Table.find g.wbs e.1).isNone
  let w := treeVictim (treeDepth a) (Table.get 0 g.trees (cacheSet a line))
  match may.find? fun e => e.2.way == w with
  | some e => some e
  | none => may.head?

/-! ### The directory (R325, R326) -/

/-- The directory set of a line within its home: its line number in the stack, modulo the sets. -/
def State.dirSet (s : State) (line : Nat) : Nat := (stackPlace s.localK (128 * line)).2 / 128 % 131072

/-- Set a line's entry; a new one takes the next age. -/
def State.setDir (s : State) (line : Nat) (st : DirState) (owner : Nat) (presence : List Nat) : State :=
  match Table.find s.coh.dir line with
  | some e => s.mapCoh fun k => { k with dir := Table.insert k.dir line ⟨st, owner, presence, e.age⟩ }
  | none => s.mapCoh fun k =>
      { k with dir := Table.insert k.dir line ⟨st, owner, presence, k.nextAge⟩, nextAge := k.nextAge + 1 }

/-- State DI: no entry. -/
def State.freeDir (s : State) (line : Nat) : State := s.mapCoh fun k => { k with dir := Table.erase k.dir line }

/-- DS of a list of agents, DI of none. -/
def State.setShared (s : State) (line : Nat) (presence : List Nat) : State :=
  if presence = [] then s.freeDir line else s.setDir line .ds 0 presence

/-! ### Atomics (05 R160) -/

/-- The new value of an atomic of `w` bits: memory `m`, operand `v`, compare value `c` (R160). -/
def atomApply (sub w m v c : Nat) : Nat :=
  match sub with
  | 0 => (m + v) % 2 ^ w
  | 1 => m &&& v
  | 2 => m ||| v
  | 3 => m ^^^ v
  | 4 => if signed w m ≤ signed w v then m else v
  | 5 => if signed w m ≤ signed w v then v else m
  | 6 => min m v
  | 7 => max m v
  | 8 => v
  | 9 => if m = c then v else m
  | _ => rneAdd (if w = 32 then fp32 else fp64) m v

/-! ### Cores' accesses of a line that their group holds (14 R435, R437) -/

/-- A core. -/
def Core.idle : Core := ⟨none, none, 0, none⟩
def State.core (s : State) (k : Nat) : Core := Table.get .idle s.cores k
def State.setCore (s : State) (k : Nat) (c : Core) : State := { s with cores := Table.set .idle s.cores k c }

/-- The bytes an agent writes into a line it may write; other cores' reservations on it are lost. -/
def State.lineWrite (s : State) (a line : Nat) (l : CLine) (d : Line) (mask : BitVec 128) (writer : Option Nat := none) :
    State :=
  (s.setLine a line { l with st := .m, data := mergeLine l.data d mask, poison := l.poison &&& ~~~ wholeSectors mask
    }).unreserve a line writer

/-- The value that a core's access returns. -/
def State.coreGets (s : State) (k : Nat) (v : Nat) (rsv : Option Nat) : State :=
  s.setCore k { s.core k with value := BitVec.ofNat 64 v, rsv := rsv }

/-- A core's load of a held line: its value, or the poison it meets (R435), whose report follows. -/
def State.coreLoad (s : State) (k line : Nat) (l : CLine) (off n : Nat) (rsv : Option Nat) : State :=
  if l.poison.getLsbD (off / 32) then s.setCore k { s.core k with met := some (128 * line + off / 32 * 32) }
  else s.coreGets k (lineNat l.data off n) rsv

/-- What a read of a held line is for. -/
def State.readUse (s : State) (line : Nat) (l : CLine) (u : LineUse) : State :=
  match u with
  | .load k off size => s.coreLoad k line l off (2 ^ size) (s.core k).rsv
  | _ => s

/-- R437: an access of a line that its agent may write. An AMO whose old bytes are poisoned is not performed. -/
def State.writeUse (s : State) (a line : Nat) (l : CLine) (u : LineUse) (d : Line) (mask : BitVec 128) : State :=
  match u with
  | .amo k off size sub v c =>
    let n := 2 ^ size
    let m := { l with st := LineState.m }
    let s1 := (s.setLine a line m).coreLoad k line m off n (s.core k).rsv
    if (s1.core k).met.isSome then s1
    else
      let y := atomApply sub (8 * n) (lineNat l.data off n) (v.toNat % 2 ^ (8 * n)) (c.toNat % 2 ^ (8 * n))
      s1.lineWrite a line m (BitVec.ofNat 1024 (y <<< (8 * off))) (spanMask off n) (some k)
  | .lr k off size =>
    let m := { l with st := LineState.m }
    (s.setLine a line m).coreLoad k line m off (2 ^ size) (some line)
  | .sc k off size v =>
    let m := { l with st := LineState.m }
    if (s.core k).rsv = some line then
      (s.lineWrite a line m (BitVec.ofNat 1024 (v.toNat % 2 ^ (8 * 2 ^ size) <<< (8 * off))) (spanMask off (2 ^ size))
        (some k)).coreGets k 0 none
    else (s.setLine a line m).coreGets k 1 none
  | u => s.lineWrite a line l d mask u.core

/-! ### Snoops (Table 10.5, R339 to R341) -/

/-- An agent answers a snoop: its response, and data to a destination. -/
def State.snoopAnswer (s : State) (a line kind : Nat) (dest : SnpDest) (d : Option (Line × BitVec 4 × Bool)) : State :=
  let rsp := fun (s : State) (sent : Bool) => s.cohSend (.snpRsp a line kind sent)
  match dest, d with
  | .agent r, some (x, p, dirty) => rsp (s.cohSend (.data r line x p dirty none)) true
  | .home, some (x, p, dirty) => rsp (s.cohSend (.data homeDest line x p dirty none)) true
  | _, _ => rsp s false

/-- The holder's present copy: its line, or a write-back buffer that no snoop has superseded, which answers as M or O
until its Cmp arrives (R341). -/
def State.copyOf (s : State) (a line : Nat) : Option (LineState × Line × BitVec 4 × Bool) :=
  match Table.find (s.agent a).lines line with
  | some l => some (l.st, l.data, l.poison, false)
  | none =>
    match Table.find (s.agent a).wbs line with
    | some w => if w.superseded then none else some (w.st, w.data, w.poison, true)
    | none => none

/-- The copy takes a new state, or none. -/
def State.setCopy (s : State) (a line : Nat) (wb : Bool) (st : Option LineState) : State :=
  if wb then
    match Table.find (s.agent a).wbs line, st with
    | some w, some x => s.setWb a line { w with st := x }
    | some w, none => s.setWb a line { w with superseded := true }
    | none, _ => s
  else
    match Table.find (s.agent a).lines line, st with
    | some l, some x => s.setLine a line { l with st := x }
    | some _, none => s.dropLine a line
    | none, _ => s

/-- An agent takes SnpShr. -/
def State.takeSnpShr (s : State) (a line : Nat) (dest : SnpDest) : State :=
  match s.copyOf a line with
  | some (.e, d, p, wb) => (s.setCopy a line wb (some .s)).snoopAnswer a line rspKeptShared dest (some (d, p, false))
  | some (.o, d, p, _) => s.snoopAnswer a line rspKeptOwned dest (some (d, p, false))
  | some (.m, d, p, wb) => (s.setCopy a line wb (some .o)).snoopAnswer a line rspKeptOwned dest (some (d, p, false))
  | _ => s.snoopAnswer a line rspNotPresent dest none

/-- An agent takes SnpInv: data of an M or O copy leaves it dirty. -/
def State.takeSnpInv (s : State) (a line : Nat) (dest : SnpDest) : State :=
  match s.copyOf a line with
  | some (.s, _, _, wb) => (s.setCopy a line wb none).snoopAnswer a line rspInvalidated .nowhere none
  | some (st, d, p, wb) => (s.setCopy a line wb none).snoopAnswer a line rspInvalidated dest (some (d, p, st != .e))
  | none => s.snoopAnswer a line rspNotPresent dest none

/-- An agent takes SnpCur: the holder sends its data to the home and keeps its state. -/
def State.takeSnpCur (s : State) (a line : Nat) : State :=
  match s.copyOf a line with
  | some (.s, _, _, _) => s.snoopAnswer a line rspNotPresent .home none
  | some (_, d, p, _) => s.snoopAnswer a line rspKeptOwned .home (some (d, p, false))
  | none => s.snoopAnswer a line rspNotPresent .home none

/-! ### The home's transactions (Table 10.6) -/

/-- The request needs a directory entry for a line that has none. -/
def ReqKind.fills : ReqKind → Bool
  | .rdS => true
  | .rdX => true
  | .upg => true
  | _ => false

/-- Send the memory-side copy to an agent, with a grant. -/
def State.homeData (s : State) (a line : Nat) (grant : Option LineState) : State :=
  (s.sideFill line).cohSend (.data a line (s.mem.line line) (s.mem.linePoison line) false grant)

/-- The span of an atomic or a tally add at the home: its first byte in the line, and its length. -/
def homeSpan (op : HomeAtomic) (addr : Nat) : Nat × Nat :=
  let n := match op with
    | .atom _ size _ _ => if size = 3 then 8 else 4
    | .tally _ => 32
  (addr % 128 / n * n, n)

/-- R335: an atomic or a tally add at the home; on a poisoned sector it is not applied, and its requester learns so
(19 Table 19.3). -/
def State.homeAtomic (s : State) (a line addr : Nat) (op : HomeAtomic) : State :=
  let lo := (homeSpan op addr).1
  let n := (homeSpan op addr).2
  let s1 := s.sideFill line
  let x := lineNat (s1.mem.line line) lo n
  if s1.mem.linePoison line &&& sectorsOf (spanMask lo n) ≠ 0 then
    match s1.cohReq a line with
    | some q => s1.setCohReq a line { q with failed := some (128 * line + lo / 32 * 32) }
    | none => s1
  else
    let y := match op with
      | .atom sub _ v c => atomApply sub (8 * n) x (v.toNat % 2 ^ (8 * n)) (c.toNat % 2 ^ (8 * n))
      | .tally v => (x + v.toNat) % 2 ^ 256
    s1.memWrite line (BitVec.ofNat 1024 (y <<< (8 * lo))) (spanMask lo n)

/-- The responses are in: the home finishes a transaction (Table 10.6). -/
def State.finishTrans (s : State) (line : Nat) (t : Trans) : State :=
  let e := Table.find s.coh.dir line
  let r := t.agent
  let answer := fun p => ((t.answers.find? fun x => x.1 == p).map Prod.snd).getD rspNotPresent
  let ack := fun (s : State) => s.setTrans line { t with phase := .ack, waiting := [], answers := [] }
  let granted := fun (s : State) (g : LineState) => ack (s.cohSend (.cmp r line (some g)))
  let home := fun (s : State) (g : LineState) => ack (s.homeData r line (some g))
  let exclusive := fun (s : State) => s.setDir line .dx r []
  let done := fun (s : State) => (s.cohSend (.cmp r line none)).endTrans line
  match t.kind with
  | .rdS =>
    (match e with
      | none => home (exclusive s) .e
      | some d =>
        match d.st with
        | .ds => home (s.setDir line .ds 0 (setInsert d.presence r)) .s
        | .dx =>
          if d.owner = r then home (exclusive s) .e
          else if answer d.owner = rspKeptShared then
            granted (s.setDir line .ds 0 (setInsert (setInsert [] d.owner) r)) .s
          else if answer d.owner = rspKeptOwned then granted (s.setDir line .do d.owner [r]) .s
          else home (exclusive s) .e
        | .do =>
          let s1 := s.setDir line .do d.owner (setInsert d.presence r)
          if answer d.owner = rspNotPresent then home s1 .s else granted s1 .s)
  | .rdX =>
    (match e with
      | none => home (exclusive s) .m
      | some d =>
        if d.st ≠ .ds ∧ d.owner ≠ r ∧ answer d.owner ≠ rspNotPresent then granted (exclusive s) .m
        else home (exclusive s) .m)
  | .upg =>
    (match e with
      | none => home (exclusive s) .m
      | some d =>
        let listed := (d.st == .ds && d.presence.contains r) ||
          (d.st == .do && (d.owner == r || d.presence.contains r))
        if listed then granted (exclusive s) .m
        else if d.st ≠ .ds ∧ d.owner ≠ r ∧ answer d.owner ≠ rspNotPresent then granted (exclusive s) .m
        else home (exclusive s) .m)
  | .wbD =>
    (match e, Table.find (s.agent r).wbs line with
      | some d, some w =>
        if d.st ≠ .ds ∧ d.owner = r then
          done (((s.memTake line w.data w.poison).setWb r line { w with taken := true }).setShared line
            (if d.st = .do then d.presence else []))
        else done s
      | _, _ => done s)
  | .wbC =>
    (match e, Table.find (s.agent r).wbs line with
      | some d, some w =>
        if d.st ≠ .ds ∧ d.owner = r then
          let s1 := (s.memTake line w.data w.poison).setWb r line { w with taken := true }
          done (if d.st = .do then s1.setShared line (setInsert d.presence r) else s1)
        else done s
      | _, _ => done s)
  | .rdCur =>
    (match t.dataIn with
      | some (d, p) => (s.cohSend (.data r line d p false none)).endTrans line
      | none => (s.homeData r line none).endTrans line)
  | .wrNC => done ((s.memWrite line t.data t.mask).freeDir line)
  | .atomH addr op => done ((s.homeAtomic r line addr op).freeDir line)
  | .evict => ((s.satRf (.glbHomeStat (s.homeOf line)) .dirEvict 1).freeDir line).endTrans line

/-- The snoops a request sends (Table 10.6): to whom, whether it invalidates, and where data goes. -/
def State.snoopsFor (s : State) (line : Nat) (t : Trans) : List CMsg :=
  let r := t.agent
  let inv := fun (l : List Nat) (d : SnpDest) => (l.filter (· != r)).map fun a => CMsg.snpInv a line d
  match Table.find s.coh.dir line with
  | none => []
  | some d =>
    let sharers := d.presence.filter (· != d.owner)
    match t.kind with
    | .rdS => if d.st = .ds ∨ d.owner = r then [] else [.snpShr d.owner line (.agent r)]
    | .rdX => if d.st = .ds then inv d.presence .nowhere
        else if d.st = .dx then inv [d.owner] (.agent r)
        else inv [d.owner] (.agent r) ++ inv sharers .nowhere
    | .upg =>
      if d.st = .ds then inv d.presence .nowhere
      else if d.st = .dx then inv [d.owner] (.agent r)
      else if d.owner = r ∨ d.presence.contains r then inv (d.owner :: sharers) .nowhere
      else inv [d.owner] (.agent r) ++ inv sharers .nowhere
    | .rdCur => if d.st = .ds then [] else [.snpCur d.owner line]
    | .wrNC => if d.st = .ds then d.presence.map fun a => .snpInv a line .nowhere
        else .snpInv d.owner line .home :: sharers.map fun a => .snpInv a line .nowhere
    | .atomH _ _ => if d.st = .ds then d.presence.map fun a => .snpInv a line .nowhere
        else .snpInv d.owner line .home :: sharers.map fun a => .snpInv a line .nowhere
    | .evict => (if d.st = .ds then d.presence else d.owner :: sharers).map fun a => .snpInv a line .home
    | _ => []

/-- The agent that a snoop goes to. -/
def CMsg.snooped : CMsg → Nat
  | .snpShr a _ _ => a
  | .snpInv a _ _ => a
  | .snpCur a _ => a
  | _ => homeDest

/-! ### The home: responses, data and Ack -/

/-- The transaction finishes once every response and every announced Data is in. -/
def State.checkTrans (s : State) (line : Nat) : State :=
  match s.transOf line with
  | some t => if t.phase = .snoops ∧ t.waiting = [] ∧ t.due = t.got then s.finishTrans line t else s
  | none => s

/-- The home takes a snoop response: Data is announced to it where the snoop named it. -/
def State.takeSnpRsp (s : State) (a line kind : Nat) (sent : Bool) (t : Trans) : State :=
  let toHome := match t.kind with
    | .rdS => false
    | .rdX => false
    | .upg => false
    | _ => sent
  (s.setTrans line { t with waiting := t.waiting.erase a, answers := t.answers ++ [(a, kind)]
                            due := t.due + bval toHome }).checkTrans line

/-- Data reaches the home: what a SnpCur brought is kept for the reader, any other updates the memory-side copy. -/
def State.homeGets (s : State) (line : Nat) (d : Line) (p : BitVec 4) : State :=
  match s.transOf line with
  | some t =>
    let t1 := { t with got := t.got + 1 }
    if t.kind = .rdCur then (s.setTrans line { t1 with dataIn := some (d, p) }).checkTrans line
    else ((s.memTake line d p).setTrans line t1).checkTrans line
  | none => s.memTake line d p

/-! ### Requesters: grants and data (R330, R331) -/

/-- An agent installs what it was granted, once it has the data it needs, makes the access that it asked for, and sends
Ack. -/
def State.install (s : State) (a line : Nat) : State :=
  match s.cohReq a line with
  | none => s
  | some q =>
    let held := Table.find (s.agent a).lines line
    let src : Option (Line × BitVec 4 × Nat) := match q.gotData, held with
      | some (d, p, _), some l => some (d, p, l.way)
      | some (d, p, _), none => some (d, p, q.way)
      | none, some l => if q.kind = .upg then some (l.data, l.poison, l.way) else none
      | none, none => none
    match q.gotGrant, src with
    | some g, some (d, p, w) =>
      let s1 := (s.dropCohReq a line).touchWay a line w q.use.noalloc
      let l : CLine := ⟨g, d, p, w⟩
      let s2 := if q.kind = .rdS then (s1.setLine a line l).readUse line l q.use
        else s1.writeUse a line { l with st := .m } q.use q.data q.mask
      s2.cohSend (.ack a line)
    | _, _ => s

/-- Data reaches a requester. -/
def State.takeData (s : State) (a line : Nat) (d : Line) (p : BitVec 4) (dirty : Bool) (grant : Option LineState) : State :=
  match s.cohReq a line with
  | some q =>
    if q.kind = .rdCur then s.dropCohReq a line
    else
      let g := match grant with
        | some x => some x
        | none => q.gotGrant
      (s.setCohReq a line { q with gotData := some (d, p, dirty), gotGrant := g }).install a line
  | none => s

/-- The clean state that a WbC leaves its line in: E from M, S from O (Table 10.4). -/
def LineState.cleaned : LineState → LineState
  | .m => .e
  | .o => .s
  | st => st

/-- Cmp reaches a requester: a grant, or the completion of a write-back or of another request. A WbC's clean line takes
the free way of its set, if there is one (it kept its own while it was held). -/
def State.takeCmp (s : State) (a line : Nat) (grant : Option LineState) : State :=
  match s.cohReq a line, grant with
  | some q, some g => (s.setCohReq a line { q with gotGrant := some g }).install a line
  | some q, none =>
    let s1 := s.dropCohReq a line
    (match q.kind, Table.find (s1.agent a).wbs line with
      | .wbD, some _ => s1.dropWb a line
      | .wbC, some w =>
        let s2 := s1.dropWb a line
        (match s2.freeWay a line with
          | some n => if w.taken && !w.superseded then s2.setLine a line ⟨w.st.cleaned, w.data, w.poison, n⟩ else s2
          | none => s2)
      | _, _ => s1)
  | none, _ => s

/-- NACK reaches a requester (R336): the request is no longer in flight. -/
def State.takeNack (s : State) (a line : Nat) : State :=
  match s.cohReq a line with
  | some q => s.setCohReq a line { q with nacks := q.nacks + 1, sent := false }
  | none => s

/-! ### A line's transaction run to its end -/

/-- The line that a message is about. -/
def CMsg.line : CMsg → Nat
  | .snpShr _ l _ => l
  | .snpInv _ l _ => l
  | .snpCur _ l => l
  | .snpRsp _ l _ _ => l
  | .cmp _ l _ => l
  | .nack _ l => l
  | .ack _ l => l
  | .data _ l _ _ _ _ => l

/-- A message is taken by the agent or the home that it goes to. -/
def State.deliver (s : State) (m : CMsg) : State :=
  let s1 := s.mapCoh fun k => { k with msgs := k.msgs.erase m }
  match m with
  | .snpShr a l dest => s1.takeSnpShr a l dest
  | .snpInv a l dest => s1.takeSnpInv a l dest
  | .snpCur a l => s1.takeSnpCur a l
  | .snpRsp a l kind sent =>
    (match s1.transOf l with
      | some t => s1.takeSnpRsp a l kind sent t
      | none => s1)
  | .cmp a l grant => s1.takeCmp a l grant
  | .nack a l => s1.takeNack a l
  | .ack _ l => s1.endTrans l
  | .data a l d p dirty grant => if a = homeDest then s1.homeGets l d p else s1.takeData a l d p dirty grant

/-- Messages about a line are taken, in the order they were sent, until its transaction has ended; one that still waits
for a directory entry has not begun. -/
def State.drain (line : Nat) : Nat → State → State
  | 0, s => s
  | n + 1, s =>
    match s.transOf line with
    | none => s
    | some t =>
      if t.phase = .room then s
      else
        match s.coh.msgs.find? fun m => m.line == line with
        | some m => State.drain line n (s.deliver m)
        | none => s

/-- R330: what meets the home after a line's transaction in progress has ended. A transaction sends at most 14 snoops,
each with a response and Data, a grant, and Ack. -/
def State.lineEnded (s : State) (line : Nat) : State := State.drain line (64 + s.coh.msgs.length) s

end Sys2Proof.Machine
end

