-- ==== Sys2Proof/Machine/Ops.lean ====
section
/-! DEFINITION. The named operations over coherent memory, frame ownership, translation and the outside that every
meaning is written with. -/

namespace Sys2Proof.Machine

/-! ### The coherent value of a line (10_coherence_caches.md) -/

/-- A dirty copy of a line in some agent, write-back buffer or message, or received and not yet installed: the newest
value of the line. -/
def State.dirtyCopy (s : State) (line : Nat) : Option (Line × BitVec 4) :=
  match s.coh.agents.findSome? (fun e =>
      match Table.find e.2.lines line with
      | some l => if l.st = .m ∨ l.st = .o then some (l.data, l.poison) else none
      | none => none) with
  | some r => some r
  | none =>
    match s.coh.agents.findSome? (fun e =>
        match Table.find e.2.wbs line with
        | some w => if w.superseded || w.taken then none else some (w.data, w.poison)
        | none => none) with
    | some r => some r
    | none =>
      match s.coh.msgs.findSome? (fun m =>
          match m with
          | .data _ l d p true _ => if l = line then some (d, p) else none
          | _ => none) with
      | some r => some r
      | none => s.coh.agents.findSome? fun e =>
          match Table.find e.2.reqs line with
          | some r => (match r.gotData with
            | some (d, p, true) => some (d, p)
            | _ => none)
          | none => none

/-- The value a line holds beyond the cluster L1s, and its poison bits (07 R235). -/
def State.cohLine (s : State) (line : Nat) : Line × BitVec 4 :=
  match s.dirtyCopy line with
  | some r => r
  | none => (s.mem.line line, s.mem.linePoison line)

/-- A non-caching write of masked bytes at the home of a line (10 Table 10.6, WrNC and home-local write; R323, R330):
the line's transaction in progress ends first, a dirty copy is merged, every caching agent's copy is invalidated and the
directory entry freed, and the memory-side copy takes the bytes. -/
def State.cohWrite (s : State) (line : Nat) (d : Line) (mask : BitVec 128) : State :=
  let s0 := s.lineEnded line
  let s1 := match s0.dirtyCopy line with
    | some (od, op) => s0.memTake line od op
    | none => s0
  let s2 := s1.memWrite line d mask
  { s2 with
    cores := loseRsv s2.cores line none
    coh := { s2.coh with
      agents := Table.mapVals .empty (fun _ g =>
        { g with lines := Table.erase g.lines line
                 wbs := match Table.find g.wbs line with
                   | some w => Table.insert g.wbs line { w with superseded := true }
                   | none => g.wbs }) s2.coh.agents
      dir := Table.erase s2.coh.dir line } }

/-- Mark the masked sectors of a line poisoned at its home, no cache holding it any longer. -/
def State.cohPoison (s : State) (line : Nat) (which : BitVec 4) : State :=
  (s.cohWrite line 0 0).sideStore line which 0 fun m => m.setPoison line which 15

/-! ### Frame ownership (09 R300 to R303) -/

/-- The owner of a frame in a list of override ranges, latest first. -/
def ownerIn : List (Nat × Nat × Nat) → Nat → Nat
  | [], _ => 0
  | (first, count, o) :: t, f => if first ≤ f ∧ f < first + count then o else ownerIn t f

/-- The owner of a frame. -/
def State.frameOwner (s : State) (f : Nat) : Nat := ownerIn s.xlt.owners f

/-- R301: a request of a context to a line is accepted. -/
def State.ownerOk (s : State) (ctx line : Nat) : Bool :=
  ctx == 0 || (let o := s.frameOwner (line / 16384); o == ctx || o == 63)

/-- A read at the home agent: the line, its poison bits, and whether it was accepted (R301: a refused read
returns zeros marked as poison). -/
def State.homeRead (s : State) (ctx line : Nat) : Line × BitVec 4 × Bool :=
  if memLines ≤ line then (0, 15, true)
  else if s.ownerOk ctx line then
    let r := s.cohLine line
    (r.1, r.2, true)
  else (0, 15, false)

/-- A read at the home agent that takes the line from the memory-side copy, which reads its stack where it does not
hold the line; answers the state after it, and what `homeRead` gives. -/
def State.homeFetch (s : State) (ctx line : Nat) : State × Line × BitVec 4 × Bool :=
  let r := s.homeRead ctx line
  (if memLines ≤ line ∨ !r.2.2 ∨ (s.dirtyCopy line).isSome then s else s.sideFill line, r)

/-- A write at the home agent, and whether it was accepted (R301: a refused write is discarded). -/
def State.homeWrite (s : State) (ctx line : Nat) (d : Line) (mask : BitVec 128) : State × Bool :=
  if memLines ≤ line then (s, true)
  else if s.ownerOk ctx line then (s.cohWrite line d mask, true)
  else (s, false)

/-! ### Translation (09 R285 to R296) -/

/-- The causes of Table 9.6. -/
def causeNoRange : Nat := 0
def causeNoRead : Nat := 1
def causeNoWrite : Nat := 2
def causeNoExec : Nat := 3
def causeBadEntry : Nat := 4
def causeAperture : Nat := 5
def causeCtxInvalid : Nat := 6

/-- The first VA of the host aperture (09 Table 9.1). -/
def apertureBase : Nat := 2 ^ 55

/-- How an access uses its address: reads, writes, fetches, and whether it may act on the aperture (R285). -/
structure Need where
  r : Bool
  w : Bool
  x : Bool
  aperture : Bool
  deriving DecidableEq, Repr

def needRead : Need := ⟨true, false, false, true⟩
def needWrite : Need := ⟨false, true, false, true⟩
def needAtomic : Need := ⟨true, true, false, false⟩
/-- A read and a write that may not act on the aperture: ledgers, context records and digests. -/
def needReadDev : Need := ⟨true, false, false, false⟩
def needWriteDev : Need := ⟨false, true, false, false⟩
def needExec : Need := ⟨false, false, true, false⟩

/-- The ACCESS bits of Table 9.6: R in bit 0, W in bit 1, X in bit 2. -/
def Need.code (n : Need) : Nat := bval n.r + 2 * bval n.w + 4 * bval n.x

/-- What translating one address gives. -/
inductive Xlat where
  | mem (pa : Nat)
  | host (addr : Nat)
  | fault (cause entry : Nat)
  deriving DecidableEq, Repr

/-- Entry `i` of a context's range table, as 256 bits, and whether its sector is poisoned (R288). -/
def State.rangeEntry (s : State) (base i : Nat) : Nat × Bool :=
  let a := base + 32 * i
  let r := s.homeRead 0 (a / 128)
  (lineNat r.1 (a % 128) 32, r.2.1.getLsbD (a % 128 / 32))

/-- R287: an entry of 256 bits is well formed. -/
def entryWf (e : Nat) : Bool :=
  let va := bits e 0 64
  let len := bits e 64 64
  let pa := bits e 128 64
  bits e 0 16 == 0 && bits e 55 9 == 0 && len != 0 && len % 65536 == 0 &&
    bits e 128 16 == 0 && bits e 168 24 == 0 && bits e 195 28 == 0 && bits e 224 32 == 0 &&
    decide (va + len ≤ 2 ^ 55) && decide (pa + len ≤ 0xF000000000)

/-- R289: the binary search over `n` halvings; the last entry found at or below `va`, and its poison. -/
def State.walkFrom (s : State) (base va : Nat) : Nat → Nat → Nat → Option (Nat × Nat × Bool) →
    Option (Nat × Nat × Bool)
  | 0, _, _, found => found
  | n + 1, lo, hi, found =>
    -- `hi` is one past the last index
    if lo < hi then
      let mid := (lo + hi - 1) / 2
      let e := s.rangeEntry base mid
      if bits e.1 0 64 ≤ va then s.walkFrom base va n (mid + 1) hi (some (mid, e.1, e.2))
      else s.walkFrom base va n lo mid found
    else found

/-- R289: the table indices that the binary search reads, over `n` halvings. -/
def State.probes (s : State) (base va : Nat) : Nat → Nat → Nat → List Nat
  | 0, _, _ => []
  | n + 1, lo, hi =>
    if lo < hi then
      let mid := (lo + hi - 1) / 2
      mid :: (if bits (s.rangeEntry base mid).1 0 64 ≤ va then s.probes base va n (mid + 1) hi
        else s.probes base va n lo mid)
    else []

/-- The probes of a walk read their lines from the memory-side copies (R291); each poisoned one is consumed
(19 R546). -/
def State.walkReads (s : State) (ctx va : Nat) : State :=
  let base := s.rf (.xltCtx ctx) .base * 4096
  if !s.rbit (.xltCtx ctx) .valid then s
  else (s.probes base va 18 0 (s.rf (.xltCtx ctx) .count)).foldl (fun t i =>
    let t1 := (t.homeFetch 0 ((base + 32 * i) / 128)).1
    if (s.rangeEntry base i).2 then t1.satRf .fltErrStat .consumed 1 else t1) s

/-- R289: a walk of a context's range table: the entry, or a fault cause and entry index. A poisoned entry
counts as not well formed (19 Table 19.3). -/
def State.walk (s : State) (ctx va : Nat) : Except (Nat × Nat) RcEntry :=
  if !s.rbit (.xltCtx ctx) .valid then .error (causeCtxInvalid, 0x1FFFF)
  else
    match s.walkFrom (s.rf (.xltCtx ctx) .base * 4096) va 18 0 (s.rf (.xltCtx ctx) .count) none with
    | none => .error (causeNoRange, 0x1FFFF)
    | some (i, e, poisoned) =>
      if poisoned || !entryWf e then .error (causeBadEntry, i)
      else if bits e 0 64 + bits e 64 64 ≤ va then .error (causeNoRange, 0x1FFFF)
      else if !bit e 223 then .error (causeNoRange, 0x1FFFF)
      else .ok ⟨ctx, bits e 0 64, bits e 64 64, bits e 128 64, bit e 192, bit e 193, bit e 194, i⟩

/-- R293, R296: the lowest-numbered entry of a range cache that an address hits. -/
def RangeCache.lookup (k : RangeCache) (ctx va : Nat) : Option RcEntry :=
  k.entries.findSome? fun e =>
    if e.2.ctx = ctx ∧ e.2.start ≤ va ∧ va < e.2.start + e.2.len then some e.2 else none

/-- R295: fill at the round-robin pointer. -/
def RangeCache.fill (k : RangeCache) (e : RcEntry) : RangeCache :=
  ⟨Table.insert k.entries k.ptr e, (k.ptr + 1) % 48⟩

/-- A range cache. -/
def State.rcache (s : State) : RcId → RangeCache
  | .cluster c => (s.cluster c).rc
  | .square => s.xlt.square

/-- Set a range cache. -/
def State.setRcache (s : State) (id : RcId) (k : RangeCache) : State :=
  match id with
  | .cluster c => s.setCluster c { s.cluster c with rc := k }
  | .square => { s with xlt := { s.xlt with square := k } }

/-- A range-cache miss and its walk are counted (09 Table 9.19, 20 Tables 20.3 and 20.4). -/
def State.countMiss (s : State) (ctx : Nat) : RcId → State
  | .cluster c => ((s.satRf (.clRcStat c) .misses 1).countCl c 11 ctx 1).countPkg 14 (c / 176) ctx 1
  | .square => s.countPkg 14 4 ctx 1

/-- R290: the permission an entry lacks, first in the order R, W, X. -/
def RcEntry.missing (e : RcEntry) (n : Need) : Option Nat :=
  if n.r && !e.r then some causeNoRead
  else if n.w && !e.w then some causeNoWrite
  else if n.x && !e.x then some causeNoExec
  else none

/-- R285: APERTURE permits an access. -/
def apertureOk (ap : Nat) (n : Need) : Bool :=
  n.aperture && !n.x && (ap == 2 || (ap == 1 && !n.w))

/-- Translate one address in a context through a range cache (R285, R289 to R295): a hit, or a walk whose
entry fills the cache. DEDUCED (log 138): an address above Table 9.1's last, which only a frame or a register can
bring here, lies in no range. -/
def State.translate (s : State) (id : RcId) (ctx va : Nat) (n : Need) : State × Xlat :=
  if 2 ^ 56 ≤ va then (s, .fault causeNoRange 0x1FFFF)
  else if apertureBase ≤ va then
    if apertureOk (s.rf (.xltCtx ctx) .aperture) n then (s, .host (va - apertureBase))
    else (s, .fault causeAperture 0x1FFFF)
  else
    match (s.rcache id).lookup ctx va with
    | some e =>
      match e.missing n with
      | some c => (s, .fault c e.index)
      | none => (s, .mem (e.pa + (va - e.start)))
    | none =>
      let s1 := (s.countMiss ctx id).walkReads ctx va
      match s.walk ctx va with
      | .error (c, i) => (s1, .fault c i)
      | .ok e =>
        let s2 := s1.setRcache id ((s1.rcache id).fill e)
        match e.missing n with
        | some c => (s2, .fault c e.index)
        | none => (s2, .mem (e.pa + (va - e.start)))

/-! ### The outside -/

/-- A free 64-bit value, and the counter advanced past it (log 2). -/
def State.freshWord (s : State) : State × Word := ({ s with free := s.free + 1 }, Config.freeWord s.free)

/-- A free bit, and the counter advanced past it (log 2). -/
def State.freshBit (s : State) : State × Bool := ({ s with free := s.free + 1 }, Config.freeBit s.free)

/-- Hand a posted write to the PCIe endpoint (12 R376: discarded and counted while the link is down). -/
def State.hostWrite (s : State) (addr : Nat) (bs : List (Option Byte)) : State :=
  if s.rbit .hqLinkStatus .up then { s with outbox := s.outbox ++ [.hostWrite addr bs false false] }
  else s.satRf .hqLinkDrop .txDrop 1

/-- Send a read request to host memory (12 R390); none leaves while the link is down. `control` says that it is a
control read, which snoops the host's caches and is not reordered. -/
def State.hostRead (s : State) (addr len : Nat) (control : Bool := false) : State :=
  if s.rbit .hqLinkStatus .up then { s with outbox := s.outbox ++ [.hostRead addr len (!control) (!control)] } else s

/-- Send an MSI-X message, or hold it pending behind a mask (12 R394). -/
def State.msix (s : State) (vec : Nat) : State :=
  let e := Table.get (⟨0, 0, true⟩ : MsixEntry) s.pcie.msix vec
  if e.masked || s.pcie.funcMask then { s with pcie := { s.pcie with pend := setInsert s.pcie.pend vec } }
  else if s.rbit .hqLinkStatus .up then { s with outbox := s.outbox ++ [.msix vec e.addr e.data false false] }
  else s.satRf .hqLinkDrop .txDrop 1

/-- Split a run of bytes at line boundaries: line number, bytes of the line, and mask; `n` bounds the pieces. -/
def splitLines : Nat → Nat → List Byte → List (Nat × Line × BitVec 128)
  | 0, _, _ => []
  | n + 1, a, bs =>
    match bs with
    | [] => []
    | bs =>
      let lo := a % 128
      let h := bs.take (128 - lo)
      (a / 128, BitVec.ofNat 1024 (leNat h <<< (8 * lo)), spanMask lo h.length) ::
        splitLines n (128 * (a / 128) + 128) (bs.drop (128 - lo))

/-- A posted write of a Square unit in a context (rings of records): none where it would fault or be
refused. -/
def State.squareWrite (s : State) (ctx va : Nat) (bs : List Byte) : Option State :=
  (splitLines (bs.length / 128 + 2) va bs).foldl (fun os p =>
    match os with
    | none => none
    | some s =>
      match s.translate .square ctx (128 * p.1) needWrite with
      | (_, .fault _ _) => none
      | (s1, .host a) => some (s1.hostWrite a ((List.range 128).map fun i =>
          if p.2.2.getLsbD i then some (BitVec.ofNat 8 (lineNat p.2.1 i 1)) else none))
      | (s1, .mem pa) =>
        match s1.homeWrite ctx (pa / 128) p.2.1 p.2.2 with
        | (s2, true) => some s2
        | (_, false) => none) (some s)

end Sys2Proof.Machine
end

