-- ==== Sys2Proof/Machine/Link.lean ====
section
/-! DEFINITION. Frames of the pod transport and their delivery: CRC-32C (01_package_organisation.md R34), headers,
the state kept for each peer, the retransmit pool, acknowledgements, muster messages and the ABORT of a failed job
(15_pod_transport.md R455 to R472; 16_collectives_muster.md R495, R497; 19_faults_and_errors.md R547). -/

namespace Sys2Proof.Machine

/-! ### CRC-32C -/

/-- `n` bits of a reflected CRC. -/
def crcBits (poly : Nat) : Nat → Nat → Nat
  | 0, c => c
  | n + 1, c => crcBits poly n (if c % 2 = 1 then (c / 2) ^^^ poly else c / 2)

/-- A reflected 32-bit CRC of bytes in ascending order, from all ones and inverted. -/
def crc32 (poly : Nat) (bs : List Byte) : Nat :=
  bs.foldl (fun c b => crcBits poly 8 (c ^^^ b.toNat)) 0xFFFFFFFF ^^^ 0xFFFFFFFF

/-- R34: CRC-32C of bytes in ascending order. -/
def crc32c (bs : List Byte) : Nat := crc32 0x82F63B78 bs

/-- The Ethernet FCS of a frame's bytes, low byte first on the wire (R459; PRESUMED: IEEE 802.3, log 131). -/
def etherFcs (bs : List Byte) : List Byte := leBytes 4 (crc32 0xEDB88320 bs)

/-! ### Headers (Tables 15.2 and 15.3) -/

def tData : Nat := 1
def tRead : Nat := 2
def tBell : Nat := 3
def tAck : Nat := 4
def tHold : Nat := 5
def tRefuse : Nat := 6

/-- Header bytes 0x00 to 0x3B. -/
def headerBytes (type flags src dst len job psn msg stamp va aux : Nat) : List Byte :=
  leBytes 1 (16 + type) ++ leBytes 1 flags ++ leBytes 2 src ++ leBytes 2 dst ++ leBytes 2 len ++ leBytes 4 job ++
    leBytes 4 psn ++ leBytes 4 msg ++ leBytes 4 stamp ++ leBytes 8 va ++ leBytes 8 aux ++ leBytes 20 0

end Sys2Proof.Machine

namespace Sys2Proof

/-- A field of an arriving header: `n` bytes at an offset. -/
def Frame.hdr (f : Frame) (off n : Nat) : Nat := Machine.leNat (Machine.takePad 0 n (f.header.drop off))

def Frame.type (f : Frame) : Nat := f.hdr 0 1 % 16
def Frame.src (f : Frame) : Nat := f.hdr 2 2
def Frame.len (f : Frame) : Nat := f.hdr 6 2
def Frame.job (f : Frame) : Nat := f.hdr 8 4
def Frame.psn (f : Frame) : Nat := f.hdr 0xC 4
def Frame.msg (f : Frame) : Nat := f.hdr 0x10 4
def Frame.stamp (f : Frame) : Nat := f.hdr 0x14 4
def Frame.va (f : Frame) : Nat := f.hdr 0x18 8
def Frame.aux (f : Frame) : Nat := f.hdr 0x20 8

end Sys2Proof

namespace Sys2Proof.Machine

/-- R455: the MAC address of port `p` of node `n`. -/
def macBytes (domain p n : Nat) : List Byte :=
  [2, BitVec.ofNat 8 domain, 0, BitVec.ofNat 8 p, BitVec.ofNat 8 (n / 256), BitVec.ofNat 8 n]

/-- R455: the Ethernet header and tag of a frame. -/
def State.etherBytes (s : State) (p peer : Nat) : List Byte :=
  let domain := s.rf .podNode .domain
  let tci := s.rf .podCfg .pcp * 2 ^ 13 + s.rf .podCfg .vid
  macBytes domain p peer ++ macBytes domain p (s.rf .podNode .nodeId) ++
    (if s.rbit .podCfg .vlanEn then [0x81, 0x00, BitVec.ofNat 8 (tci / 256), BitVec.ofNat 8 tci] else []) ++ [0x88, 0xB5]

/-! ### Ports and peers -/

/-- A port is up (R453). -/
def State.portUp (s : State) (p : Nat) : Bool := s.rbit (.podPortStatus p) .up

/-- The ports that are up. -/
def State.upPorts (s : State) : List Nat := (List.range 6).filter s.portUp

/-- A peer met for the first time (R465, R467); the first PSN is 0 (log 7). -/
def Peer.fresh (mask : List Nat) : Peer :=
  ⟨0, 256, 0, mask, [], 0, [], [], 2 ^ 32 - 1, [], 0, false, 0, 0, 0⟩

/-- The state kept for a node. -/
def State.peer (s : State) (n : Nat) : Peer := (Table.find s.pod.peers n).getD (Peer.fresh s.upPorts)

/-- Set the state kept for a node. -/
def State.setPeer (s : State) (n : Nat) (p : Peer) : State :=
  { s with pod := { s.pod with peers := Table.insert s.pod.peers n p } }

/-- Frames in the pool of R466. -/
def State.poolCount (s : State) : Nat := s.pod.peers.foldl (fun a e => a + e.2.pool.length) 0

/-- R465: the next port of a peer's mask, round-robin; an empty mask is refilled. -/
def State.pickPort (s : State) (p : Peer) : Option (Nat × Peer) :=
  let mask := if p.mask.any s.portUp then p.mask else s.upPorts
  let usable := mask.filter s.portUp
  match usable.find? (fun x => decide (p.rr ≤ x)) with
  | some x => some (x, { p with mask := mask, rr := x + 1 })
  | none =>
    match usable with
    | x :: _ => some (x, { p with mask := mask, rr := x + 1 })
    | [] => none

/-- R459: put a frame with its FCS on a port; none leaves while VALID of POD_NODE is 0 or the port is down. -/
def State.emitFrame (s : State) (port peer : Nat) (hdr payload : List Byte) : State :=
  if !s.rbit .podNode .valid || !s.portUp port then s
  else
    let bs := s.etherBytes port peer ++ hdr ++ leBytes 4 (crc32c (hdr ++ payload)) ++ payload
    (({ s with outbox := s.outbox ++ [Out.frame port (bs ++ etherFcs bs)] }).wrapRf (.podPortFrames port) .tx 1).countPkg 9 port 63 1

/-- Put a sequenced frame on a port. -/
def State.emitBody (s : State) (port peer psn flags : Nat) (b : Body) : State :=
  let hdr := headerBytes b.type flags (s.rf .podNode .nodeId) peer b.len b.job psn b.msg (s.time % 2 ^ 32) b.va b.aux
  let s1 := s.emitFrame port peer hdr b.payload
  match b.owner with
  | .coll e _ => s1.countPkg 13 e b.ctx b.payload.length
  | _ => s1

/-- Put an unsequenced frame for a peer on a port, or on another that is up. -/
def State.emitPlain (s : State) (port peer type psn job stamp : Nat) (payload : List Byte) : State :=
  let p := if s.portUp port then port else s.upPorts.headD port
  s.emitFrame p peer (headerBytes type 0 (s.rf .podNode .nodeId) peer payload.length job psn 0 stamp 0 0) payload

/-! ### Receiving (R462, R463) -/

/-- The distance of a PSN above the cumulative one. -/
def Peer.above (p : Peer) (psn : Nat) : Nat := (psn + 2 ^ 32 - p.rxC) % 2 ^ 32

/-- Take the PSNs that follow the cumulative one; `n` bounds them. -/
def Peer.absorb : Nat → Peer → Peer
  | 0, p => p
  | n + 1, p =>
    let c := (p.rxC + 1) % 2 ^ 32
    if p.rxGot.contains c then Peer.absorb n { p with rxC := c, rxGot := p.rxGot.filter fun x => x != c } else p

/-- R463: an ACK: the cumulative PSN, the bitmap of PSNs above it, the stamp echoed. -/
def State.sendAck (s : State) (n : Nat) : State :=
  let p := s.peer n
  let map := p.rxGot.foldl (fun a x => a + 2 ^ (p.above x - 1)) 0
  (s.setPeer n { p with ackDue := false }).emitPlain p.port n tAck p.rxC p.job p.stamp (leBytes 512 map)

/-- R463: mark a frame received; an ACK leaves after every 16, whose count runs on past other ACKs, and at once above a
gap. -/
def State.markRx (s : State) (n psn : Nat) : State :=
  let p := s.peer n
  let gap := p.above psn != 1
  let p1 := Peer.absorb 4097 { p with rxGot := psn :: p.rxGot, marked := (p.marked + 1) % 16, ackDue := true }
  let s1 := s.setPeer n p1
  if gap || p1.marked == 0 then s1.sendAck n else s1

/-! ### Sending (R461, R464 to R467) -/

/-- Give PSNs to waiting frames of a peer while the window and the pool have room (R461, R466); `n` bounds them.
A READ is marked received once its answer holds a PSN (R463). -/
def State.podFlush : Nat → State → Nat → State
  | 0, s, _ => s
  | k + 1, s, n =>
    let p := s.peer n
    match p.backlog with
    | [] => s
    | b :: rest =>
      if !s.rbit .podNode .valid || decide (min p.cwnd (s.rf .podCfg .window) ≤ p.pool.length) ||
          decide (32768 ≤ s.poolCount) then s
      else
        match s.pickPort p with
        | none => s
        | some (port, p1) =>
          let psn := p.nextPsn
          let s1 := (s.setPeer n { p1 with
            backlog := rest, nextPsn := (psn + 1) % 2 ^ 32
            pool := p1.pool ++ [⟨psn, b, some port, 0, false, (psn + 1) % 2 ^ 32⟩] }).emitBody port n psn 0 b
          let s2 := match b.owner with
            | .answer rp => s1.markRx n rp
            | _ => s1
          State.podFlush k s2 n

/-- Let waiting frames of one peer go. -/
def State.flushPeer (s : State) (n : Nat) : State := s.podFlush (s.peer n).backlog.length n

/-- Let waiting frames of every peer go. -/
def State.flushAll (s : State) : State := s.pod.peers.foldl (fun s e => s.flushPeer e.1) s

/-- Queue a sequenced frame to a node. -/
def State.podSend (s : State) (n : Nat) (b : Body) : State :=
  let p := s.peer n
  (s.setPeer n { p with backlog := p.backlog ++ [b] }).flushPeer n

/-- Send a frame of the pool again, on the next port of the mask. -/
def State.resend (s : State) (n psn : Nat) : State :=
  let p := s.peer n
  match p.pool.find? (fun f => f.psn == psn) with
  | none => s
  | some f =>
    match s.pickPort p with
    | none => s.setPeer n { p with pool := p.pool.map fun g => if g.psn = psn then { g with port := none } else g }
    | some (port, p1) =>
      let s1 := s.setPeer n { p1 with pool := p1.pool.map fun g =>
        if g.psn = psn then { g with port := some port, resends := g.resends + 1, mark := p1.nextPsn } else g }
      ((s1.emitBody port n psn 1 f.body).satRf .podXstat .retransmits 1).countPkg 10 port 63 1

/-! ### Ranks (R457, R458) -/

/-- A context has a valid binding. -/
def State.bound (s : State) (ctx : Nat) : Bool := s.rbit (.podCtxJob ctx) .valid

/-- The node of a rank: entry `r` of the rank table in device memory. -/
def State.rankNode (s : State) (ctx r : Nat) : Nat :=
  let a := s.rf (.podCtxMap ctx) .table * 32 + 2 * r
  lineNat (s.homeRead 0 (a / 128)).1 (a % 128) 2

/-- A new message number. -/
def State.takeMsg (s : State) : State × Nat :=
  ({ s with pod := { s.pod with nextMsg := (s.pod.nextMsg + 1) % 2 ^ 32 } }, s.pod.nextMsg)

/-! ### Muster messages (Table 16.8) -/

def mReady : Nat := 1
def mAck : Nat := 2
def mGo : Nat := 3
def mAbort : Nat := 4
def mPulse : Nat := 5

def reasonOk : Nat := 0
def reasonTimeout : Nat := 1
def reasonMismatch : Nat := 2
def reasonRefused : Nat := 3
def reasonPeerLost : Nat := 4
def reasonGoRefused : Nat := 5
def reasonJobFailed : Nat := 6

/-- The 128 bytes of a muster message. -/
def musterBytes (mtype reason epoch rank acked : Nat) (digest : List Byte) : List Byte :=
  leBytes 1 mtype ++ leBytes 1 reason ++ leBytes 2 0 ++ leBytes 4 epoch ++ leBytes 4 rank ++ leBytes 4 acked ++
    leBytes 48 0 ++ takePad 0 64 digest

/-- Nothing of a muster yet. -/
def Muster.none : Muster := ⟨.unmustered, Option.none, 0, [], Option.none, [], false⟩

/-- A context's muster. -/
def State.muster (s : State) (ctx : Nat) : Muster := Table.get .none s.pod.musters ctx

/-- Set a context's muster. -/
def State.setMuster (s : State) (ctx : Nat) (m : Muster) : State :=
  { s with pod := { s.pod with musters := Table.set .none s.pod.musters ctx m } }

/-- Send a muster message to a rank (R497). -/
def State.musterSend (s : State) (ctx rank mtype reason epoch named acked : Nat) (digest : List Byte) : State :=
  let m := s.takeMsg
  m.1.podSend (s.rankNode ctx rank)
    ⟨tData, s.rf (.podCtxJob ctx) .jobId, m.2, 0xA000000000000000, 0, 128, ctx, .muster mtype,
      musterBytes mtype reason epoch named acked digest⟩

/-- Every other rank of a binding. -/
def State.otherRanks (s : State) (ctx : Nat) : List Nat :=
  (List.range (s.rf (.podCtxJob ctx) .ranks)).filter fun r => r != s.rf (.podCtxMap ctx) .myRank

/-- Send ABORT to every other rank (R495, R499). -/
def State.sendAborts (s : State) (ctx reason named : Nat) : State :=
  (s.otherRanks ctx).foldl (fun s r => s.musterSend ctx r mAbort reason (s.muster ctx).epoch named 0 []) s

/-- R495: the context of a job failed: ABORT with JOB_FAILED to every other rank. -/
def State.abortJob (s : State) (ctx : Nat) : State :=
  if s.bound ctx then s.sendAborts ctx reasonJobFailed (s.rf (.podCtxMap ctx) .myRank) else s

/-! ### The end of a context's transfers (R547, R472) -/

/-- ACTIVE of each engine: contexts with an active collective. -/
def State.showColl (s : State) : State :=
  (List.range 4).foldl (fun s e =>
    s.setRf (.podCollStat e) .active (s.pod.colls.filter fun c => c.engine == e).length) s

/-- A frame that has no PSN yet and belongs to the work of a context. -/
def Body.work (b : Body) (ctx : Nat) : Bool :=
  b.ctx == ctx && (match b.owner with
    | .put _ _ => true
    | .get _ _ => true
    | .bell => true
    | .coll _ _ => true
    | _ => false)

/-- The transfers and collectives of a context end: what holds no PSN yet is discarded, and frames that wait for
a translation of the context are refused. -/
def State.dropCollectives (s : State) (ctx : Nat) : State :=
  let mine := s.pod.held.filter fun h => h.ctx == ctx
  let s1 : State := { s with pod := { s.pod with
    colls := s.pod.colls.filter fun c => c.ctx != ctx
    credits := s.pod.credits.filter fun c => c.ctx != ctx
    bells := s.pod.bells.filter fun b => b.body.ctx != ctx
    gets := s.pod.gets.filter fun g => g.ctx != ctx
    held := s.pod.held.filter fun h => h.ctx != ctx
    peers := s.pod.peers.map fun (e : Nat × Peer) =>
      (e.1, { e.2 with backlog := e.2.backlog.filter fun b => !b.work ctx }) } }
  (mine.foldl (fun s h => s.emitPlain h.port h.peer tRefuse h.psn h.job 0 []) s1).showColl

end Sys2Proof.Machine
end

