-- ==== Sys2Proof/Machine/Faults.lean ====
section
/-! DEFINITION. Faults and errors (19_faults_and_errors.md): codes, error records, the failure of a context,
cluster hardware faults, package-fatal errors, and translation faults (09_ranges_translation.md R310 to R315). -/

namespace Sys2Proof.Machine

/-! ### Codes (19_faults_and_errors.md Table 19.2) -/

def Code.illegalInstr : Nat := 0x0101
def Code.regRange : Nat := 0x0102
def Code.strictClass : Nat := 0x0103
def Code.handleRange : Nat := 0x0104
def Code.tokenMix : Nat := 0x0105
def Code.descAlign : Nat := 0x0106
def Code.bellRange : Nat := 0x0107
def Code.callDepth : Nat := 0x0108
def Code.barDiverged : Nat := 0x0109
def Code.addrForm : Nat := 0x010A
def Code.maskDepth : Nat := 0x010B
def Code.partyShape : Nat := 0x010C
def Code.lsBounds : Nat := 0x010D
def Code.atomicAlign : Nat := 0x010E
def Code.tallyAlign : Nat := 0x010F
def Code.lockOwner : Nat := 0x0110
def Code.ropeLivelock : Nat := 0x0111
def Code.bellOwner : Nat := 0x0112
def Code.formatMix : Nat := 0x0201
def Code.panelForm : Nat := 0x0202
def Code.kRange : Nat := 0x0203
def Code.splitkAlign : Nat := 0x0204
def Code.accState : Nat := 0x0205
def Code.accSlots : Nat := 0x0206
def Code.mmaPiece : Nat := 0x0207
def Code.operandBounds : Nat := 0x0208
def Code.pageMap : Nat := 0x0209
def Code.recipeMode : Nat := 0x020A
def Code.mxShape : Nat := 0x020B
def Code.mxTileAlign : Nat := 0x020C
def Code.ledgerRange : Nat := 0x020D
def Code.partialForm : Nat := 0x020E
def Code.descForm : Nat := 0x0301
def Code.descType : Nat := 0x0302
def Code.descShape : Nat := 0x0303
def Code.descAlias : Nat := 0x0304
def Code.descOverlap : Nat := 0x0305
def Code.frameOwner : Nat := 0x0401
def Code.xltFatal : Nat := 0x0402
def Code.poison : Nat := 0x0403
def Code.rankRange : Nat := 0x0501
def Code.peerRefused : Nat := 0x0502
def Code.peerLost : Nat := 0x0503
def Code.collMismatch : Nat := 0x0504
def Code.jobAborted : Nat := 0x0505
def Code.musterAbort : Nat := 0x0506
def Code.musterTimeout : Nat := 0x0507
def Code.runtimeStop : Nat := 0x0601
def Code.clusterHalted : Nat := 0x0602
def Code.memCe : Nat := 0x0701
def Code.memUe : Nat := 0x0702
def Code.cacheCe : Nat := 0x0703
def Code.cacheUe : Nat := 0x0704
def Code.dirCe : Nat := 0x0705
def Code.hostEpWrite : Nat := 0x0706
def Code.apertureRdFail : Nat := 0x0707
def Code.clusterCe : Nat := 0x0708
def Code.runtimeStall : Nat := 0x0709
def Code.accUncorr : Nat := 0x0801
def Code.shadowHard : Nat := 0x0802
def Code.clusterUncorr : Nat := 0x0803
def Code.hostRetire : Nat := 0x0804
def Code.d2dWireFail : Nat := 0x0901
def Code.lockLost : Nat := 0x0902
def Code.cacheTag : Nat := 0x0903
def Code.dirUncorr : Nat := 0x0904
def Code.hbmLink : Nat := 0x0905
def Code.hbmOvertemp : Nat := 0x0906
def Code.coreParity : Nat := 0x0907
def Code.reeveWdt : Nat := 0x0908

/-- R544: a code that arises from the program and its data. -/
def codeRepeats (c : Nat) : Bool :=
  (0x101 ≤ c && c ≤ 0x110) || c == 0x112 || (0x201 ≤ c && c ≤ 0x305) || c == 0x401 || c == 0x501 || c == 0x504

/-! ### Error records (R558, Table 19.5) -/

/-- What an error record says beside its code, class and context; the defaults are "none". -/
structure ErrInfo where
  addr : Nat := 0
  addrKind : Nat := 0
  detail : Nat := 0
  logical : Nat := 0x3FF
  phys : Nat := 0xFF
  die : Nat := 7
  stack : Nat := 31
  agent : Nat := 0
  unit : Nat := 0
  deriving DecidableEq, Repr

/-- The physical cluster of a logical cluster (01 Table 1.15). -/
def State.physOf (s : State) (c : Nat) : Nat := bits (s.reg (.glbPhysMap (c / 8))).toNat (8 * (c % 8)) 8

/-- The fields that name a logical cluster and an agent of it. -/
def State.clusterInfo (s : State) (c agent unit addr addrKind detail : Nat) : ErrInfo :=
  { addr := addr, addrKind := addrKind, detail := detail, logical := c, phys := s.physOf c, die := c / 176,
    agent := agent, unit := unit }

/-- The 512 bits of an error record. -/
def errRecordBits (time : Nat) (i : ErrInfo) (seq code cls ctx : Nat) : Nat :=
  time % 2 ^ 64 * 2 ^ 448 + i.addr % 2 ^ 64 * 2 ^ 384 + i.detail % 2 ^ 64 * 2 ^ 320 + seq % 2 ^ 32 * 2 ^ 288 +
    code * 2 ^ 272 + cls * 2 ^ 269 + i.addrKind * 2 ^ 267 + bval (codeRepeats code) * 2 ^ 266 + ctx * 2 ^ 250 +
    i.logical * 2 ^ 240 + i.phys * 2 ^ 232 + i.die * 2 ^ 229 + i.stack * 2 ^ 224 + i.agent * 2 ^ 222 +
    i.unit * 2 ^ 210

/-- Write a record into a ring of device memory in context 0: slot PRODUCER mod size; a full ring or a fault drops
it (03 R104, 19 R558, 20 R566). -/
def State.ringPut (s : State) (ring ptr : Reg) (bytes : List Byte) : State × Bool :=
  let size := 2 ^ (s.rf ring .sizeLog2 + 6)
  let prod := s.rf ptr .producer
  if (prod + 2 ^ 22 - s.rf ptr .consumer) % 2 ^ 22 = size then (s.satRf ptr .dropped 1, false)
  else
    match s.squareWrite 0 (s.rf ring .base * 256 + 64 * (prod % size)) bytes with
    | none => (s.satRf ptr .dropped 1, false)
    | some s1 => (s1.wrapRf ptr .producer 1, true)

/-- R558: produce an error record: it takes the next SEQ, and is written, or dropped on a full ring or a fault
of the ring. A class 0 record is produced only while LOG_CE is set. Answers the SEQ it took. -/
def State.errRecord (s : State) (i : ErrInfo) (code cls ctx : Nat) : State × Nat :=
  if s.fatal || (cls == 0 && !s.rbit .fltErrCtl .logCe) then (s, s.errSeq)
  else
    let seq := s.errSeq
    let s1 := { s with errSeq := (seq + 1) % 2 ^ 32 }
    let r := s1.ringPut .fltErrRing .fltErrPtr (leBytes 64 (errRecordBits s1.time i seq code cls ctx))
    (if r.2 && r.1.rbit .fltErrCtl .irqEn then r.1.msix (r.1.rf .fltErrCtl .vecErr) else r.1, seq)

/-- Count one consumption of poison (R546). -/
def State.countConsumed (s : State) : State := s.satRf .fltErrStat .consumed 1

/-- An aperture read fails (12 R392): RD_FAIL, and a class 1 record with its host address. -/
def State.apertureFail (s : State) (i : ErrInfo) (ctx addr : Nat) : State :=
  ((s.satRf .hqLinkDrop .rdFail 1).errRecord { i with addr := addr, addrKind := 3 } Code.apertureRdFail 1 ctx).1

/-! ### Ending a context's work (R547, 13 R420) -/

/-- Remove the parties, ropes, queued operations and waiting parties of a context from a cluster; `gone` tells
which launches are the context's. -/
def Cluster.dropCtx (k : Cluster) (ctx : Nat) (gone : Nat → Bool) : Cluster :=
  let dead := fun n => match Table.find k.parties n with
    | some p => p.par.ctx == ctx
    | none => false
  { k with
    waiting := k.waiting.filter fun w => !gone w.1
    parties := k.parties.filter fun e => e.2.par.ctx != ctx
    ropes := k.ropes.filter fun e => !dead e.2.party
    te := { k.te with
      accs := k.te.accs.filter fun e => e.2.ctx != ctx
      handles := k.te.handles.filter fun e => !dead (e.1 / 16)
      queue := k.te.queue.filter fun o => o.ctx != ctx
      stall := match k.te.stall with
        | some (c, b) => if c = ctx then none else some (c, b)
        | none => none }
    haul := { k.haul with
      queue := k.haul.queue.filter fun o => o.ctx != ctx
      stall := match k.haul.stall with
        | some (c, b) => if c = ctx then none else some (c, b)
        | none => none } }

/-- A command has started and not completed (13 R428). -/
def CmdState.started : CmdState → Bool
  | .waiting _ => true
  | .running => true
  | _ => false

/-- A queue's default processor state. -/
def Queue.empty : Queue := ⟨0, [], none, none⟩

/-- A submission queue. -/
def State.queue (s : State) (n : Nat) : Queue := Table.get .empty s.queues n

/-- Set a submission queue. -/
def State.setQueue (s : State) (n : Nat) (q : Queue) : State :=
  { s with queues := Table.set .empty s.queues n q }

/-- Queue states (13 Table 13.11). -/
def qDisabled : Nat := 0
def qRun : Nat := 1
def qStopped : Nat := 2
def qCtxFailed : Nat := 3
def qDraining : Nat := 4

/-- What a started command waits for (WAIT_KIND of Table 13.11). -/
def waitWindow : Nat := 1
def waitBell : Nat := 2
def waitInv : Nat := 3
def waitRing : Nat := 4

/-- WAIT_KIND shows what the oldest waiting command of a queue waits for. -/
def State.showWait (s : State) (n : Nat) : State :=
  let kind := ((s.queue n).cmds.findSome? fun c => match c.state with
    | .waiting k => some k
    | .full _ _ _ => some waitRing
    | _ => none).getD 0
  s.setRf (.hqSqStatus n) .waitKind kind

/-- The fetched commands of a queue after its context failed with a code: started ones end with CTX_FAILED,
the others are not run (13 R428). -/
def failCmds (code : Nat) (l : List Cmd) : List Cmd :=
  l.filterMap fun c =>
    match c.state with
    | .fetched => none
    | .finished _ _ _ => some c
    | .full _ _ _ => some c
    | _ => some { c with state := .finished 7 0 (BitVec.ofNat 64 code) }

/-- R428: every queue of a failed context enters CTX_FAILED, one that drains too; it stays there until its owner
disables it. -/
def State.failQueues (s : State) (ctx code : Nat) : State :=
  (List.range 256).foldl (fun s n =>
    if s.rf (.hqSqStatus n) .state ≠ qDisabled ∧ s.rf (.hqSqCtrl n) .ctx = ctx then
      let q := s.queue n
      (((s.setQueue n { q with cmds := failCmds code q.cmds, heldRec := none, stall := none }).setRf
        (.hqSqStatus n) .state qCtxFailed).setRf (.hqSqStatus n) .sealWait 0).showWait n
    else s) s

/-- R315: a context's open records are cleared and freed, and its held faults discarded. -/
def State.dropXlt (s : State) (ctx : Nat) : State :=
  { s with xlt := { s.xlt with
    recs := s.xlt.recs.filter fun e => e.2.ctx != ctx
    held := s.xlt.held.filter fun h => h.ctx != ctx } }

/-- A cluster writes a context's dirty L1 bytes to their homes; one that a home refuses is a later fault of the
context. -/
def State.cleanCtx (s : State) (c ctx : Nat) : State :=
  let k := s.cluster c
  let mine := k.l1.filter fun l => l.ctx == ctx && l.dirty != 0
  let s1 := s.setCluster c { k with l1 := k.l1.map fun l => if l.ctx = ctx then { l with dirty := 0 } else l }
  (mine.foldl (fun s l =>
    match s.homeWrite ctx l.pa l.data l.dirty with
    | (s2, true) => s2
    | (_, false) => s.satRf (.fltCtxState ctx) .faults 1) s1).countCl c 6 ctx mine.length

/-- The parties, ropes, engine operations, launches, collectives and translation records of a context end
(R547 steps 2 to 4; 13 R420). Each cluster that held a party of it first cleans its lines (R548, 07 R234; log 42). -/
def State.endCtxWork (s0 : State) (ctx : Nat) : State :=
  let s := s0.clusters.foldl (fun s e =>
    if e.2.parties.any fun p => p.2.par.ctx == ctx then s.cleanCtx e.1 ctx else s) s0
  let gone := fun l => match Table.find s.launches l with
    | some x => x.par.ctx == ctx
    | none => false
  let s1 := s.mapClusters fun _ k => k.dropCtx ctx gone
  let s2 := { s1 with
    launches := s1.launches.filter fun e => e.2.par.ctx != ctx
    pcie := { s1.pcie with apReads := s1.pcie.apReads.filter fun r =>
      match r.2 with
      | .rope c slot _ => (Table.find (s1.cluster c).ropes slot).isSome
      | .core _ _ _ => true } }
  (s2.dropCollectives ctx).dropXlt ctx

/-- R547: context `ctx` fails with a code. `known` is the record of a cluster hardware fault that serves it;
otherwise the context writes a record of its own. -/
def State.ctxFail (s : State) (ctx code : Nat) (i : ErrInfo) (known : Option Nat) : State :=
  if (Table.find s.ctxs ctx).isNone then s
  else if s.rbit (.fltCtxState ctx) .failed then s.satRf (.fltCtxState ctx) .faults 1
  else
    let r := match known with
      | some seq => (s, seq)
      | none => s.errRecord i code 2 ctx
    let cls := if known.isSome then 3 else 2
    let v := 2 ^ 63 + cls * 2 ^ 60 + code * 2 ^ 32 + r.2 % 2 ^ 16
    let s1 := (r.1.setReg (.fltCtxState ctx) (BitVec.ofNat 64 v)).setReg (.fltCtxAddr ctx) (BitVec.ofNat 64 i.addr)
    let s2 := (s1.wrapRf .fltErrStat .ctxFailures 1).failQueues ctx code
    (s2.endCtxWork ctx).abortJob ctx

/-- R176, R221, R280: a rope's fault halts it and fails its context; DETAIL holds the instruction's PC. -/
def State.ropeFault (s : State) (c slot ctx : Nat) (pc : Word) (code addr addrKind : Nat) : State :=
  s.ctxFail ctx code (s.clusterInfo c 0 slot addr addrKind pc.toNat) none

/-- A fault an engine of a cluster finds: 0 the tensor engine, 1 the Haul engine. -/
def State.engineFault (s : State) (c unit ctx code addr addrKind : Nat) : State :=
  s.ctxFail ctx code (s.clusterInfo c 1 unit addr addrKind 0) none

/-! ### Cluster hardware faults (R552) -/

/-- HEALTH becomes RETIREMENT_PENDING (1), unless a replacement is already due. -/
def State.retirePending (s : State) : State :=
  if s.rf .bootStatus .health = 2 then s else s.setRf .bootStatus .health 1

/-- A retirement entry (01 Table 1.10). -/
def retireEntry (reason phys : Nat) : Nat :=
  let hi := 8 + reason
  hi * 2 ^ 12 + phys * 16 + ((hi ^^^ phys / 16) ^^^ phys % 16)

/-- The REASON of a cluster hardware fault. -/
def retireReason (code : Nat) : Nat :=
  if code = Code.shadowHard then 2 else if code = Code.hostRetire then 3 else 0

/-- GLB_SPARE_CDn shows the fused entries. -/
def State.showSpares (s : State) : State :=
  (List.range 4).foldl (fun s d =>
    s.setReg (.glbSpareCd d) (BitVec.ofNat 64 ((List.range 4).foldl (fun a e =>
      a + Table.get 0 s.fuses.entries (4 * d + e) * 2 ^ (16 * e)) 0))) s

/-- The lowest unwritten entry of a die. -/
def State.freeEntry (s : State) (d : Nat) : Option Nat :=
  (List.range 4).find? fun e => !bit (Table.get 0 s.fuses.entries (4 * d + e)) 15

/-- CHECK of an entry matches (01 Table 1.10). -/
def entryCheckOk (entry : Nat) : Bool := bits entry 0 4 == (bits entry 12 4 ^^^ bits entry 8 4) ^^^ bits entry 4 4

/-- 01 R48: the entry is written into the die's lowest unwritten place and read back, and into the next one where CHECK
does not match; with all four written the package is due for replacement (01 R51). -/
def State.writeEntryTries : Nat → State → Nat → Nat → State
  | 0, s, _, _ => s.setRf .bootStatus .health 2
  | n + 1, s, d, entry =>
    match s.freeEntry d with
    | none => s.setRf .bootStatus .health 2
    | some e =>
      let got := ((Table.find s.fuses.weak (4 * d + e)).getD entry) ||| 2 ^ 15
      let s1 := ({ s with fuses := { s.fuses with entries := Table.set 0 s.fuses.entries (4 * d + e) got } }).showSpares
      if entryCheckOk got then s1 else s1.writeEntryTries n d entry

/-- 01 R48: the firmware writes an entry for a physical cluster of a die. -/
def State.writeEntry (s : State) (d phys reason : Nat) : State := s.writeEntryTries 4 d (retireEntry reason phys)

/-- R552: a logical cluster halts with a cause: its contents are lost, one class 3 record is written, and
every context with a party resident on it fails (and those of `also`). A retirement entry is written for its
physical cluster. -/
def State.clusterFail (s : State) (c code : Nat) (also : List Nat := []) : State :=
  if s.clusterHalted c then s
  else
    let k := s.cluster c
    let ctxs := k.parties.foldl (fun l e => setInsert l e.2.par.ctx) also
    let i := s.clusterInfo c 0 0 0 0 0
    let r := s.errRecord i code 3 63
    let s1 := r.1.setReg (.fltHalted (c / 64)) (r.1.reg (.fltHalted (c / 64)) ||| BitVec.ofNat 64 (2 ^ (c % 64)))
    let te := { TensorEngine.idle with tiles := k.te.tiles, ops := k.te.ops }
    let s2 := s1.setCluster c { Cluster.idle with split := k.split, waiting := k.waiting, rc := k.rc, te := te }
    let s3 := s2.retirePending.writeEntry (c / 176) (s.physOf c) (retireReason code)
    ctxs.foldl (fun s x => s.ctxFail x code i (some r.2)) s3

/-- A corrected cluster SRAM error writes a class 0 record while LOG_CE is set (19 Table 19.1). -/
def State.clusterCe (s : State) (c : Nat) : State :=
  (s.errRecord (s.clusterInfo c 0 0 0 0 0) Code.clusterCe 0 63).1

/-! ### Package-fatal errors (R555, R556) -/

/-- R544, R556: a context fails with the package: no record, and no completion follows. -/
def State.ctxLost (s : State) (ctx code : Nat) : State :=
  if s.rbit (.fltCtxState ctx) .failed then s
  else
    let s1 := s.setReg (.fltCtxState ctx) (BitVec.ofNat 64 (2 ^ 63 + 4 * 2 ^ 60 + code * 2 ^ 32))
    ((s1.setReg (.fltCtxAddr ctx) 0).wrapRf .fltErrStat .ctxFailures 1).failQueues ctx code

/-- R556: latch the first package-fatal error, send VEC_FATAL, fail every context, and stop the package. -/
def State.packageFatal (s : State) (code whereCode : Nat) : State :=
  if s.fatal then s
  else
    let s1 := s.setReg .fltFatal (BitVec.ofNat 64 (2 ^ 63 + code * 2 ^ 32 + whereCode))
    s1.ctxs.foldl (fun s e => s.ctxLost e.1 code) (s1.msix (s1.rf .fltErrCtl .vecFatal))

/-! ### Translation faults (09 R310 to R313) -/

/-- The number of an agent in the admission order of R312: ropes, cluster engines, queues, other units. -/
def agentNumber : XltAgent → Nat
  | .rope c slot => 64 * c + slot
  | .tensor c => 45056 + 2 * c
  | .haul c => 45056 + 2 * c + 1
  | .cmdProc q => 46464 + q
  | .coll e => 46720 + e
  | .port p => 46724 + p

/-- The 64 KiB block of an address (R310). -/
def blockOf (va : Nat) : Nat := va / 65536 % 2 ^ 40

/-- R311: join the open record of the fault's context and block, or take the lowest free slot; none where
neither can be. -/
def State.admitFault (s : State) (h : HeldFault) : Option State :=
  match s.xlt.recs.find? fun e => e.2.ctx == h.ctx && blockOf e.2.va == blockOf h.va with
  | some (n, r) =>
    let r' := { r with waiters := min (r.waiters + 1) 0xFFFF, access := r.access ||| h.access }
    some { s with xlt := { s.xlt with recs := Table.insert s.xlt.recs n r' } }
  | none =>
    match Table.firstFree s.xlt.recs 0 256 with
    | none => none
    | some n =>
      let r : XfRec := ⟨s.xlt.seq, h.agent, 1, h.access, h.cause, h.ctx, h.va, h.entry⟩
      let s1 := { s with xlt := { s.xlt with recs := Table.insert s.xlt.recs n r, seq := (s.xlt.seq + 1) % 2 ^ 32 } }
      some (s1.setReg (.fltXfNew (n / 64)) (s1.reg (.fltXfNew (n / 64)) ||| BitVec.ofNat 64 (2 ^ (n % 64))))

/-- R310 to R312: a translation fault joins or opens a record, or is held in its agent's one fault register. A port
whose register is taken raises the fault of a further frame after that one is admitted (log 137). -/
def State.xltFault (s : State) (h : HeldFault) : State :=
  match s.admitFault h with
  | some s1 => s1
  | none =>
    if s.xlt.held.any fun x => x.agent == h.agent then s else
    ({ s with xlt := { s.xlt with held := s.xlt.held ++ [h] } }).satRf .fltXfStat .ovf 1

/-- The end of a stall on a context and block. -/
def unstall (x : Nat × Nat) (st : Option (Nat × Nat)) : Option (Nat × Nat) :=
  if st = some x then none else st

/-- R313: every agent that waits for a context and block may translate again. -/
def State.resumeAgents (s : State) (ctx block : Nat) : State :=
  let x := (ctx, block)
  let s1 := s.mapClusters fun _ k =>
    { k with ropes := k.ropes.map (fun e => (e.1, { e.2 with stall := unstall x e.2.stall }))
             te := { k.te with stall := unstall x k.te.stall }
             haul := { k.haul with stall := unstall x k.haul.stall } }
  let qs := Table.mapVals .empty (fun _ q => { q with stall := unstall x q.stall }) s1.queues
  let held := s1.xlt.held.filter fun h => !(h.ctx == ctx && blockOf h.va == block)
  { s1 with
    queues := qs
    xlt := { s1.xlt with held := held }
    pod := { s1.pod with colls := s1.pod.colls.map fun (k : Coll) => { k with stall := unstall x k.stall } } }

end Sys2Proof.Machine
end

