-- ==== Sys2Proof/Machine/Trace.lean ====
section
/-! DEFINITION. Trace records and how a source produces one (20_observation_and_test.md R565 to R568). -/

namespace Sys2Proof.Machine

/-! ### Sources and records -/

/-- Record kinds (Table 20.2). -/
def kCairn : Nat := 0
def kPartyStart : Nat := 1
def kPartyEnd : Nat := 2
def kTensorDone : Nat := 3
def kHaulDone : Nat := 4
def kCmdStart : Nat := 5
def kCmdDone : Nat := 6
def kLost : Nat := 7

/-- A source as Table 20.1 names it: its number among the sources, LOGICAL, SLOT and SRC. A command processor serves
the queues of one residue modulo 16 (13 R402). -/
structure TraceFrom where
  key : Nat
  logical : Nat
  slot : Nat
  src : Nat
  deriving DecidableEq, Repr

/-- A rope slot. -/
def ropeSrc (c slot : Nat) : TraceFrom := ⟨64 * c + slot, c, slot, 0⟩

/-- A tensor engine. -/
def tensorSrc (c : Nat) : TraceFrom := ⟨45056 + 2 * c, c, 63, 1⟩

/-- A Haul engine. -/
def haulSrc (c : Nat) : TraceFrom := ⟨45056 + 2 * c + 1, c, 63, 2⟩

/-- A command processor. -/
def cmdSrc (p : Nat) : TraceFrom := ⟨46464 + p, 0x3FF, 63, 3⟩

/-- A source of the commands. -/
def traceFrom : TraceSrc → TraceFrom
  | .rope c slot => ropeSrc c slot
  | .tensor c => tensorSrc c
  | .haul c => haulSrc c
  | .cmdProc p => cmdSrc p

/-- The 256 bits of a trace record (Table 20.1). -/
def traceBits (time payload marker seq kind ctx : Nat) (f : TraceFrom) (unit : Nat) : BitVec 256 :=
  BitVec.ofNat 256 (time % 2 ^ 64 * 2 ^ 192 + payload % 2 ^ 64 * 2 ^ 128 + marker % 2 ^ 32 * 2 ^ 96 +
    seq % 2 ^ 32 * 2 ^ 64 + kind * 2 ^ 60 + ctx * 2 ^ 54 + f.logical * 2 ^ 44 + f.slot * 2 ^ 38 + f.src * 2 ^ 36 +
    unit * 2 ^ 28)

/-- The context a record carries. -/
def recordCtx (r : BitVec 256) : Nat := bits r.toNat 54 6

/-! ### Queues -/

/-- Records that wait at a source. -/
def State.traceQueue (s : State) (key : Nat) : List (BitVec 256) := Table.get [] s.obs.queues key

/-- Set the records that wait at a source. -/
def State.setTraceQueue (s : State) (key : Nat) (l : List (BitVec 256)) : State :=
  { s with obs := { s.obs with queues := Table.set [] s.obs.queues key l } }

/-- Records of the trace ring that its reader has not taken, and its size (R568). -/
def State.traceUsed (s : State) : Nat :=
  (s.rf .obsTracePtr .producer + 2 ^ 32 - s.rf .obsTracePtr .consumer) % 2 ^ 32
def State.traceSize (s : State) : Nat := 2 ^ (s.rf .obsTraceRing .sizeLog2 + 10)

/-- The next SEQ of a source and context, and the count advanced. -/
def State.traceSeq (s : State) (key ctx : Nat) : State × Nat :=
  let k := 64 * key + ctx
  let n := Table.get 0 s.obs.seqs k
  ({ s with obs := { s.obs with seqs := Table.set 0 s.obs.seqs k ((n + 1) % 2 ^ 32) } }, n)

/-- Put a record of a source into its queue. -/
def State.tracePut (s : State) (f : TraceFrom) (unit ctx kind marker payload : Nat) : State :=
  let q := s.traceSeq f.key ctx
  q.1.setTraceQueue f.key (q.1.traceQueue f.key ++ [traceBits s.time payload marker q.2 kind ctx f unit])

/-- A record of a source and context is discarded: LOST and TRACE_LOST. The context of the last one dropped is
kept for the LOST record, 64 × count + context. -/
def State.traceDrop (s : State) (key ctx : Nat) : State :=
  let n := Table.get 0 s.obs.lost key / 64 + 1
  let s1 := { s with obs := { s.obs with lost := Table.set 0 s.obs.lost key (64 * n + ctx) } }
  (s1.satRf .obsTraceStat .lost 1).setRf .obsEvent .traceLost 1

/-- R568: a source that has dropped records, and has room in its queue and in the ring, produces one LOST record. -/
def State.traceLost (s : State) (f : TraceFrom) (unit : Nat) : State :=
  let x := Table.get 0 s.obs.lost f.key
  if x = 0 || !s.rbit .obsTraceCtl .enable || decide (16 ≤ (s.traceQueue f.key).length) ||
      decide (s.traceSize ≤ s.traceUsed) then s
  else
    ({ s with obs := { s.obs with lost := Table.erase s.obs.lost f.key } }).tracePut f unit (x % 64) kLost 0 (x / 64)

/-- R566, R568: a source produces a record of a kind for a context, if both are enabled; none where it must wait for
room in its queue (STALL). -/
def State.trace (s : State) (f : TraceFrom) (unit ctx kind marker payload : Nat) : Option State :=
  if !s.rbit .obsTraceCtl .enable || !bit (s.reg (.obsCtxTrace ctx)).toNat kind then some s
  else
    let s1 := s.traceLost f unit
    if (s1.traceQueue f.key).length < 16 then some (s1.tracePut f unit ctx kind marker payload)
    else if s.rbit .obsTraceCtl .mode then none
    else some ((s1.traceSeq f.key ctx).1.traceDrop f.key ctx)

/-- A source need not wait before an event of a kind and context. -/
def State.mayTrace (s : State) (f : TraceFrom) (ctx kind : Nat) : Bool := (s.trace f 0 ctx kind 0 0).isSome

/-- A source that need not wait produces a record. -/
def State.traceNow (s : State) (f : TraceFrom) (unit ctx kind marker payload : Nat) : State :=
  (s.trace f unit ctx kind marker payload).getD s

/-- No rope slot of a list need wait before an event of a party. -/
def State.mayTraceRopes (s : State) (c : Nat) (slots : List Nat) (ctx kind : Nat) : Bool :=
  slots.all fun slot => s.mayTrace (ropeSrc c slot) ctx kind

/-- Every rope slot of a list produces a record. -/
def State.traceRopes (s : State) (c : Nat) (slots : List Nat) (ctx kind marker payload : Nat) : State :=
  slots.foldl (fun s slot => s.traceNow (ropeSrc c slot) 0 ctx kind marker payload) s

end Sys2Proof.Machine
end

