-- ==== Sys2Proof/Machine/Operands.lean ====
section
/-! DEFINITION. Operand forms of cluster instructions: guards, register fields and their checks, reading and
writing registers, and the issue of one instruction (06_instruction_set.md R179 to R187, R220;
05_clusters_ropes_parties.md R137, R141 to R145). -/

namespace Sys2Proof

/-! ### Headers and unused fields (06 R179, R180, R182) -/

/-- The guard of the common header. -/
structure Guard where
  ge : Bool
  gn : Bool
  gp : BitVec 3

def VFmt.guard (f : VFmt) : Guard := ⟨f.ge, f.gn, f.gp⟩
def IFmt.guard (f : IFmt) : Guard := ⟨f.ge, f.gn, f.gp⟩
def MFmt.guard (f : MFmt) : Guard := ⟨f.ge, f.gn, f.gp⟩
/-- No guard: format C has none (R180). -/
def noGuard : Guard := ⟨false, false, 0⟩

/-- The fields of format V that an opcode uses; every other must be 0 (R182). -/
structure VUse where
  dst : Bool := false
  sa : Bool := false
  sb : Bool := false
  sc : Bool := false
  ua : Bool := false
  ub : Bool := false
  uc : Bool := false
  ty : Bool := false
  modMask : Nat := 0

/-- R182: the unused fields of a format V word are 0. -/
def VFmt.clean (f : VFmt) (u : VUse) : Bool :=
  (u.dst || f.dst == 0) && (u.sa || f.sa == 0) && (u.sb || f.sb == 0) && (u.sc || f.sc == 0) &&
    (u.ua || !f.ua) && (u.ub || !f.ub) && (u.uc || !f.uc) && (u.ty || f.ty == 0) &&
    f.mod.toNat &&& (1023 - u.modMask) == 0

end Sys2Proof

namespace Sys2Proof.Machine

/-! ### Type codes (06 Table 6.6) -/

/-- Registers a type takes. -/
def tyRegs (ty : Nat) : Nat := if ty = 2 ∨ ty = 3 ∨ ty = 5 then 2 else 1

/-- Bits of a type that are used. -/
def tyBits (ty : Nat) : Nat :=
  if ty = 2 ∨ ty = 3 ∨ ty = 5 then 64
  else if ty = 6 ∨ ty = 7 then 16
  else if ty = 8 ∨ ty = 9 then 8
  else 32

/-- The float format of a type code, if it is one. -/
def tyFmt : Nat → Option Fmt
  | 4 => some fp32
  | 5 => some fp64
  | 6 => some fp16
  | 7 => some bf16
  | 8 => some e4m3
  | 9 => some e5m2
  | _ => none

/-- A type code is a signed integer. -/
def tySigned (ty : Nat) : Bool := ty == 0 || ty == 2

/-! ### Field checks (06 R182 to R184) -/

/-- A vector register field's alignment: a value of `n` registers starts at a multiple of `n`, and 255 names
the zero operand in every width (R183). -/
def vecLegal (field n : Nat) : Bool := field == 255 || field % n == 0

/-- The highest register a field names lies below VREGS (R183). -/
def vecRange (vregs field n : Nat) : Bool := field == 255 || decide (field + n - 1 < vregs)

/-- A uniform register field (R184). -/
def uLegal (field : Nat) : Bool := decide (field < 64)

/-- A predicate register field (R184). -/
def pLegal (field : Nat) : Bool := decide (field < 8)

/-- A source that is a vector register, or a uniform register broadcast to all lanes. -/
def srcLegal (uni : Bool) (field n : Nat) : Bool := if uni then uLegal field else vecLegal field n

/-- The range check of a source (R183); a uniform register needs none. -/
def srcRange (vregs : Nat) (uni : Bool) (field n : Nat) : Bool := uni || vecRange vregs field n

/-! ### Registers of a rope -/

/-- A uniform register. -/
def Rope.ureg (r : Rope) (n : Nat) : Word := Table.get 0 r.u n

/-- Write a uniform register. -/
def Rope.setU (r : Rope) (n : Nat) (v : Word) : Rope := { r with u := Table.set 0 r.u n v }

/-- A uniform pair: bits 63:0 in the even register (R184). -/
def Rope.upair (r : Rope) (n : Nat) : Nat := (r.ureg n).toNat + 2 ^ 64 * (r.ureg (n + 1)).toNat

/-- A predicate register. -/
def Rope.preg (r : Rope) (n : Nat) : Mask := Table.get 0 r.p n

/-- Write a predicate register. -/
def Rope.setP (r : Rope) (n : Nat) (v : Mask) : Rope := { r with p := Table.set 0 r.p n v }

/-- Write the lanes of a predicate register where `e` is set. -/
def Rope.writeP (r : Rope) (n : Nat) (e v : Mask) : Rope := r.setP n ((r.preg n &&& ~~~e) ||| (v &&& e))

/-- A vector register; field 255 is not stored. -/
def Rope.vreg (r : Rope) (n : Nat) : VReg := Table.get 0 r.v n

/-- The 32 lanes of a value of `n` registers from a field; 255 reads 0 (R183). -/
def Rope.vread (r : Rope) (field n : Nat) : List Nat :=
  if field = 255 then List.replicate 32 0
  else (List.range 32).map fun i =>
    (List.range n).foldl (fun a k => a + 2 ^ (32 * k) * bits (r.vreg (field + k)).toNat (32 * i) 32) 0

/-- A vector register built of 32 lane values. -/
def vpack (l : List Nat) : Nat := l.foldr (fun x a => x % 2 ^ 32 + 2 ^ 32 * a) 0

/-- Write one register of a value: lanes where `e` is set take bits of `vals`, the others keep theirs. -/
def Rope.writeLanes (r : Rope) (reg k : Nat) (e : Mask) (vals : List Nat) : Rope :=
  let old := (r.vreg reg).toNat
  let l := (vals.zip (List.range 32)).map fun p =>
    if e.getLsbD p.2 then bits p.1 (32 * k) 32 else bits old (32 * p.2) 32
  { r with v := Table.set 0 r.v reg (BitVec.ofNat 1024 (vpack l)) }

/-- Write the lanes of `e` of a value of `n` registers; a write to 255 is discarded (R183). -/
def Rope.vwrite (r : Rope) (field n : Nat) (e : Mask) (vals : List Nat) : Rope :=
  if field = 255 then r
  else (List.range n).foldl (fun r k => r.writeLanes (field + k) k e vals) r

/-- A source operand of `n` registers: a vector value, or a uniform register broadcast (06 Table 6.2). -/
def Rope.source (r : Rope) (uni : Bool) (field n : Nat) : List Nat :=
  if uni then List.replicate 32 ((r.ureg field).toNat % 2 ^ (32 * n)) else r.vread field n

/-- Every lane of the rope has exited: the rope has ended (05 R144). -/
def Rope.ended (r : Rope) : Bool := r.exited == BitVec.allOnes 32

/-- The effective mask (R180). -/
def Rope.effective (r : Rope) (ge gn : Bool) (gp : BitVec 3) : Mask :=
  if ge then (if gn then r.active &&& ~~~ r.preg gp.toNat else r.active &&& r.preg gp.toNat) else r.active

/-- A mask from a truth value per lane. -/
def maskOf (l : List Bool) : Mask :=
  BitVec.ofNat 32 (l.foldr (fun b a => bval b + 2 * a) 0)

/-- The lanes of a mask, rising. -/
def lanes (e : Mask) : List Nat := (List.range 32).filter fun i => e.getLsbD i

/-! ### Joins (05 R143) -/

/-- R143, applied for as long as it holds (`n` bounds it); also whether its last turn took up pending
lanes. -/
def Rope.join : Nat → Rope → Bool → Rope × Bool
  | 0, r, took => (r, took)
  | n + 1, r, took =>
    match r.stack with
    | [] => (r, took)
    | t :: rest =>
      if r.pc = t.join then
        if t.pendingMask &&& ~~~ r.exited ≠ 0 then
          Rope.join n { r with active := t.pendingMask &&& ~~~ r.exited, pc := t.pendingPc,
                               stack := { t with pendingMask := 0 } :: rest } true
        else Rope.join n { r with active := t.saved &&& ~~~ r.exited, stack := rest } false
      else (r, took)

/-! ### Issue -/

/-- What an instruction finds at issue: its rope with R143 applied, party, context, effective mask, and
whether it was reached by taking up pending lanes. -/
structure IssueCtx where
  c : Nat
  slot : Nat
  rope : Rope
  party : Party
  ctx : Nat
  cx : Ctx
  e : Mask
  took : Bool

/-- Put back the rope of an issue, unless its context has failed meanwhile. -/
def State.putRope (s : State) (k : IssueCtx) (r : Rope) : State :=
  if (Table.find (s.cluster k.c).ropes k.slot).isSome then s.setRope k.c k.slot r else s

/-- R177: the rope with its pc on the next instruction. -/
def Rope.next (r : Rope) : Rope := { r with pc := r.pc + 8, issueLog := [] }

/-- Complete an instruction: put back the rope, its pc advanced by 8 (R177). -/
def State.finish (s : State) (k : IssueCtx) (r : Rope) : State := s.putRope k r.next

/-- A fault of the issuing rope at its instruction. -/
def State.fail (s : State) (k : IssueCtx) (code : Nat) : State :=
  s.ropeFault k.c k.slot k.ctx k.rope.pc code 0 0

/-- A fault of the issuing rope at an address: 1 a device VA. -/
def State.failAt (s : State) (k : IssueCtx) (code addr kind : Nat) : State :=
  s.ropeFault k.c k.slot k.ctx k.rope.pc code addr kind

/-- What an issue checks before the instruction's own effect: the word is legal (R182), its registers lie in
range (R183), it is timing-dependent (R219), it is a rope-level instruction (R181). -/
structure Checks where
  legal : Bool
  range : Nat → Bool
  timed : Bool := false
  ropeLevel : Bool := false

/-- What a live rope finds: its rope with R143 applied, party, context and effective mask. -/
def State.ropeCtx (s : State) (c slot : Nat) (g : Guard) : Option IssueCtx :=
  match Table.find (s.cluster c).ropes slot with
  | none => none
  | some r =>
    match Table.find (s.cluster c).parties r.party with
    | none => none
    | some p =>
      match Table.find s.ctxs p.par.ctx with
      | none => none
      | some x =>
        let j := Rope.join 70 r false
        some ⟨c, slot, j.1, p, p.par.ctx, x, j.1.effective g.ge g.gn g.gp, j.2⟩

/-- The rope that an issue names, if it can issue now: the package runs, the cluster is not halted, and the
rope waits for nothing (05 R137). -/
def State.issuing (s : State) (i : Issue) (g : Guard) : Option IssueCtx :=
  if !s.ready || s.clusterHalted i.cluster then none
  else
    match Table.find (s.cluster i.cluster).ropes i.slot with
    | none => none
    | some r => if r.wait ≠ .none ∨ r.stall ≠ none ∨ r.ended then none else s.ropeCtx i.cluster i.slot g

/-- Issue one instruction (R220 order): an SRAM event of its operand reads (19 R551), ILLEGAL_INSTR,
REG_RANGE, STRICT_CLASS, then, for a rope-level instruction with an empty mask, nothing but its issue (R181),
else its effect. A rope that cannot issue now is left as it is. The effect answers false where the rope goes
on waiting to issue; such an attempt is not counted as an issue. DESIGN CHOICE (log 136): ISSUED (Table 20.3)
counts an instruction that faults at its issue too. -/
def issueWait (i : Issue) (g : Guard) (ck : Checks) (s : State) (body : State → IssueCtx → State × Bool) :
    Host.Outcome State Fault Refusal :=
  match s.issuing i g with
  | none => .next s
  | some k =>
    match i.ecc with
    | .uncorrectable => .next ((s.setRf (.clMemEcc k.c) .uncorr 1).clusterFail k.c Code.clusterUncorr)
    | ev =>
      let s0 := if ev = .corrected then (s.satRf (.clMemEcc k.c) .corrected 1).clusterCe k.c else s
      let s1 := s0.countCl k.c 2 k.ctx 1
      if !ck.legal then .next (s1.fail k Code.illegalInstr)
      else if !ck.range k.party.par.vregs then .next (s1.fail k Code.regRange)
      else if ck.timed && k.cx.strict then .next (s1.fail k Code.strictClass)
      else if ck.ropeLevel && k.e == 0 then .next (s1.finish k k.rope)
      else
        let r := body s0 k
        .next (if r.2 then r.1.countCl k.c 2 k.ctx 1 else r.1)

/-- Issue one instruction whose effect never waits at issue. -/
def issue (i : Issue) (g : Guard) (ck : Checks) (s : State) (body : State → IssueCtx → State) :
    Host.Outcome State Fault Refusal :=
  issueWait i g ck s fun s k => (body s k, true)

/-- The rope of an issue waits for a translation fault. -/
def State.stalled (s : State) (k : IssueCtx) : Bool :=
  match Table.find (s.cluster k.c).ropes k.slot with
  | some r => r.stall != none
  | none => false

/-- Issue one memory instruction: an attempt that meets a translation fault issues again after it. -/
def issueMem (i : Issue) (g : Guard) (ck : Checks) (s : State) (body : State → IssueCtx → State) :
    Host.Outcome State Fault Refusal :=
  issueWait i g ck s fun s k =>
    let t := body s k
    (t, !t.stalled k)

end Sys2Proof.Machine
end

