-- ==== Sys2Proof/Machine/Flags.lean ====
section
/-! DEFINITION. Conditions and flags: integer comparisons of 06_instruction_set.md R192 and R193, and the
sticky flags of tally adds (05_clusters_ropes_parties.md R164). -/

namespace Sys2Proof.Machine

/-- R192: a comparison condition on two integers: 0 EQ, 1 NE, 2 LT, 3 LE, 4 GT, 5 GE. -/
def icond (c : Nat) (a b : Int) : Bool :=
  match c with
  | 0 => a == b
  | 1 => a != b
  | 2 => decide (a < b)
  | 3 => decide (a ≤ b)
  | 4 => decide (b < a)
  | 5 => decide (b ≤ a)
  | _ => false

/-- A number of `w` bits read as an integer, signed or not. -/
def asInt (sgn : Bool) (w x : Nat) : Int := if sgn then signed w x else ((x % 2 ^ w : Nat) : Int)

/-- The flags of R164 of two sets of adds together. -/
def TallyFlags.join (a b : TallyFlags) : TallyFlags :=
  ⟨a.inexact || b.inexact, a.range || b.range, a.nonfinite || b.nonfinite⟩

/-- No tally flag set. -/
def TallyFlags.clear : TallyFlags := ⟨false, false, false⟩

/-- TALLY.FLAGS' value: INEXACT in bit 0, RANGE in bit 1, NONFINITE in bit 2 (06 R204). -/
def TallyFlags.word (t : TallyFlags) : Word :=
  BitVec.ofNat 64 (bval t.inexact + 2 * bval t.range + 4 * bval t.nonfinite)

/-- R164: what one value adds to a tally cell of exponent `q`: an integer, and the flags it sets. -/
def tallyAddend (q : Int) : Fp → Int × TallyFlags
  | .nan => (0, ⟨false, false, true⟩)
  | .inf _ => (0, ⟨false, false, true⟩)
  | .fin n m e =>
    let t := truncTo q (.fin n m e)
    -- exact when no bit of the magnitude lies below 2 to the q
    let lost := decide (e < q) && m % 2 ^ (q - e).toNat != 0
    let big := m != 0 && decide (q + 224 ≤ (Nat.log2 m : Int) + e)
    (t, ⟨lost, big, false⟩)

/-- R164: an integer added modulo 2^256. -/
def tallySum (x : Nat) (d : Int) : Nat := (((x : Int) + d) % ((2 ^ 256 : Nat) : Int)).toNat

end Sys2Proof.Machine
end

