-- ==== Sys2Proof/Machine/L1.lean ====
section
/-! DEFINITION. The cluster L1, local store and host aperture as a rope's or an engine's accesses meet them
(07_memory_model_bells.md R231 to R237; 09_ranges_translation.md R299; 05_clusters_ropes_parties.md R151). -/

namespace Sys2Proof.Machine

/-! ### Lines of the L1 -/

/-- The L1 line of a context's device VA line. -/
def Cluster.l1Find (k : Cluster) (ctx line : Nat) : Option L1Line :=
  k.l1.find? fun l => l.ctx == ctx && l.line == line

/-- Put a line into the L1, in place of the line it replaces. -/
def Cluster.l1Put (k : Cluster) (l : L1Line) : Cluster :=
  { k with l1 := k.l1.filter (fun x => !(x.ctx == l.ctx && x.line == l.line)) ++ [l] }

/-- Drop a line of the L1. -/
def Cluster.l1Drop (k : Cluster) (ctx line : Nat) : Cluster :=
  { k with l1 := k.l1.filter fun x => !(x.ctx == ctx && x.line == line) }

/-- R301: a refused request raises FRAME_OWNER for its context; the record's address is the physical one. -/
def State.frameFault (s : State) (ctx line : Nat) : State :=
  s.ctxFail ctx Code.frameOwner { addr := 128 * line, addrKind := 2 } none

/-- R231: clean a line: its dirty bytes go to its home, and the line stays, clean. -/
def State.l1Clean (s : State) (c : Nat) (l : L1Line) : State :=
  if l.dirty = 0 then s
  else
    let s1 := s.setCluster c ((s.cluster c).l1Put { l with dirty := 0 })
    match s1.homeWrite l.ctx l.pa l.data l.dirty with
    | (s2, true) => s2
    | (_, false) => s1.frameFault l.ctx l.pa

/-- Clean every dirty line of a cluster's L1, counted for a context (20 Table 20.3 L1_CLEAN). -/
def State.l1CleanAll (s : State) (c ctx : Nat) : State :=
  let dirty := (s.cluster c).l1.filter fun l => l.dirty != 0
  (dirty.foldl (fun s l => s.l1Clean c l) s).countCl c 6 ctx dirty.length

/-- Invalidate every line of a cluster's L1. -/
def State.l1InvAll (s : State) (c : Nat) : State :=
  s.setCluster c { s.cluster c with l1 := [] }

/-- Table 7.2: the L1 actions of a release at a scope (0 rope, 1 party, 2 device, 3 system). -/
def State.releaseAt (s : State) (c ctx scope : Nat) : State :=
  if scope < 2 then s else s.l1CleanAll c ctx

/-- Table 7.2: the L1 actions of an acquire at a scope. -/
def State.acquireAt (s : State) (c ctx scope : Nat) : State :=
  if scope < 2 then s else (s.l1CleanAll c ctx).l1InvAll c

/-- Read a line through the L1: a miss, or a line that holds only some bytes, takes the line from its home;
`alloc` keeps it (CH of 06 Table 6.4). Answers the line, its poison bits, and whether the home accepted. -/
def State.l1Read (s : State) (c ctx line pa : Nat) (alloc : Bool) : State × Line × BitVec 4 × Bool :=
  match (s.cluster c).l1Find ctx line with
  | some l =>
    if l.valid = BitVec.allOnes 128 then (s, l.data, l.poison, true)
    else
      let h := s.homeFetch ctx pa
      let d := mergeLine h.2.1 l.data l.valid
      let p := h.2.2.1 &&& ~~~ wholeSectors l.valid
      if h.2.2.2 then
        let l' := { l with data := d, valid := BitVec.allOnes 128, poison := p }
        ((h.1.setCluster c ((s.cluster c).l1Put l')).countCl c 5 ctx 1, d, p, true)
      else (s, d, p, false)
  | none =>
    let h := s.homeFetch ctx pa
    let s1 := h.1.countCl c 5 ctx 1
    if h.2.2.2 && alloc then
      let l : L1Line := ⟨ctx, line, pa, h.2.1, BitVec.allOnes 128, 0, h.2.2.1⟩
      (s1.setCluster c ((s1.cluster c).l1Put l), h.2.1, h.2.2.1, true)
    else (s1, h.2.1, h.2.2.1, h.2.2.2)

/-- Write bytes of a line through the L1 (R231: write-back, write-allocating); without `alloc` a miss writes
at the home. -/
def State.l1Write (s : State) (c ctx line pa : Nat) (d : Line) (mask : BitVec 128) (alloc : Bool) : State :=
  match (s.cluster c).l1Find ctx line with
  | some l =>
    s.setCluster c ((s.cluster c).l1Put
      { l with data := mergeLine l.data d mask, valid := l.valid ||| mask, dirty := l.dirty ||| mask,
               poison := l.poison &&& ~~~ wholeSectors mask })
  | none =>
    if alloc then s.setCluster c ((s.cluster c).l1Put ⟨ctx, line, pa, d, mask, mask, 0⟩)
    else
      match s.homeWrite ctx pa d mask with
      | (s1, true) => s1
      | (_, false) => s.frameFault ctx pa

/-- Before an access at the home: the cluster's own dirty bytes of the line go there first, and its copy is
dropped, so the access follows the rope's earlier stores (R230; log 13). -/
def State.l1Push (s : State) (c ctx line : Nat) : State :=
  match (s.cluster c).l1Find ctx line with
  | none => s
  | some l =>
    let s1 := s.l1Clean c l
    s1.setCluster c ((s1.cluster c).l1Drop ctx line)

/-- R233: a read by the cluster's engines: the home's line, with any dirty bytes of the cluster's L1. -/
def State.engineRead (s : State) (c ctx line pa : Nat) : State × Line × BitVec 4 × Bool :=
  let h := s.homeFetch ctx pa
  match (s.cluster c).l1Find ctx line with
  | none => h
  | some l => (h.1, mergeLine h.2.1 l.data l.dirty, h.2.2.1 &&& ~~~ wholeSectors l.dirty, h.2.2.2)

/-- R233: a write by the cluster's engines: earlier dirty bytes of the line leave the L1 first, the bytes are
written at the home, and the L1 copy is invalidated. -/
def State.engineWrite (s : State) (c ctx line pa : Nat) (d : Line) (mask : BitVec 128) : State × Bool :=
  (s.l1Push c ctx line).homeWrite ctx pa d mask

/-! ### Local store -/

/-- Bytes of a party's local store (R151). -/
def Party.lsBytes (p : Party) : Nat := p.par.lsKib * 1024

/-- `n` bytes of local store as a number. -/
def Party.lsRead (p : Party) (off n : Nat) : Nat :=
  leNat ((List.range n).map fun i => Table.get 0 p.ls (off + i))

/-- Write bytes into local store. -/
def Party.lsWrite (p : Party) (off : Nat) (bs : List Byte) : Party :=
  { p with ls := (bs.zip (List.range bs.length)).foldl (fun t b => Table.set 0 t (off + b.2) b.1) p.ls }

/-! ### Translating a set of addresses -/

/-- What a set of accesses translates to: each line's result, or the first fault with its address. -/
inductive Lines where
  | ok (l : List (Nat × Xlat))
  | fault (cause entry va : Nat)
  deriving DecidableEq, Repr

/-- Translate the lines of a list of addresses in order, each line once (R294); the first fault ends it. -/
def State.xlatAll (s : State) (id : RcId) (ctx : Nat) (n : Need) (addrs : List Nat) : State × Lines :=
  addrs.foldl (fun (r : State × Lines) a =>
    match r.2 with
    | .fault _ _ _ => r
    | .ok l =>
      if (l.any fun e => e.1 == a / 128) then r
      else
        match r.1.translate id ctx a n with
        | (s1, .fault c e) => (s1, .fault c e a)
        | (s1, .mem pa) => (s1, .ok (l ++ [(a / 128, .mem (pa / 128))]))
        | (s1, .host h) => (s1, .ok (l ++ [(a / 128, .host (h / 128 * 128))]))) (s, .ok [])

/-- The first byte of each line that `n` bytes from `a` touch. -/
def lineStarts (a n : Nat) : List Nat :=
  if a / 128 = (a + n - 1) / 128 then [a] else [a, (a / 128 + 1) * 128]

/-- The bytes the host's answer gives for a line of host memory. -/
def hostLine (h : HostAnswer) (base : Nat) : Line :=
  BitVec.ofNat 1024 (h.cells.foldl
    (fun a c => if base ≤ c.1 ∧ c.1 < base + 128 then a ||| c.2.toNat <<< (8 * (c.1 - base)) else a) 0)

/-- The sectors of a host line whose read failed (12 R392). -/
def hostFailed (h : HostAnswer) (base : Nat) : BitVec 4 :=
  BitVec.ofNat 4 ((List.range 4).foldl
    (fun a k => if h.failed.any (fun x => x / 32 == base / 32 + k) then a + 2 ^ k else a) 0)

/-- A value of up to 32 bytes out of fetched lines, and whether a sector of it is poisoned. -/
def fetched (l : List (Nat × Line × BitVec 4)) (a n : Nat) : Nat × Bool :=
  (lineStarts a n).foldl (fun (r : Nat × Bool) x =>
    match l.find? fun e => e.1 == x / 128 with
    | none => r
    | some e =>
      let m := min (128 * (x / 128) + 128) (a + n) - x
      (r.1 + lineNat e.2.1 (x % 128) m * 2 ^ (8 * (x - a)),
       r.2 || (e.2.2 &&& sectorsOf (spanMask (x % 128) m) != 0))) (0, false)

end Sys2Proof.Machine
end

