-- ==== Sys2Proof/Machine/VectorInt.lean ====
section
/-! DEFINITION. Vector integer instructions (06_instruction_set.md R193, Table 6.10). -/

namespace Sys2Proof.Machine

/-- A vector integer instruction of two sources: TY 0 to 3, wrapping at the type's width; `op` takes the type
code and the two lane values. -/
def vectorBin (i : Issue) (f : VFmt) (op : Nat → Nat → Nat → Nat) (s : State) :
    Host.Outcome State Fault Refusal :=
  let n := tyRegs f.ty.toNat
  issue i f.guard
    { legal := f.clean { dst := true, sa := true, sb := true, ua := true, ub := true, ty := true } &&
        decide (f.ty.toNat < 4) && vecLegal f.dst.toNat n && srcLegal f.ua f.sa.toNat n && srcLegal f.ub f.sb.toNat n
      range := fun v => vecRange v f.dst.toNat n && srcRange v f.ua f.sa.toNat n && srcRange v f.ub f.sb.toNat n } s
    fun s k =>
      let vals := List.zipWith (fun a b => op f.ty.toNat a b % 2 ^ tyBits f.ty.toNat)
        (k.rope.source f.ua f.sa.toNat n) (k.rope.source f.ub f.sb.toNat n)
      s.finish k (k.rope.vwrite f.dst.toNat n k.e vals)

/-- An integer's bits in a width. -/
def wrapInt (w : Nat) (x : Int) : Nat := (x % ((2 ^ w : Nat) : Int)).toNat

/-- A lane value as an integer of its type. -/
def tyInt (ty x : Nat) : Int := asInt (tySigned ty) (tyBits ty) x

/-- A shift count: bits 4:0 for 32-bit types, 5:0 for 64-bit types. -/
def shiftCount (ty x : Nat) : Nat := x % tyBits ty

def execVadd (i : Issue) (f : VFmt) (s : State) : Host.Outcome State Fault Refusal :=
  vectorBin i f (fun _ a b => a + b) s

def execVsub (i : Issue) (f : VFmt) (s : State) : Host.Outcome State Fault Refusal :=
  vectorBin i f (fun ty a b => wrapInt (tyBits ty) ((a : Int) - b)) s

/-- VMUL keeps the low half. -/
def execVmul (i : Issue) (f : VFmt) (s : State) : Host.Outcome State Fault Refusal :=
  vectorBin i f (fun _ a b => a * b) s

/-- VMULH keeps the high half of the double-width product, signed or unsigned by TY. -/
def execVmulh (i : Issue) (f : VFmt) (s : State) : Host.Outcome State Fault Refusal :=
  vectorBin i f (fun ty a b =>
    wrapInt (tyBits ty) (tyInt ty a * tyInt ty b / ((2 ^ tyBits ty : Nat) : Int))) s

def execVand (i : Issue) (f : VFmt) (s : State) : Host.Outcome State Fault Refusal :=
  vectorBin i f (fun _ a b => a &&& b) s

def execVor (i : Issue) (f : VFmt) (s : State) : Host.Outcome State Fault Refusal :=
  vectorBin i f (fun _ a b => a ||| b) s

def execVxor (i : Issue) (f : VFmt) (s : State) : Host.Outcome State Fault Refusal :=
  vectorBin i f (fun _ a b => a ^^^ b) s

def execVshl (i : Issue) (f : VFmt) (s : State) : Host.Outcome State Fault Refusal :=
  vectorBin i f (fun ty a b => a <<< shiftCount ty b) s

/-- Always logical. -/
def execVshr (i : Issue) (f : VFmt) (s : State) : Host.Outcome State Fault Refusal :=
  vectorBin i f (fun ty a b => a >>> shiftCount ty b) s

/-- Always arithmetic. -/
def execVsar (i : Issue) (f : VFmt) (s : State) : Host.Outcome State Fault Refusal :=
  vectorBin i f (fun ty a b =>
    wrapInt (tyBits ty) (signed (tyBits ty) a / ((2 ^ shiftCount ty b : Nat) : Int))) s

def execVmin (i : Issue) (f : VFmt) (s : State) : Host.Outcome State Fault Refusal :=
  vectorBin i f (fun ty a b => if tyInt ty a ≤ tyInt ty b then a else b) s

def execVmax (i : Issue) (f : VFmt) (s : State) : Host.Outcome State Fault Refusal :=
  vectorBin i f (fun ty a b => if tyInt ty a ≤ tyInt ty b then b else a) s

/-- VSEL takes each lane of v[SA] where the lane's bit of p[SC] is set, of v[SB] elsewhere; UC is reserved. -/
def execVsel (i : Issue) (f : VFmt) (s : State) : Host.Outcome State Fault Refusal :=
  let n := tyRegs f.ty.toNat
  issue i f.guard
    { legal := f.clean { dst := true, sa := true, sb := true, sc := true, ua := true, ub := true, ty := true } &&
        decide (f.ty.toNat < 4) && vecLegal f.dst.toNat n && srcLegal f.ua f.sa.toNat n &&
        srcLegal f.ub f.sb.toNat n && pLegal f.sc.toNat
      range := fun v => vecRange v f.dst.toNat n && srcRange v f.ua f.sa.toNat n && srcRange v f.ub f.sb.toNat n } s
    fun s k =>
      let p := k.rope.preg f.sc.toNat
      let ab := (k.rope.source f.ua f.sa.toNat n).zip (k.rope.source f.ub f.sb.toNat n)
      let vals := (ab.zip (List.range 32)).map fun x => if p.getLsbD x.2 then x.1.1 else x.1.2
      s.finish k (k.rope.vwrite f.dst.toNat n k.e vals)

/-- VCMP writes the lanes in E of p[DST]. -/
def execVcmp (i : Issue) (f : VFmt) (s : State) : Host.Outcome State Fault Refusal :=
  let n := tyRegs f.ty.toNat
  issue i f.guard
    { legal := f.clean { dst := true, sa := true, sb := true, ua := true, ub := true, ty := true, modMask := 7 } &&
        decide (f.ty.toNat < 4) && decide (f.mod.toNat < 6) && pLegal f.dst.toNat &&
        srcLegal f.ua f.sa.toNat n && srcLegal f.ub f.sb.toNat n
      range := fun v => srcRange v f.ua f.sa.toNat n && srcRange v f.ub f.sb.toNat n } s
    fun s k =>
      let t := List.zipWith (fun a b => icond f.mod.toNat (tyInt f.ty.toNat a) (tyInt f.ty.toNat b))
        (k.rope.source f.ua f.sa.toNat n) (k.rope.source f.ub f.sb.toNat n)
      s.finish k (k.rope.writeP f.dst.toNat k.e (maskOf t))

/-- A vector integer instruction of one source. -/
def vectorUn (i : Issue) (f : VFmt) (op : Nat → Nat) (s : State) : Host.Outcome State Fault Refusal :=
  let n := tyRegs f.ty.toNat
  issue i f.guard
    { legal := f.clean { dst := true, sa := true, ua := true, ty := true } &&
        decide (f.ty.toNat < 4) && vecLegal f.dst.toNat n && srcLegal f.ua f.sa.toNat n
      range := fun v => vecRange v f.dst.toNat n && srcRange v f.ua f.sa.toNat n } s
    fun s k => s.finish k (k.rope.vwrite f.dst.toNat n k.e ((k.rope.source f.ua f.sa.toNat n).map op))

def execVmov (i : Issue) (f : VFmt) (s : State) : Host.Outcome State Fault Refusal :=
  vectorUn i f (fun a => a) s

/-- VPOPC counts the set bits of the value. -/
def execVpopc (i : Issue) (f : VFmt) (s : State) : Host.Outcome State Fault Refusal :=
  vectorUn i f (fun a => (setBitsOf 64 a).length) s

/-- VMOVI writes the 32-bit immediate; SA is reserved. -/
def execVmovi (i : Issue) (f : IFmt) (s : State) : Host.Outcome State Fault Refusal :=
  issue i f.guard
    { legal := !f.res && f.sa == 0
      range := fun v => vecRange v f.dst.toNat 1 } s
    fun s k => s.finish k (k.rope.vwrite f.dst.toNat 1 k.e (List.replicate 32 f.imm.toNat))

/-- VADDI adds the immediate as I32. -/
def execVaddi (i : Issue) (f : IFmt) (s : State) : Host.Outcome State Fault Refusal :=
  issue i f.guard
    { legal := !f.res
      range := fun v => vecRange v f.dst.toNat 1 && vecRange v f.sa.toNat 1 } s
    fun s k => s.finish k (k.rope.vwrite f.dst.toNat 1 k.e
      ((k.rope.vread f.sa.toNat 1).map fun a => (a + f.imm.toNat) % 2 ^ 32))

end Sys2Proof.Machine
end

