-- ==== Sys2Proof/Machine/VectorFp.lean ====
section
/-! DEFINITION. Vector floating-point instructions, conversion, shuffle and reduction (06_instruction_set.md
R194 to R199, Tables 6.11 and 6.12). -/

namespace Sys2Proof.Machine

/-- The float format of TY, FP32 where TY names none (such a TY is refused before it is used). -/
def tyFloat (ty : Nat) : Fmt := (tyFmt ty).getD fp32

/-- A lane value of a float type. -/
def tyFp (ty x : Nat) : Fp := (tyFloat ty).decode (x % 2 ^ tyBits ty)

/-- Absolute value, then negation, of an operand; both change only the sign bit (R194). -/
def signMod (neg abs : Bool) (v : Fp) : Fp :=
  let a := if abs then v.abs else v
  if neg then a.neg else a

/-- A float instruction of two or three sources: `lo` to `hi` are its TY codes, `modMask` its modifier bits,
`three` says that it uses C. `op` takes TY, MOD and the three lane values and gives the result's bits. -/
def floatOp (i : Issue) (f : VFmt) (hi modMask : Nat) (two three : Bool)
    (op : Nat → Nat → Nat → Nat → Nat → Nat) (s : State) : Host.Outcome State Fault Refusal :=
  let n := tyRegs f.ty.toNat
  issue i f.guard
    { legal := f.clean { dst := true, sa := true, sb := two, sc := three, ua := true, ub := two, uc := three,
                         ty := true, modMask := modMask } &&
        decide (4 ≤ f.ty.toNat) && decide (f.ty.toNat ≤ hi) && vecLegal f.dst.toNat n &&
        srcLegal f.ua f.sa.toNat n && (!two || srcLegal f.ub f.sb.toNat n) && (!three || srcLegal f.uc f.sc.toNat n)
      range := fun v => vecRange v f.dst.toNat n && srcRange v f.ua f.sa.toNat n &&
        (!two || srcRange v f.ub f.sb.toNat n) && (!three || srcRange v f.uc f.sc.toNat n) } s
    fun s k =>
      let ab := (k.rope.source f.ua f.sa.toNat n).zip (k.rope.source f.ub f.sb.toNat n)
      let vals := List.zipWith (fun x c => op f.ty.toNat f.mod.toNat x.1 x.2 c) ab
        (k.rope.source f.uc f.sc.toNat n)
      s.finish k (k.rope.vwrite f.dst.toNat n k.e vals)

/-- Operand A under NEG_A and ABS_A (MOD bits 0 and 3). -/
def opA (ty m a : Nat) : Fp := signMod (bit m 0) (bit m 3) (tyFp ty a)

/-- Operand B under NEG_B and ABS_B (MOD bits 1 and 4). -/
def opB (ty m b : Nat) : Fp := signMod (bit m 1) (bit m 4) (tyFp ty b)

/-- Operand C under NEG_C (MOD bit 2). -/
def opC (ty m c : Nat) : Fp := signMod (bit m 2) false (tyFp ty c)

def execVfadd (i : Issue) (f : VFmt) (s : State) : Host.Outcome State Fault Refusal :=
  floatOp i f 7 0x1B true false (fun ty m a b _ => (tyFloat ty).round ((opA ty m a).add (opB ty m b))) s

def execVfsub (i : Issue) (f : VFmt) (s : State) : Host.Outcome State Fault Refusal :=
  floatOp i f 7 0x1B true false (fun ty m a b _ => (tyFloat ty).round ((opA ty m a).add (opB ty m b).neg)) s

def execVfmul (i : Issue) (f : VFmt) (s : State) : Host.Outcome State Fault Refusal :=
  floatOp i f 7 0x1B true false (fun ty m a b _ => (tyFloat ty).round ((opA ty m a).mul (opB ty m b))) s

/-- VFMA forms a × b + c exactly and rounds once. -/
def execVfma (i : Issue) (f : VFmt) (s : State) : Host.Outcome State Fault Refusal :=
  floatOp i f 7 0x1F true true (fun ty m a b c =>
    (tyFloat ty).round (((opA ty m a).mul (opB ty m b)).add (opC ty m c))) s

def execVfmin (i : Issue) (f : VFmt) (s : State) : Host.Outcome State Fault Refusal :=
  floatOp i f 7 0 true false (fun ty _ a b _ => (tyFloat ty).round (Fp.minmax false (tyFp ty a) (tyFp ty b))) s

def execVfmax (i : Issue) (f : VFmt) (s : State) : Host.Outcome State Fault Refusal :=
  floatOp i f 7 0 true false (fun ty _ a b _ => (tyFloat ty).round (Fp.minmax true (tyFp ty a) (tyFp ty b))) s

/-- VFCMP writes the lanes in E of p[DST]; condition 7 is reserved. -/
def execVfcmp (i : Issue) (f : VFmt) (s : State) : Host.Outcome State Fault Refusal :=
  let n := tyRegs f.ty.toNat
  issue i f.guard
    { legal := f.clean { dst := true, sa := true, sb := true, ua := true, ub := true, ty := true, modMask := 7 } &&
        decide (4 ≤ f.ty.toNat) && decide (f.ty.toNat ≤ 7) && decide (f.mod.toNat < 7) && pLegal f.dst.toNat &&
        srcLegal f.ua f.sa.toNat n && srcLegal f.ub f.sb.toNat n
      range := fun v => srcRange v f.ua f.sa.toNat n && srcRange v f.ub f.sb.toNat n } s
    fun s k =>
      let t := List.zipWith (fun a b => Fp.test f.mod.toNat (tyFp f.ty.toNat a) (tyFp f.ty.toNat b))
        (k.rope.source f.ua f.sa.toNat n) (k.rope.source f.ub f.sb.toNat n)
      s.finish k (k.rope.writeP f.dst.toNat k.e (maskOf t))

def execVfdiv (i : Issue) (f : VFmt) (s : State) : Host.Outcome State Fault Refusal :=
  floatOp i f 4 0 true false (fun _ _ a b _ => fp32.div (fp32.decode a) (fp32.decode b)) s

def execVfsqrt (i : Issue) (f : VFmt) (s : State) : Host.Outcome State Fault Refusal :=
  floatOp i f 4 0 false false (fun _ _ a _ _ => fp32.sqrt (fp32.decode a)) s

def execVfrcp (i : Issue) (f : VFmt) (s : State) : Host.Outcome State Fault Refusal :=
  floatOp i f 4 0 false false (fun _ _ a _ _ => fpRcp (fp32.decode a)) s

def execVfrsq (i : Issue) (f : VFmt) (s : State) : Host.Outcome State Fault Refusal :=
  floatOp i f 4 0 false false (fun _ _ a _ _ => fpRsq (fp32.decode a)) s

def execVfexp2 (i : Issue) (f : VFmt) (s : State) : Host.Outcome State Fault Refusal :=
  floatOp i f 4 0 false false (fun _ _ a _ _ => fpExp2 (fp32.decode a)) s

def execVflog2 (i : Issue) (f : VFmt) (s : State) : Host.Outcome State Fault Refusal :=
  floatOp i f 4 0 false false (fun _ _ a _ _ => fpLog2 (fp32.decode a)) s

/-- R197: convert one lane value from type `src` to type `dst`. -/
def vcvtLane (rtz : Bool) (src dst x : Nat) : Nat :=
  match tyFmt src, tyFmt dst with
  | some a, some b => convert a b (x % 2 ^ tyBits src)
  | some a, none =>
    let w := tyBits dst
    let lo : Int := if tySigned dst then -((2 ^ (w - 1) : Nat) : Int) else 0
    let hi : Int := if tySigned dst then ((2 ^ (w - 1) : Nat) : Int) - 1 else ((2 ^ w : Nat) : Int) - 1
    wrapInt w (Fp.toIntSat rtz lo hi (a.decode (x % 2 ^ tyBits src)))
  | none, some b => b.round (Fp.ofInt (tyInt src x))
  | none, none => wrapInt (tyBits dst) (tyInt src x)

/-- VCVT: from TY to the type MOD bits 3:0 name; MOD bit 4 is RTZ, illegal with a float destination and
without effect on an integer source (R197; log 20). -/
def execVcvt (i : Issue) (f : VFmt) (s : State) : Host.Outcome State Fault Refusal :=
  let src := f.ty.toNat
  let dst := bits f.mod.toNat 0 4
  let rtz := bit f.mod.toNat 4
  issue i f.guard
    { legal := f.clean { dst := true, sa := true, ua := true, ty := true, modMask := 31 } &&
        decide (src < 10) && decide (dst < 10) && !(rtz && (tyFmt dst).isSome) &&
        vecLegal f.dst.toNat (tyRegs dst) && srcLegal f.ua f.sa.toNat (tyRegs src)
      range := fun v => vecRange v f.dst.toNat (tyRegs dst) && srcRange v f.ua f.sa.toNat (tyRegs src) } s
    fun s k =>
      s.finish k (k.rope.vwrite f.dst.toNat (tyRegs dst) k.e
        ((k.rope.source f.ua f.sa.toNat (tyRegs src)).map (vcvtLane rtz src dst)))

/-- R198: the lane that lane `l` reads. -/
def shuffleLane (mode d idx l : Nat) : Nat :=
  match mode with
  | 0 => idx % 32
  | 1 => if l < d then l else l - d
  | 2 => if 31 < l + d then l else l + d
  | _ => l ^^^ d

/-- VSHFL (R198): in modes 1 to 3 the SB field is the immediate d. A 16-bit type moves the low 16 bits and
writes the upper bits 0 (R185). -/
def execVshfl (i : Issue) (f : VFmt) (s : State) : Host.Outcome State Fault Refusal :=
  let n := tyRegs f.ty.toNat
  let mode := bits f.mod.toNat 0 2
  issue i f.guard
    { legal := f.clean { dst := true, sa := true, sb := true, ua := true, ub := mode == 0, ty := true, modMask := 3 } &&
        decide (f.ty.toNat < 8) && vecLegal f.dst.toNat n && srcLegal f.ua f.sa.toNat n &&
        (if mode = 0 then srcLegal f.ub f.sb.toNat 1 else decide (f.sb.toNat < 32))
      range := fun v => vecRange v f.dst.toNat n && srcRange v f.ua f.sa.toNat n &&
        (mode != 0 || srcRange v f.ub f.sb.toNat 1) } s
    fun s k =>
      let a := k.rope.source f.ua f.sa.toNat n
      let idx := k.rope.source f.ub (if mode = 0 then f.sb.toNat else 255) 1
      let vals := (idx.zip (List.range 32)).map fun x => a[shuffleLane mode f.sb.toNat x.1 x.2]?.getD 0
      s.finish k (k.rope.vwrite f.dst.toNat n k.e (vals.map fun x => x % 2 ^ tyBits f.ty.toNat))

/-- R199: VRED over the values of the lanes in E, lowest lane first. -/
def vredValue (op ty : Nat) (vals : List Nat) : Nat :=
  match tyFmt ty with
  | some fm =>
    let xs := vals.map fun x => fm.decode (x % 2 ^ tyBits ty)
    if op = 0 then
      let acc := if ty = 5 then fp64 else fp32
      if xs.isEmpty then 0
      else groupSum acc (if ty = 5 then 160 else if ty = 4 then 96 else 48) xs
    else
      let hi := op == 2
      match xs with
      | [] => fm.round (.inf hi)
      | x :: t => fm.round (t.foldl (Fp.minmax hi) x)
  | none =>
    let w := tyBits ty
    if op = 0 then vals.foldl (fun a x => (a + x) % 2 ^ w) 0
    else
      let hi := op == 2
      let least : Int := if tySigned ty then -((2 ^ (w - 1) : Nat) : Int) else 0
      let greatest : Int := if tySigned ty then ((2 ^ (w - 1) : Nat) : Int) - 1 else ((2 ^ w : Nat) : Int) - 1
      let init := if hi then least else greatest
      wrapInt w (vals.foldl (fun a x => if hi then max a (tyInt ty x) else min a (tyInt ty x)) init)

/-- VRED writes u[DST] even when E is empty; a float infinity for MIN of nothing is positive, for MAX
negative (R199). -/
def execVred (i : Issue) (f : VFmt) (s : State) : Host.Outcome State Fault Refusal :=
  let n := tyRegs f.ty.toNat
  issue i f.guard
    { legal := f.clean { dst := true, sa := true, ua := true, ty := true, modMask := 3 } &&
        decide (f.ty.toNat < 8) && decide (f.mod.toNat < 3) && uLegal f.dst.toNat && srcLegal f.ua f.sa.toNat n
      range := fun v => srcRange v f.ua f.sa.toNat n } s
    fun s k =>
      let a := k.rope.source f.ua f.sa.toNat n
      let vals := (lanes k.e).map fun l => a[l]?.getD 0
      s.finish k (k.rope.setU f.dst.toNat (BitVec.ofNat 64 (vredValue f.mod.toNat f.ty.toNat vals)))

end Sys2Proof.Machine
end

