-- ==== Sys2Proof/Machine/RopeMem.lean ====
section
/-! DEFINITION. Memory instructions of a rope: loads, stores, atomics, tally cells, SPINWAIT, group locks and
fences (06_instruction_set.md R200 to R206; 05_clusters_ropes_parties.md R156 to R175;
07_memory_model_bells.md R231 to R237). -/

namespace Sys2Proof

/-- The fields of format M that an opcode uses; every other must be 0 (06 R182). -/
structure MUse where
  data : Bool := true
  addr : Bool := true
  scope : Bool := true
  size : Bool := true
  ch : Bool := true
  off : Bool := true
  subMask : Nat := 0

/-- R182: the unused fields of a format M word are 0. An opcode with no address reserves UADDR and SPC. -/
def MFmt.clean (f : MFmt) (u : MUse) : Bool :=
  (u.data || f.data == 0) && (u.addr || (f.addr == 0 && !f.uaddr && !f.spc)) && (u.scope || f.scope == 0) &&
    (u.size || f.size == 0) && (u.ch || f.ch == 0) && (u.off || f.off == 0) &&
    f.sub.toNat &&& (15 - u.subMask) == 0 && decide (f.ch.toNat ≤ 1)

end Sys2Proof

namespace Sys2Proof.Machine

/-! ### Addresses (06 R200) -/

/-- Registers of the address operand: a uniform register, a vector pair for a device VA, one vector register
for a local-store offset. -/
def addrLegal (f : MFmt) : Bool :=
  if f.uaddr then uLegal f.addr.toNat else vecLegal f.addr.toNat (if f.spc then 1 else 2)

def addrRange (v : Nat) (f : MFmt) : Bool := f.uaddr || vecRange v f.addr.toNat (if f.spc then 1 else 2)

/-- Registers that an access width moves (R183, R201). -/
def sizeRegs (size : Nat) : Nat := if size ≤ 2 then 1 else 2 ^ (size - 2)

/-- R200: the address of each lane in `e`, with `off` added, and `stride` per lane to a uniform address. -/
def Rope.addrs (r : Rope) (f : MFmt) (off : Int) (stride : Nat) (e : Mask) : List (Nat × Nat) :=
  let base := r.vread f.addr.toNat (if f.spc then 1 else 2)
  (lanes e).map fun i =>
    let b := if f.uaddr then (r.ureg f.addr.toNat).toNat + stride * i else base.getD i 0
    let a := (((b : Int) + off) % ((2 ^ 64 : Nat) : Int)).toNat
    (i, if f.spc then a % 2 ^ 32 else a)

/-- OFF as a signed byte offset. -/
def memOffset (f : MFmt) : Int := signed 20 f.off.toNat

/-- OFF bits 7:0 in 32-byte units (R204). -/
def tallyOffset (f : MFmt) : Int := ((32 * bits f.off.toNat 0 8 : Nat) : Int)

/-- Q, OFF bits 19:8 (R204). -/
def tallyQ (f : MFmt) : Int := signed 12 (bits f.off.toNat 8 12)

/-- R156: the distinct 32-byte sectors that accesses of `n` bytes touch. -/
def sectorCount (accs : List (Nat × Nat)) (n : Nat) : Nat :=
  (accs.foldl (fun l a => setInsert (setInsert l (a.2 / 32)) ((a.2 + n - 1) / 32)) []).length

/-- Count the sectors charged (20 Table 20.3 MEM_SECTORS). -/
def State.countSectors (s : State) (k : IssueCtx) (accs : List (Nat × Nat)) (n : Nat) : State :=
  s.countCl k.c 4 k.ctx (sectorCount accs n)

/-- R151: some access reaches past the local store. -/
def lsOutside (p : Party) (accs : List (Nat × Nat)) (n : Nat) : Bool :=
  accs.any fun a => decide (p.lsBytes < a.2 + n)

/-- The value of each lane as a list of 32, 0 where a lane has none. -/
def laneList (l : List (Nat × Nat)) : List Nat :=
  (List.range 32).map fun i => ((l.find? fun x => x.1 == i).map Prod.snd).getD 0

/-! ### Translating and reading for a rope -/

/-- Stall the issuing rope, as it stood before the issue, on a translation fault (09 R310). -/
def State.stallRope (s : State) (k : IssueCtx) (cause entry va : Nat) (n : Need) : State :=
  let s1 := s.xltFault ⟨.rope k.c k.slot, n.code, cause, k.ctx, va, entry⟩
  match Table.find (s1.cluster k.c).ropes k.slot with
  | some r => s1.setRope k.c k.slot { r with stall := some (k.ctx, blockOf va) }
  | none => s1

/-- The addresses of the lines that a set of accesses touches, in lane order. -/
def accLines (accs : List (Nat × Nat)) (n : Nat) : List Nat :=
  accs.foldr (fun a l => lineStarts a.2 n ++ l) []

/-- ADDR_FORM (R200), then translation of every line; none where the rope halts or stalls. -/
def State.ropeXlat (s : State) (k : IssueCtx) (need : Need) (accs : List (Nat × Nat)) (n : Nat) :
    State × Option (List (Nat × Xlat)) :=
  let all := accLines accs n
  match all.find? fun a => decide (2 ^ 56 ≤ a) with
  | some a => (s.failAt k Code.addrForm a 1, none)
  | none =>
    match s.xlatAll (.cluster k.c) k.ctx need all with
    | (s1, .ok l) => (s1, some l)
    | (s1, .fault cause entry va) => (s1.stallRope k cause entry va need, none)

/-- Some line lies in the host aperture. -/
def touchesHost (l : List (Nat × Xlat)) : Bool :=
  l.any fun x => match x.2 with
    | .host _ => true
    | _ => false

/-- Read translated lines: through the L1, or at the home after the cluster's own dirty bytes (`home`); host
lines from the host's answer, or as poison while the link is down (12 R392). none where the home refuses. -/
def State.ropeLines (s : State) (k : IssueCtx) (home alloc : Bool) (host : Option HostAnswer)
    (ls : List (Nat × Xlat)) : State × Option (List (Nat × Line × BitVec 4)) :=
  ls.foldl (fun (r : State × Option (List (Nat × Line × BitVec 4))) x =>
    match r.2 with
    | none => r
    | some l =>
      match x.2 with
      | .mem pa =>
        if home then
          let s1 := r.1.l1Push k.c k.ctx x.1
          let h := s1.homeFetch k.ctx pa
          if h.2.2.2 then (h.1, some (l ++ [(x.1, h.2.1, h.2.2.1)])) else (s1.frameFault k.ctx pa, none)
        else
          let h := r.1.l1Read k.c k.ctx x.1 pa alloc
          if h.2.2.2 then (h.1, some (l ++ [(x.1, h.2.1, h.2.2.1)])) else (h.1.frameFault k.ctx pa, none)
      | .host a =>
        if !s.rbit .hqLinkStatus .up then (r.1, some (l ++ [(x.1, 0, 15)]))
        else (r.1, some (l ++ [(x.1, hostLine (host.getD ⟨[], []⟩) a, hostFailed (host.getD ⟨[], []⟩) a)]))
      | .fault _ _ => r) (s, some [])

/-- The first poisoned sector that the accesses use, as a VA. -/
def poisonedAt (l : List (Nat × Line × BitVec 4)) (accs : List (Nat × Nat)) (n : Nat) : Option Nat :=
  accs.findSome? fun a =>
    if !(fetched l a.2 n).2 then none
    else if (fetched l a.2 (min n (32 - a.2 % 32))).2 then some (a.2 / 32 * 32)
    else some (a.2 / 32 * 32 + 32)

/-- R546: the rope consumes poison and halts. -/
def State.ropePoison (s : State) (k : IssueCtx) (va : Nat) : State :=
  s.countConsumed.failAt k Code.poison va 1

/-- A read of device memory by a rope: the bytes of each lane, or none where the rope has halted or stalled.
The L1 serves it, or the home (`home`). -/
def State.ropeRead (s : State) (k : IssueCtx) (need : Need) (home alloc : Bool) (host : Option HostAnswer)
    (accs : List (Nat × Nat)) (n : Nat) : State × Option (List (Nat × Xlat) × List (Nat × Nat)) :=
  match s.ropeXlat k need accs n with
  | (s1, none) => (s1, none)
  | (s1, some ls) =>
    match s1.ropeLines k home alloc host ls with
    | (s2, none) => (s2, none)
    | (s2, some l) =>
      match poisonedAt l accs n with
      | some va => (s2.ropePoison k va, none)
      | none => (s2, some (ls, accs.map fun a => (a.1, (fetched l a.2 n).1)))

/-! ### Writing for a rope -/

/-- The bytes that a set of writes leaves in each line: a byte takes the value of the last write (R157). -/
def gatherLines (ws : List (Nat × Nat)) (n : Nat) : Table (Line × BitVec 128) :=
  ws.foldl (fun t w =>
    (splitLines 3 w.1 (leBytes n w.2)).foldl (fun t p =>
      let old := (Table.find t p.1).getD (0, 0)
      Table.insert t p.1 (mergeLine old.1 p.2.1 p.2.2, old.2 ||| p.2.2)) t) []

/-- The bytes of a line with their enables, for a posted write. -/
def enabledBytes (d : Line) (m : BitVec 128) : List (Option Byte) :=
  (List.range 128).map fun i => if m.getLsbD i then some (BitVec.ofNat 8 (lineNat d i 1)) else none

/-- Write gathered lines: through the L1, at the home (`home`), or as posted writes to the host. -/
def State.ropeWriteLines (s : State) (k : IssueCtx) (home alloc : Bool) (ls : List (Nat × Xlat))
    (ws : Table (Line × BitVec 128)) : State :=
  ws.foldl (fun s w =>
    match (ls.find? fun x => x.1 == w.1).map Prod.snd with
    | some (.mem pa) =>
      if home then
        match (s.l1Push k.c k.ctx w.1).homeWrite k.ctx pa w.2.1 w.2.2 with
        | (s1, true) => s1
        | (s1, false) => s1.frameFault k.ctx pa
      else s.l1Write k.c k.ctx w.1 pa w.2.1 w.2.2 alloc
    | some (.host a) => s.hostWrite a (enabledBytes w.2.1 w.2.2)
    | _ => s) s

/-! ### Loads and stores -/

/-- A loaded value of `n` bytes as its registers hold it: sign- or zero-extended (R201). -/
def extendLoad (sext : Bool) (n x : Nat) : Nat :=
  if sext && decide (n < 4) then (((signed (8 * n) x) % ((2 ^ 32 : Nat) : Int))).toNat else x

/-- The host addresses of the 32-byte sectors of the aperture that accesses of `n` bytes touch, each once, in lane
order. -/
def hostSectors (accs : List (Nat × Nat)) (n : Nat) : List Nat :=
  (accs.filter fun a => decide (apertureBase ≤ a.2)).foldl (fun l a =>
    (List.range ((a.2 + n - 1) / 32 - a.2 / 32 + 1)).foldl (fun l j =>
      let h := (a.2 - apertureBase) / 32 * 32 + 32 * j
      if l.contains h then l else l ++ [h]) l) []

/-- Send the read requests of some sectors of host memory (12 Table 12.5). -/
def State.readSectors (s : State) (l : List Nat) : State := l.foldl (fun s a => s.hostRead a 32) s

/-- Read the aperture: send the requests, and wait for their completion (07 R237). -/
def State.waitAperture (s : State) (k : IssueCtx) (cvt : Bool) (f : MFmt) (sectors : List Nat) : State :=
  let id := s.pcie.nextRead
  let s1 := { s with pcie := { s.pcie with
    nextRead := id + 1, apReads := s.pcie.apReads ++ [(id, ApReader.rope k.c k.slot sectors)] } }
  (s1.readSectors sectors).putRope k { k.rope with wait := .aperture cvt f id }

/-- Each aperture read of a rope that fails, the link being down or the host's answer saying so, is counted
(12 R392). -/
def State.countDown (s : State) (k : IssueCtx) (host : Option HostAnswer) (sectors : List Nat) : State :=
  let up := s.rbit .hqLinkStatus .up
  (sectors.filter fun a => !up || (host.getD ⟨[], []⟩).failed.contains a).foldl (fun s a =>
    s.apertureFail (s.clusterInfo k.c 0 k.slot 0 0 0) k.ctx a) s

/-- A load-like read of device memory: lines in the aperture wait for the host unless its answer is here. -/
def State.ropeLoadVals (s : State) (k : IssueCtx) (cvt : Bool) (f : MFmt) (host : Option HostAnswer)
    (accs : List (Nat × Nat)) (n : Nat) : State × Option (List (Nat × Nat)) :=
  match s.ropeXlat k needRead accs n with
  | (s1, none) => (s1, none)
  | (s1, some ls) =>
    if touchesHost ls && host.isNone && s1.rbit .hqLinkStatus .up then (s1.waitAperture k cvt f (hostSectors accs n), none)
    else
      match (s1.countDown k host (hostSectors accs n)).ropeLines k false (f.ch == 0) host ls with
      | (s2, none) => (s2, none)
      | (s2, some l) =>
        match poisonedAt l accs n with
        | some va => (s2.ropePoison k va, none)
        | none => (s2, some (accs.map fun a => (a.1, (fetched l a.2 n).1)))

/-- LD's effect (R201). -/
def State.ropeLd (s : State) (k : IssueCtx) (f : MFmt) (host : Option HostAnswer) : State :=
  let n := 2 ^ f.size.toNat
  let accs := k.rope.addrs f (memOffset f) (if bit f.sub.toNat 1 then n else 0) k.e
  let done := fun (s : State) (vals : List (Nat × Nat)) =>
    (s.countSectors k accs n).finish k
      (({ k.rope with wait := .none }).vwrite f.data.toNat (sizeRegs f.size.toNat) k.e
        (laneList (vals.map fun (v : Nat × Nat) => (v.1, extendLoad (bit f.sub.toNat 0) n v.2))))
  if accs.isEmpty then s.finish k { k.rope with wait := .none }
  else if f.spc then
    if lsOutside k.party accs n then s.fail k Code.lsBounds
    else done s (accs.map fun a => (a.1, k.party.lsRead a.2 n))
  else
    match s.ropeLoadVals k false f host accs n with
    | (s1, none) => s1
    | (s1, some vals) => done s1 vals

/-- The checks of LD and ST: `subMask` are the SUB bits the opcode uses; LIDX needs UADDR (R201). -/
def ldstChecks (f : MFmt) (subMask : Nat) : Checks :=
  { legal := f.clean { scope := false, subMask := subMask } && addrLegal f && decide (f.size.toNat ≤ 5) &&
      vecLegal f.data.toNat (sizeRegs f.size.toNat) && (!bit f.sub.toNat 1 || f.uaddr)
    range := fun v => addrRange v f && vecRange v f.data.toNat (sizeRegs f.size.toNat) }

def execLd (i : Issue) (f : MFmt) (s : State) : Host.Outcome State Fault Refusal :=
  issueMem i f.guard (ldstChecks f 3) s fun s k => s.ropeLd k f none

/-- ST (R201): the bytes of a store, the highest lane's where lanes overlap (R157). -/
def execSt (i : Issue) (f : MFmt) (s : State) : Host.Outcome State Fault Refusal :=
  issueMem i f.guard (ldstChecks f 2) s fun s k =>
    let n := 2 ^ f.size.toNat
    let accs := k.rope.addrs f (memOffset f) (if bit f.sub.toNat 1 then n else 0) k.e
    let vals := k.rope.vread f.data.toNat (sizeRegs f.size.toNat)
    let ws := accs.map fun a => (a.2, vals.getD a.1 0)
    if accs.isEmpty then s.finish k k.rope
    else if f.spc then
      if lsOutside k.party accs n then s.fail k Code.lsBounds
      else
        let p := ws.foldl (fun p w => p.lsWrite w.1 (leBytes n w.2)) k.party
        ((s.setParty k.c k.rope.party p).countSectors k accs n).finish k k.rope
    else
      match s.ropeXlat k needWrite accs n with
      | (s1, none) => s1
      | (s1, some ls) =>
        let s2 := (s1.countSectors k accs n).finish k k.rope
        s2.ropeWriteLines k false (f.ch == 0) ls (gatherLines ws n)

/-! ### Atomics (05 R159 to R162, 06 Table 6.14) -/

/-- R160: lanes in order on each distinct address: the final value of each address and each lane's returned
value. -/
def atomLanes (sub w : Nat) (start : Nat → Nat) (accs : List (Nat × Nat)) (val cmp : Nat → Nat) :
    Table Nat × List (Nat × Nat) :=
  accs.foldl (fun (r : Table Nat × List (Nat × Nat)) a =>
    let m := (Table.find r.1 a.2).getD (start a.2)
    (Table.insert r.1 a.2 (atomApply sub w m (val a.1) (cmp a.1)), r.2 ++ [(a.1, m)])) ([], [])

/-- Some address is not a multiple of `n`. -/
def misaligned (accs : List (Nat × Nat)) (n : Nat) : Bool := accs.any fun a => a.2 % n != 0

/-- The value read at an address, by the first lane that names it. -/
def valueAt (accs : List (Nat × Nat)) (vals : List (Nat × Nat)) (a : Nat) : Nat :=
  ((accs.zip vals).findSome? fun x => if x.1.2 == a then some x.2.2 else none).getD 0

/-- Read, change and write words of `n` bytes at the lanes' addresses: in local store, in the L1 at rope and
party scope, or at the home (R162, R203). `upd` gives the final value of each address and the lanes' results;
`fin` completes the instruction with them. -/
def State.ropeRmw (s : State) (k : IssueCtx) (f : MFmt) (accs : List (Nat × Nat)) (n : Nat) (home : Bool)
    (upd : (Nat → Nat) → Table Nat × List (Nat × Nat)) (fin : State → List (Nat × Nat) → State) : State :=
  if f.spc then
    if lsOutside k.party accs n then s.fail k Code.lsBounds
    else
      let r := upd fun a => k.party.lsRead a n
      let p := r.1.foldl (fun p w => p.lsWrite w.1 (leBytes n w.2)) k.party
      fin ((s.setParty k.c k.rope.party p).countSectors k accs n) r.2
  else
    match s.ropeRead k needAtomic home (f.ch == 0) none accs n with
    | (s1, none) => s1
    | (s1, some (ls, vals)) =>
      let r := upd (valueAt accs vals)
      fin ((s1.countSectors k accs n).ropeWriteLines k home (f.ch == 0) ls (gatherLines r.1 n)) r.2

/-- ATOM and RED (R160, R202): `ret` returns the old values into DATA. DEDUCED (log 135): an access both
misaligned and past the local store raises the alignment fault, detected at issue, before LS_BOUNDS, which Table
5.8 has detected at the access. -/
def atomOp (i : Issue) (f : MFmt) (ret : Bool) (s : State) : Host.Outcome State Fault Refusal :=
  let sub := f.sub.toNat
  let nr := sizeRegs f.size.toNat
  let cas := sub == 9
  issueMem i f.guard
    { legal := f.clean { subMask := 15 } && addrLegal f && (f.size == 2 || f.size == 3) &&
        vecLegal f.data.toNat nr && (if ret then decide (sub ≤ 10) else decide (sub ≤ 7) || sub == 10)
      range := fun v => addrRange v f && vecRange v f.data.toNat (if cas then 2 * nr else nr)
      timed := decide (1 ≤ f.scope.toNat) && (ret || sub == 10) } s
    fun s k =>
      let n := 2 ^ f.size.toNat
      let accs := k.rope.addrs f (memOffset f) 0 k.e
      let a := k.rope.vread f.data.toNat nr
      -- the register after a zero operand is the zero operand
      let b := if f.data = 255 then a else k.rope.vread (f.data.toNat + nr) nr
      let val := fun l => if cas then b.getD l 0 else a.getD l 0
      let cmp := fun l => a.getD l 0
      if accs.isEmpty then s.finish k k.rope
      else if misaligned accs n then s.fail k Code.atomicAlign
      else s.ropeRmw k f accs n (decide (2 ≤ f.scope.toNat))
        (fun start => atomLanes sub (8 * n) start accs val cmp)
        (fun s rets => s.finish k
          (if ret then k.rope.vwrite f.data.toNat nr k.e (laneList rets) else k.rope))

def execAtom (i : Issue) (f : MFmt) (s : State) : Host.Outcome State Fault Refusal := atomOp i f true s

def execRed (i : Issue) (f : MFmt) (s : State) : Host.Outcome State Fault Refusal := atomOp i f false s

/-! ### Tally cells (05 R163 to R169, 06 R204) -/

/-- The SIZE that a tally type needs (R204). -/
def tallySize (ty : Nat) : Nat := if ty = 1 ∨ ty = 4 then 3 else 2

/-- A lane's value of a tally type: 0 FP32, 1 FP64, 2 BF16, 3 INT32, 4 INT64. -/
def tallyValue (ty x : Nat) : Fp :=
  match ty with
  | 0 => fp32.decode (x % 2 ^ 32)
  | 1 => fp64.decode (x % 2 ^ 64)
  | 2 => bf16.decode (x % 2 ^ 16)
  | 3 => Fp.ofInt (signed 32 x)
  | _ => Fp.ofInt (signed 64 x)

/-- TALLY.ADD (R164): lanes of one cell combined by exact integer addition; device cells at their homes. -/
def execTallyAdd (i : Issue) (f : MFmt) (s : State) : Host.Outcome State Fault Refusal :=
  let ty := f.sub.toNat
  let nr := sizeRegs f.size.toNat
  issueMem i f.guard
    { legal := f.clean { subMask := 7 } && addrLegal f && decide (ty ≤ 4) && f.size.toNat == tallySize ty &&
        vecLegal f.data.toNat nr
      range := fun v => addrRange v f && vecRange v f.data.toNat nr } s
    fun s k =>
      let accs := k.rope.addrs f (tallyOffset f) 0 k.e
      let vals := k.rope.vread f.data.toNat nr
      let add := fun l => tallyAddend (tallyQ f) (tallyValue ty (vals.getD l 0))
      let flags := accs.foldl (fun t a => t.join (add a.1).2) k.party.tally
      if accs.isEmpty then s.finish k k.rope
      else if misaligned accs 32 then s.fail k Code.tallyAlign
      else s.ropeRmw k f accs 32 true
        (fun start => (accs.foldl (fun t a =>
          Table.insert t a.2 (tallySum ((Table.find t a.2).getD (start a.2)) (add a.1).1)) [], []))
        (fun s _ =>
          let s1 := match Table.find (s.cluster k.c).parties k.rope.party with
            | some p => s.setParty k.c k.rope.party { p with tally := flags }
            | none => s
          s1.finish k k.rope)

/-- X × 2^Q rounded once to FP32 or FP64; a zero is +0 (R167). -/
def tallyConvert (fmt : Fmt) (q : Int) (x : Nat) : Nat :=
  let v := signed 256 x
  fmt.round (.fin (decide (v < 0)) v.natAbs q)

/-- TALLY.CVT's effect: it reads cells as a load does (R167). -/
def State.ropeTallyCvt (s : State) (k : IssueCtx) (f : MFmt) (host : Option HostAnswer) : State :=
  let accs := k.rope.addrs f (tallyOffset f) 0 k.e
  let fmt := if f.sub == 0 then fp32 else fp64
  let done := fun (s : State) (vals : List (Nat × Nat)) =>
    (s.countSectors k accs 32).finish k
      (({ k.rope with wait := .none }).vwrite f.data.toNat (sizeRegs f.size.toNat) k.e
        (laneList (vals.map fun (v : Nat × Nat) => (v.1, tallyConvert fmt (tallyQ f) v.2))))
  if accs.isEmpty then s.finish k { k.rope with wait := .none }
  else if misaligned accs 32 then s.fail k Code.tallyAlign
  else if f.spc then
    if lsOutside k.party accs 32 then s.fail k Code.lsBounds
    else done s (accs.map fun a => (a.1, k.party.lsRead a.2 32))
  else
    match s.ropeLoadVals k true f host accs 32 with
    | (s1, none) => s1
    | (s1, some vals) => done s1 vals

def execTallyCvt (i : Issue) (f : MFmt) (s : State) : Host.Outcome State Fault Refusal :=
  let nr := sizeRegs f.size.toNat
  issueMem i f.guard
    { legal := f.clean { subMask := 1 } && addrLegal f && f.size.toNat == tallySize f.sub.toNat &&
        vecLegal f.data.toNat nr
      range := fun v => addrRange v f && vecRange v f.data.toNat nr } s
    fun s k => s.ropeTallyCvt k f none

/-- TALLY.FLAGS (R204): the party's flags into u[DATA]; CLEAR then clears them. -/
def execTallyFlags (i : Issue) (f : MFmt) (s : State) : Host.Outcome State Fault Refusal :=
  issue i f.guard
    { legal := f.clean { addr := false, scope := false, size := false, ch := false, off := false, subMask := 1 } &&
        uLegal f.data.toNat
      range := fun _ => true
      ropeLevel := true } s
    fun s k =>
      let s1 := if f.sub == 1 then s.setParty k.c k.rope.party { k.party with tally := .clear } else s
      s1.finish k (k.rope.setU f.data.toNat k.party.tally.word)

/-! ### SPINWAIT (05 R173, 06 R205) -/

/-- R205: SPINWAIT's comparison of a value with v[DATA]. -/
def spinHolds (sub x y : Nat) : Bool :=
  match sub with
  | 0 => x == y
  | 1 => x != y
  | 2 => decide (y ≤ x)
  | _ => decide (x < y)

/-- One read of the lanes that SPINWAIT still waits for; the rope passes once all are satisfied. Lanes that
read the aperture with no answer of the host stay unsatisfied. -/
def State.spin (s : State) (k : IssueCtx) (f : MFmt) (rest : Mask) (host : Option HostAnswer) : State :=
  let n := 2 ^ f.size.toNat
  let accs := k.rope.addrs f (memOffset f) 0 rest
  let want := k.rope.vread f.data.toNat (sizeRegs f.size.toNat)
  let done := fun (s : State) (vals : List (Nat × Nat)) =>
    let ok := maskOf ((List.range 32).map fun i =>
      vals.any fun v => v.1 == i && spinHolds f.sub.toNat v.2 (want.getD i 0))
    let left := rest &&& ~~~ ok
    let r := { k.rope with livelock := if rest &&& ok = 0 then k.rope.livelock else 0 }
    let s1 := s.countSectors k accs n
    if left = 0 then s1.finish k { r with wait := .none } else s1.putRope k { r with wait := .spin f left }
  if rest = 0 then s.finish k { k.rope with wait := .none }
  else if f.spc then
    if lsOutside k.party accs n then s.fail k Code.lsBounds
    else done s (accs.map fun a => (a.1, k.party.lsRead a.2 n))
  else
    match s.ropeXlat k needRead accs n with
    | (s1, none) => s1
    | (s1, some ls) =>
      let home := decide (2 ≤ f.scope.toNat)
      let s2 := s1.acquireAt k.c k.ctx f.scope.toNat
      if touchesHost ls && host.isNone && s2.rbit .hqLinkStatus .up then
        (s2.readSectors (hostSectors accs n)).putRope k { k.rope with wait := .spin f rest }
      else
        match (s2.countDown k host (hostSectors accs n)).ropeLines k home (f.ch == 0) host ls with
        | (s3, none) => s3
        | (s3, some l) =>
          match poisonedAt l accs n with
          | some va => s3.ropePoison k va
          | none => done s3 (accs.map fun a => (a.1, (fetched l a.2 n).1))

def execSpinwait (i : Issue) (f : MFmt) (s : State) : Host.Outcome State Fault Refusal :=
  let nr := sizeRegs f.size.toNat
  issueMem i f.guard
    { legal := f.clean { subMask := 3 } && addrLegal f && (f.size == 2 || f.size == 3) && vecLegal f.data.toNat nr
      range := fun v => addrRange v f && vecRange v f.data.toNat nr
      timed := decide (1 ≤ f.scope.toNat) } s
    fun s k => s.spin k f k.e none

/-- A waiting rope that may act now: the package runs, its cluster is not halted, no fault stalls it. -/
def State.waiting (s : State) (c slot : Nat) (g : Guard) : Option IssueCtx :=
  if !s.ready || s.clusterHalted c then none
  else
    match s.ropeCtx c slot g with
    | some k => if k.rope.stall = none then some k else none
    | none => none

/-- SPINWAIT_REREAD (R173): the unsatisfied lanes read their address again. -/
def execSpinwaitReread (c slot : Nat) (host : HostAnswer) (s : State) : Host.Outcome State Fault Refusal :=
  match s.waiting c slot noGuard with
  | none => .next s
  | some k =>
    match k.rope.wait with
    | .spin f rest => .next (s.spin k f rest (some host))
    | _ => .next s

/-! ### Group locks (05 R170 to R172) -/

/-- R170: the owner value of a lane. -/
def lockOwner (c slot lane : Nat) : Nat := 1 + 2048 * c + 32 * slot + lane

/-- Set the pending mask of the top entry. -/
def Rope.setPending (r : Rope) (m : Mask) : Rope :=
  match r.stack with
  | [] => r
  | t :: rest => { r with stack := { t with pendingMask := m } :: rest }

/-- R171: one GLOCK pass of the lanes `e`; `r` is the rope with its entry on the stack. The lowest lane of
each free lock wins it. -/
def State.lockPass (s : State) (k : IssueCtx) (f : MFmt) (r : Rope) (e : Mask) : State :=
  let accs := k.rope.addrs f 0 0 e
  s.ropeRmw k f accs 8 (decide (2 ≤ f.scope.toNat))
    (fun start => accs.foldl (fun (t : Table Nat × List (Nat × Nat)) a =>
      if (Table.find t.1 a.2).getD (start a.2) = 0 then
        (Table.insert t.1 a.2 (lockOwner k.c k.slot a.1), t.2 ++ [(a.1, 1)])
      else t) ([], []))
    (fun s won =>
      let winners := maskOf ((List.range 32).map fun i => won.any fun w => w.1 == i)
      let r1 := r.setPending (e &&& ~~~ winners)
      if winners = 0 then s.putRope k { r1 with wait := .glock f e }
      else s.finish k { r1 with active := winners, wait := .none, livelock := 0 })

/-- The checks of GLOCK and GUNLOCK (R205): DATA is reserved; `off` says whether OFF has a meaning. -/
def lockChecks (f : MFmt) (legal timed : Bool) : Checks :=
  { legal := f.clean { data := false } && addrLegal f && f.size == 3 && legal
    range := fun v => addrRange v f
    timed := timed }

/-- GLOCK (R171): a pass is the first unless the rope took up pending lanes of this GLOCK's entry. -/
def execGlock (i : Issue) (f : MFmt) (s : State) : Host.Outcome State Fault Refusal :=
  issueMem i f.guard (lockChecks f (f.off != 0) (decide (1 ≤ f.scope.toNat))) s
    fun s k =>
      let r := k.rope
      let join := r.pc + BitVec.ofNat 64 (8 * f.off.toNat)
      let later := k.took && (match r.stack with
        | t :: _ => t.join == join && t.pendingPc == r.pc
        | [] => false)
      let bad := misaligned (r.addrs f 0 0 k.e) 8
      if later then
        if bad then s.fail k Code.atomicAlign else s.lockPass k f r k.e
      else if k.e = 0 then s.putRope k { r with pc := join }
      else if 32 ≤ r.stack.length then s.fail k Code.maskDepth
      else if bad then s.fail k Code.atomicAlign
      else s.lockPass k f { r with stack := ⟨join, r.active, r.pc, 0⟩ :: r.stack } k.e

/-- GLOCK_PASS (R171): a pass that won nothing is repeated with the same lanes. -/
def execGlockPass (c slot : Nat) (s : State) : Host.Outcome State Fault Refusal :=
  match s.waiting c slot noGuard with
  | none => .next s
  | some k =>
    match k.rope.wait with
    | .glock f e => .next (s.lockPass k f k.rope e)
    | _ => .next s

/-- Some lane's lock word, read for that lane alone, does not hold the lane's owner value (R172). A word that
cannot be read decides nothing here. -/
def State.notOwner (s : State) (k : IssueCtx) (f : MFmt) (accs : List (Nat × Nat)) : Bool :=
  accs.any fun a =>
    if f.spc then !lsOutside k.party [a] 8 && k.party.lsRead a.2 8 != lockOwner k.c k.slot a.1
    else match (s.ropeRead k needAtomic (decide (2 ≤ f.scope.toNat)) false none [a] 8).2 with
      | some (_, vals) => vals.any fun v => v.2 != lockOwner k.c k.slot v.1
      | none => false

/-- GUNLOCK (R171, R172): each lane that holds its lock writes 0; the rope then applies R143. LOCK_OWNER, detected
at issue (Table 5.8), comes before the faults of the access (R220). -/
def execGunlock (i : Issue) (f : MFmt) (s : State) : Host.Outcome State Fault Refusal :=
  issueMem i f.guard (lockChecks f true false) s
    fun s k =>
      let accs := k.rope.addrs f (memOffset f) 0 k.e
      let home := decide (2 ≤ f.scope.toNat)
      if accs.isEmpty then s.finish k k.rope
      else if misaligned accs 8 then s.fail k Code.atomicAlign
      else if s.notOwner k f accs then s.fail k Code.lockOwner
      else if f.spc then
        if lsOutside k.party accs 8 then s.fail k Code.lsBounds
        else
          let p := accs.foldl (fun p a => p.lsWrite a.2 (leBytes 8 0)) k.party
          ((s.setParty k.c k.rope.party p).countSectors k accs 8).finish k k.rope
      else
        match s.ropeRead k needAtomic home (f.ch == 0) none accs 8 with
        | (s1, none) => s1
        | (s1, some (ls, _)) =>
          let s2 := (s1.countSectors k accs 8).finish k k.rope
          s2.ropeWriteLines k home (f.ch == 0) ls (gatherLines (accs.map fun a => (a.2, 0)) 8)

/-! ### FENCE (06 R206, 07 R232) -/

/-- Count a wide fence or bell operation (20 Table 20.3 FENCE_WIDE). -/
def State.countWide (s : State) (k : IssueCtx) (scope : Nat) : State :=
  if scope < 2 then s else s.countCl k.c 14 k.ctx 1

/-- FENCE: 0 acquire, 1 release, 2 acquire-release; acquire-release acts on the L1 as acquire (Table 7.2). -/
def execFence (i : Issue) (f : MFmt) (s : State) : Host.Outcome State Fault Refusal :=
  issue i f.guard
    { legal := f.clean { data := false, addr := false, size := false, ch := false, off := false, subMask := 3 } &&
        decide (f.sub.toNat ≤ 2)
      range := fun _ => true
      ropeLevel := true } s
    fun s k =>
      let sc := f.scope.toNat
      let s1 := (s.countWide k sc).finish k k.rope
      if f.sub = 1 then s1.releaseAt k.c k.ctx sc else s1.acquireAt k.c k.ctx sc

end Sys2Proof.Machine
end

