-- ==== Sys2Proof/Machine/Bells.lean ====
section
/-! DEFINITION. The bell unit (07_memory_model_bells.md R241 to R250), the fields and ends of fetched commands
(13_command_queues.md R402, R421, R427), and the bell instructions (06_instruction_set.md R212). -/

namespace Sys2Proof.Machine

/-! ### Command records (13 Tables 13.1 and 13.3) -/

/-- Word `i` of a command record: 0 the header, 1 to 6 W1 to W6, 7 the seal. -/
def Cmd.word (c : Cmd) (i : Nat) : Nat := bits c.record.toNat (64 * i) 64

def Cmd.opcode (c : Cmd) : Nat := bits c.record.toNat 0 8
def Cmd.flags (c : Cmd) : Nat := bits c.record.toNat 8 8
def Cmd.tag (c : Cmd) : Nat := bits c.record.toNat 16 16
def Cmd.user (c : Cmd) : Nat := bits c.record.toNat 32 32
def Cmd.seq (c : Cmd) : Nat := bits c.record.toNat 448 32

/-- Completion statuses (Table 13.5). -/
def stOk : Nat := 0
def stBadCmd : Nat := 1
def stPriv : Nat := 2
def stBellOwner : Nat := 3
def stSealCrc : Nat := 4
def stPartyShape : Nat := 5
def stPoison : Nat := 6
def stCtxFailed : Nat := 7
def stAborted : Nat := 8

/-- Set the state of command `idx` of a queue. -/
def State.setCmd (s : State) (n idx : Nat) (st : CmdState) : State :=
  let q := s.queue n
  (s.setQueue n { q with cmds := q.cmds.map fun c => if c.index = idx then { c with state := st } else c }).showWait n

/-- The command has ended already, whatever its record waits for. -/
def CmdState.hasEnded : CmdState → Bool
  | .finished _ _ _ => true
  | .full _ _ _ => true
  | _ => false

/-- Command `idx` of a queue has ended: its context failed, or its owner disabled the queue. -/
def State.cmdOver (s : State) (n idx : Nat) : Bool := (s.queue n).cmds.any fun c => c.index == idx && c.state.hasEnded

/-- A command of a queue has met its completion condition or failed; a failure with status 1 to 6 stops the
queue (R427). COMMAND_COMPLETE writes the record. A command that has ended before keeps its status (R428). -/
def State.endCmd (s : State) (n idx status result detail : Nat) : State :=
  let s1 := if s.cmdOver n idx then s
    else s.setCmd n idx (.finished status (BitVec.ofNat 64 result) (BitVec.ofNat 64 detail))
  if 1 ≤ status ∧ status ≤ 6 ∧ s1.rf (.hqSqStatus n) .state = qRun then s1.setRf (.hqSqStatus n) .state qStopped
  else s1

/-! ### The bell unit -/

/-- A bell's value. -/
def State.bell (s : State) (b : Nat) : Word := s.reg (.bellVal b)

/-- R243: a context's operation on a bell is accepted. -/
def State.bellOk (s : State) (ctx b : Nat) : Bool :=
  s.rf (.bellOwner b) .ctx == ctx || s.rf (.bellOwner b) .ctx == 63

/-- Note the bell of a refused or dropped operation (Table 7.9). -/
def State.lastBell (s : State) (b : Nat) : State := s.setRf .bellStatus .lastBell b

/-- R243: a rope's operation on a bell is refused: counted, and the rope raises BELL_OWNER. -/
def State.bellRefuse (s : State) (c slot ctx : Nat) (pc : Word) (b : Nat) : State :=
  ((s.satRf .bellStatus .ownerFaults 1).lastBell b).ropeFault c slot ctx pc Code.bellOwner 0 0

/-- Every rope of a cluster that a test selects, as (slot, rope). -/
def Cluster.ropesThat (k : Cluster) (p : Rope → Bool) : List (Nat × Rope) := k.ropes.filter fun e => p e.2

/-- Every rope that a test selects, as (cluster, slot, rope). -/
def State.ropesThat (s : State) (p : Rope → Bool) : List (Nat × Nat × Rope) :=
  s.clusters.foldr (fun e l => (e.2.ropesThat p).map (fun r => (e.1, r.1, r.2)) ++ l) []

/-- The context of a rope's party. -/
def Cluster.ropeCtxId (k : Cluster) (r : Rope) : Nat :=
  match Table.find k.parties r.party with
  | some p => p.par.ctx
  | none => 0

/-- A rope whose wait is satisfied goes on after its instruction, having made the acquire of its wait. -/
def State.wakeRope (s : State) (c slot : Nat) (r : Rope) (scope : Nat) : State :=
  let ctx := (s.cluster c).ropeCtxId r
  (s.setRope c slot { r.next with wait := .none }).acquireAt c ctx scope

/-- R244, R408: every wait on a bell that its value satisfies ends. -/
def State.bellWake (s : State) (b : Nat) : State :=
  let v := s.bell b
  let ropes := s.ropesThat fun r => match r.wait with
    | .bell x t _ => x == b && decide (t.toNat ≤ v.toNat)
    | _ => false
  let s1 := ropes.foldl (fun s e =>
    match e.2.2.wait with
    | .bell _ _ scope => s.wakeRope e.1 e.2.1 e.2.2 scope
    | _ => s) s
  s1.queues.foldl (fun s e =>
    e.2.cmds.foldl (fun s c =>
      match c.state with
      | .waiting 2 =>
        if c.word 1 = b ∧ c.word 2 ≤ v.toNat then s.endCmd e.1 c.index stOk (c.word 2) 0 else s
      | _ => s) s) s1

/-- Add an increment at the bell unit, modulo 2^64 (R241), and satisfy waits; `ctx` is 63 for operations with no
context. -/
def State.bellAdd (s : State) (b : Nat) (inc : Word) (ctx : Nat) : State :=
  ((s.setReg (.bellVal b) (s.bell b + inc)).countPkg 12 0 ctx 1).bellWake b

/-- A remote signal, after its put's data has committed (R239, R243). -/
def State.bellRemote (s : State) (b : Nat) (inc : Word) : State :=
  if s.rbit (.bellOwner b) .remote then s.bellAdd b inc 63
  else (s.satRf .bellStatus .remoteDrop 1).lastBell b

/-- A signal of the host or of a Square core (R243). -/
def State.bellHostSignal (s : State) (m : Master) (b : Nat) (inc : Word) : State :=
  if m = .host ∧ !s.rbit (.bellOwner b) .host then (s.satRf .bellStatus .hostDrop 1).lastBell b
  else s.bellAdd b inc 63

/-- R247: an owner write sets the value to 0 and cancels every wait: a rope raises BELL_OWNER, a command fails
with it. -/
def State.bellOwnerWrite (s : State) (b : Nat) (v : Word) : State :=
  let s1 := (((s.setReg (.bellOwner b) (v &&& 0x33F)).setReg (.bellVal b) 0)).countPkg 12 0 63 1
  let onBell := fun (r : Rope) => match r.wait with
    | .bell x _ _ => x == b
    | _ => false
  let s2 := (s1.ropesThat onBell).foldl (fun s e =>
    match Table.find (s.cluster e.1).ropes e.2.1 with
    | some r => if onBell r then s.ropeFault e.1 e.2.1 ((s.cluster e.1).ropeCtxId r) r.pc Code.bellOwner 0 0 else s
    | none => s) s1
  s2.queues.foldl (fun s e =>
    e.2.cmds.foldl (fun s c =>
      match c.state with
      | .waiting 2 => if c.word 1 = b then s.endCmd e.1 c.index stBellOwner 0 b else s
      | _ => s) s) s2

/-! ### Bell instructions (06 Table 6.17) -/

/-- The checks of the bell instructions; `dst` and `sb` say which fields they use. -/
def bellChecks (f : VFmt) (dst sb : Bool) (modMask : Nat) (timed : Bool) : Checks :=
  { legal := f.clean { dst := dst, sa := true, sb := sb, modMask := modMask } && uLegal f.sa.toNat &&
      (!dst || uLegal f.dst.toNat) && (!sb || uLegal f.sb.toNat)
    range := fun _ => true
    timed := timed
    ropeLevel := true }

/-- The bell index of a bell instruction: u[SA]. -/
def IssueCtx.bellIndex (k : IssueCtx) (f : VFmt) : Nat := (k.rope.ureg f.sa.toNat).toNat

/-- BELL.SIG (R244): the release actions of its scope, then the increment. -/
def execBellSig (i : Issue) (f : VFmt) (s : State) : Host.Outcome State Fault Refusal :=
  issue i f.guard (bellChecks f false true 3 false) s
    fun s k =>
      let b := k.bellIndex f
      let scope := f.mod.toNat % 4
      if 16384 ≤ b then s.fail k Code.bellRange
      else
        let s1 := (s.countWide k scope).releaseAt k.c k.ctx scope
        if !s1.bellOk k.ctx b then s1.bellRefuse k.c k.slot k.ctx k.rope.pc b
        else (s1.finish k k.rope).bellAdd b (k.rope.ureg f.sb.toNat) k.ctx

/-- BELL.WAIT (R244): a satisfied wait makes the acquire actions of its scope. -/
def execBellWait (i : Issue) (f : VFmt) (s : State) : Host.Outcome State Fault Refusal :=
  issue i f.guard (bellChecks f false true 3 false) s
    fun s k =>
      let b := k.bellIndex f
      let scope := f.mod.toNat % 4
      let t := k.rope.ureg f.sb.toNat
      let s1 := s.countWide k scope
      if 16384 ≤ b then s.fail k Code.bellRange
      else if !s.bellOk k.ctx b then s1.bellRefuse k.c k.slot k.ctx k.rope.pc b
      else
        let s2 := s1.countPkg 12 0 k.ctx 1
        if t.toNat ≤ (s.bell b).toNat then (s2.finish k k.rope).acquireAt k.c k.ctx scope
        else s2.putRope k { k.rope with wait := .bell b t scope }

def execBellRead (i : Issue) (f : VFmt) (s : State) : Host.Outcome State Fault Refusal :=
  issue i f.guard (bellChecks f true false 0 true) s
    fun s k =>
      let b := k.bellIndex f
      if 16384 ≤ b then s.fail k Code.bellRange
      else if !s.bellOk k.ctx b then s.bellRefuse k.c k.slot k.ctx k.rope.pc b
      else (s.countPkg 12 0 k.ctx 1).finish k (k.rope.setU f.dst.toNat (s.bell b))

/-- BELL.XCHG: the old value into u[DST]; the new value may satisfy waits. -/
def execBellXchg (i : Issue) (f : VFmt) (s : State) : Host.Outcome State Fault Refusal :=
  issue i f.guard (bellChecks f true true 0 true) s
    fun s k =>
      let b := k.bellIndex f
      if 16384 ≤ b then s.fail k Code.bellRange
      else if !s.bellOk k.ctx b then s.bellRefuse k.c k.slot k.ctx k.rope.pc b
      else
        let s1 := (s.countPkg 12 0 k.ctx 1).finish k (k.rope.setU f.dst.toNat (s.bell b))
        (s1.setReg (.bellVal b) (k.rope.ureg f.sb.toNat)).bellWake b

/-! ### Signals and owner writes from BAR0 (R249, Tables 7.7 and 7.8) -/

/-- REGISTER_SIGNAL: a write of BELL_SIGn by the host or a Square core (R242, R251); another master's has no
effect. -/
def execRegisterSignal (m : Master) (b : Nat) (v : Word) (s : State) : Host.Outcome State Fault Refusal :=
  if !s.ready || !Block.bell.reached m || 16384 ≤ b then .next s else .next (s.bellHostSignal m b v)

/-- OWNER_WRITE: a write of BELL_OWNERn (R242, R247, R251). -/
def execOwnerWrite (m : Master) (b : Nat) (v : Word) (s : State) : Host.Outcome State Fault Refusal :=
  if !s.ready || !Block.bell.reached m || 16384 ≤ b then .next s else .next (s.bellOwnerWrite b v)

end Sys2Proof.Machine
end

