-- ==== Sys2Proof/Machine/Control.lean ====
section
/-! DEFINITION. Control and token instructions (06_instruction_set.md R190, R213 to R216), divergence and the
end of ropes (05_clusters_ropes_parties.md R142 to R144), livelock, and parties (05 R147 to R155). -/

namespace Sys2Proof

/-- The fields of format C that an opcode uses; every other must be 0 (06 R182). -/
structure CUse where
  pred : Bool := false
  tgt : Bool := false
  jn : Bool := false

/-- R182: the unused fields of a format C word are 0. -/
def CFmt.clean (f : CFmt) (u : CUse) : Bool :=
  f.res == 0 && (u.pred || (f.bp == 0 && !f.bn && !f.alw)) && (u.tgt || f.tgt == 0) && (u.jn || f.jn == 0)

/-- ALW = 1 reserves BP and BN (Table 6.5). -/
def CFmt.predClean (f : CFmt) : Bool := !f.alw || (f.bp == 0 && !f.bn)

end Sys2Proof

namespace Sys2Proof.Machine

/-! ### Branches -/

/-- The predicate of a branch or EXIT (R213). -/
def Rope.branchPred (r : Rope) (f : CFmt) : Mask :=
  if f.alw then BitVec.allOnes 32 else if f.bn then ~~~ r.preg f.bp.toNat else r.preg f.bp.toNat

/-- The branch address plus 8 × TGT. -/
def Rope.target (r : Rope) (f : CFmt) : Word :=
  r.pc + BitVec.ofInt 64 (8 * signed 22 f.tgt.toNat)

/-- R142: the effect of a branch; none where it needs a 33rd entry. -/
def Rope.branch (r : Rope) (p : Mask) (target join : Word) : Option Rope :=
  let next := r.pc + 8
  let taken := r.active &&& p
  let fall := r.active &&& ~~~ p
  if taken = 0 then some { r with pc := next }
  else if fall = 0 then some { r with pc := target }
  else
    let back := decide (target.toNat < next.toNat)
    let firstPc := if back then target else next
    let firstMask := if back then taken else fall
    let laterPc := if back then next else target
    let laterMask := if back then fall else taken
    let go := fun (st : List MaskEntry) => some { r with active := firstMask, pc := firstPc, stack := st }
    match r.stack with
    | t :: rest =>
      if t.join = join ∧ t.pendingPc = laterPc then go ({ t with pendingMask := t.pendingMask ||| laterMask } :: rest)
      else if 32 ≤ r.stack.length then none
      else go (⟨join, r.active, laterPc, laterMask⟩ :: r.stack)
    | [] => go [⟨join, r.active, laterPc, laterMask⟩]

/-- NOP (R215). -/
def execNop (i : Issue) (f : CFmt) (s : State) : Host.Outcome State Fault Refusal :=
  issue i noGuard { legal := f.clean {}, range := fun _ => true } s fun s k => s.finish k k.rope

/-- BRA (R213): with ALW = 0, JN = 0 is illegal; with ALW = 1, JN is reserved. -/
def execBra (i : Issue) (f : CFmt) (s : State) : Host.Outcome State Fault Refusal :=
  issue i noGuard
    { legal := f.clean { pred := true, tgt := true, jn := true } && f.predClean && (f.alw == (f.jn == 0))
      range := fun _ => true } s
    fun s k =>
      match k.rope.branch (k.rope.branchPred f) (k.rope.target f) (k.rope.pc + BitVec.ofNat 64 (8 * f.jn.toNat)) with
      | some r => s.putRope k r
      | none => s.fail k Code.maskDepth

/-- CALL (R214). -/
def execCall (i : Issue) (f : CFmt) (s : State) : Host.Outcome State Fault Refusal :=
  issue i noGuard { legal := f.clean { tgt := true }, range := fun _ => true } s
    fun s k =>
      let r := k.rope
      if 16 ≤ r.ret.length then s.fail k Code.callDepth
      else s.putRope k { r with ret := (r.pc + 8, r.stack.length) :: r.ret, pc := r.target f }

/-- RET (R214). -/
def execRet (i : Issue) (f : CFmt) (s : State) : Host.Outcome State Fault Refusal :=
  issue i noGuard { legal := f.clean {}, range := fun _ => true } s
    fun s k =>
      match k.rope.ret with
      | [] => s.fail k Code.callDepth
      | (a, d) :: rest =>
        if k.rope.stack.length ≠ d then s.fail k Code.callDepth
        else s.putRope k { k.rope with ret := rest, pc := a }

/-! ### EXIT, the party barrier and the end of ropes -/

/-- R144: with no active lane left, go to the join address of the top entry and apply R143, until some lane is
active; `n` bounds the entries. -/
def Rope.skip : Nat → Rope → Rope
  | 0, r => r
  | n + 1, r =>
    if r.active ≠ 0 ∨ r.ended then r
    else
      match r.stack with
      | [] => r
      | t :: _ => Rope.skip n (Rope.join 1 { r with pc := t.join } false).1

/-- R144: EXIT for the lanes of a mask. -/
def Rope.exitLanes (r : Rope) (m : Mask) : Rope :=
  let left := ~~~ m
  let r1 := { r.next with
    exited := r.exited ||| m
    active := r.active &&& left
    stack := r.stack.map fun t => { t with saved := t.saved &&& left, pendingMask := t.pendingMask &&& left } }
  Rope.skip 70 r1

/-- R216: the ropes of a party that wait at one BAR go on once every rope that has not ended waits there. -/
def Cluster.releaseBar (k : Cluster) (party : Nat) : Cluster :=
  let live := k.ropes.filter fun e => e.2.party == party && !e.2.ended
  let same := match live with
    | [] => false
    | e :: _ => live.all fun x => x.2.wait == Wait.bar && x.2.pc == e.2.pc
  if same then
    { k with ropes := k.ropes.map fun (e : Nat × Rope) =>
        if e.2.party == party && !e.2.ended then (e.1, { e.2.next with wait := .none }) else e }
  else k

/-- EXIT (R215). A rope that ends no longer counts at a barrier. -/
def execExit (i : Issue) (f : CFmt) (s : State) : Host.Outcome State Fault Refusal :=
  issue i noGuard { legal := f.clean { pred := true } && f.predClean, range := fun _ => true } s
    fun s k =>
      let r := k.rope.exitLanes (k.rope.active &&& k.rope.branchPred f)
      let s1 := s.putRope k r
      if r.ended then s1.setCluster k.c ((s1.cluster k.c).releaseBar r.party) else s1

/-- BAR (R216), an acquire-release at party scope, which acts on no line of the L1 (Table 7.2). -/
def execBar (i : Issue) (f : CFmt) (s : State) : Host.Outcome State Fault Refusal :=
  issue i noGuard { legal := f.clean {}, range := fun _ => true } s
    fun s k =>
      if k.rope.active ≠ ~~~ k.rope.exited then s.fail k Code.barDiverged
      else
        let s1 := s.putRope k { k.rope with wait := .bar }
        s1.setCluster k.c ((s1.cluster k.c).releaseBar k.rope.party)

/-! ### Tokens (06 R188 to R190) -/

/-- A token after launch. -/
def Token.zero : Token := ⟨0, 0, .none⟩

/-- A party's token. -/
def Party.token (p : Party) (t : Nat) : Token := Table.get .zero p.tokens t

/-- The outstanding count (R188). -/
def Token.outstanding (t : Token) : Nat := (t.issued - t.done).toNat

/-- R190: TWAIT's condition: `mod` names a token or, with bit 4, all; `n` is the count allowed. -/
def Party.tokenHolds (p : Party) (mod n : Nat) : Bool :=
  if bit mod 4 then (List.range 16).all fun t => decide ((p.token t).outstanding ≤ n)
  else decide ((p.token (mod % 16)).outstanding ≤ n)

/-- TWAIT (R190): SA is the number N itself. A TWAIT that returns is an acquire of what the milestones released, and needs
no action of the L1: the engines have invalidated the lines they wrote (07 R233; Table 7.2). -/
def execTwait (i : Issue) (f : VFmt) (s : State) : Host.Outcome State Fault Refusal :=
  let m := f.mod.toNat
  issue i f.guard
    { legal := f.clean { sa := true, modMask := 31 } && (!bit m 4 || m % 16 == 0)
      range := fun _ => true
      ropeLevel := true } s
    fun s k =>
      if k.party.tokenHolds m f.sa.toNat then s.finish k k.rope
      else s.putRope k { k.rope with wait := .token m f.sa.toNat }

/-- Ropes of a party whose TWAIT is satisfied go on. -/
def State.wakeTokens (s : State) (c party : Nat) : State :=
  match Table.find (s.cluster c).parties party with
  | none => s
  | some p =>
    let rs := (s.cluster c).ropesThat fun r => r.party == party && (match r.wait with
      | .token m n => p.tokenHolds m n
      | _ => false)
    rs.foldl (fun s e => s.wakeRope c e.1 e.2 0) s

/-- A milestone signals a party's token (R188). -/
def State.signalToken (s : State) (c party t : Nat) : State :=
  match Table.find (s.cluster c).parties party with
  | none => s
  | some p =>
    let x := p.token t
    let p' := { p with tokens := Table.set .zero p.tokens t { x with done := x.done + 1 } }
    (s.setParty c party p').wakeTokens c party

/-- R189: naming a token with outstanding operations on the other engine. -/
def Party.tokenMix (p : Party) (t : Nat) (e : Engine) : Bool :=
  let x := p.token t
  x.outstanding != 0 && x.engine != e

/-- Add one to a token's ISSUED for an engine. -/
def Party.takeToken (p : Party) (t : Nat) (e : Engine) : Party :=
  let x := p.token t
  { p with tokens := Table.set .zero p.tokens t { x with issued := x.issued + 1, engine := e } }

/-! ### Livelock (05 R174, R175) -/

/-- ROPE_LIVELOCK: a rope whose count has reached 2^20 halts, and its context fails. -/
def execRopeLivelock (c slot : Nat) (s : State) : Host.Outcome State Fault Refusal :=
  match s.waiting c slot noGuard with
  | none => .next s
  | some k =>
    if 2 ^ 20 ≤ k.rope.livelock then .next (s.ropeFault c slot k.ctx k.rope.pc Code.ropeLivelock 0 0) else .next s

/-! ### Parties (05 R147 to R155, 07 R234) -/

/-- Rows of the register file that a launch's party takes (Table 5.3). -/
def LaunchParams.rows (p : LaunchParams) : Nat := p.ropes * roundUp p.vregs 8

/-- KiB of local store of a split (Table 5.4). -/
def splitKib (split : Nat) : Nat :=
  match split with
  | 0 => 2816
  | 1 => 2560
  | 2 => 2048
  | _ => 1024

/-- The sum of a resource over the resident parties. -/
def Cluster.used (k : Cluster) (f : LaunchParams → Nat) : Nat := k.parties.foldl (fun a e => a + f e.2.par) 0

/-- R154: the party fits beside the resident ones. -/
def Cluster.fits (k : Cluster) (p : LaunchParams) : Bool :=
  decide (k.used (·.ropes) + p.ropes ≤ 64) && decide (k.used LaunchParams.rows + p.rows ≤ 4096) &&
    decide (k.parties.length + 1 ≤ 16) && decide (k.used (·.lsKib) + p.lsKib ≤ splitKib p.split) &&
    decide (k.used (·.slots) + p.slots ≤ 32) && decide (k.used (·.handles) + p.handles ≤ 16)

/-- R152: the parameters lie in Table 5.3, and a party fits on an empty cluster. -/
def LaunchParams.shapeOk (p : LaunchParams) : Bool :=
  decide (1 ≤ p.ropes) && decide (p.ropes ≤ 32) && decide (16 ≤ p.vregs) && decide (p.vregs ≤ 255) &&
    decide (p.split ≤ 3) && decide (p.lsKib ≤ splitKib p.split) && p.lsKib % 4 == 0 && decide (p.slots ≤ 32) &&
    decide (p.handles ≤ 16) && Cluster.idle.fits p

/-- A rope at launch (06 R186): all registers 0 but u0 to u3. -/
def Rope.launched (party index : Nat) (c : Nat) (partyIdx : Nat) (p : LaunchParams) : Rope :=
  { party := party, index := index, pc := p.code, active := BitVec.allOnes 32, exited := 0, stack := [], ret := []
    u := Table.set 0 (Table.set 0 (Table.set 0 (Table.set 0 [] 0 p.arg) 1 (BitVec.ofNat 64 partyIdx)) 2
      (BitVec.ofNat 64 index)) 3 (BitVec.ofNat 64 c)
    p := [], v := [], wait := .none, stall := none, livelock := 0
    issueLog := [] }

/-- The lowest free rope slots (R150). -/
def Cluster.freeSlots (k : Cluster) (n : Nat) : List Nat :=
  ((List.range 64).filter fun i => (Table.find k.ropes i).isNone).take n

/-- CL_OCCUPANCY (R155), computed from the cluster. -/
def State.occupancy (s : State) (c : Nat) : Word :=
  let k := s.cluster c
  BitVec.ofNat 64 (k.split * 2 ^ 60 + k.used (·.lsKib) * 2 ^ 48 +
    k.used LaunchParams.rows * 2 ^ 32 + k.used (·.handles) * 2 ^ 21 + k.parties.length * 2 ^ 16 +
    k.used (·.slots) * 2 ^ 8 + k.used (·.ropes))

/-- R148: a change of split on an empty cluster cleans the L1, invalidates it and takes the new split. -/
def State.takeSplit (s : State) (c ctx split : Nat) : State :=
  if (s.cluster c).split = split then s
  else
    let s1 := (s.l1CleanAll c ctx).l1InvAll c
    s1.setCluster c { s1.cluster c with split := split }

/-- PARTY_LAUNCH (R149, R150, R234): the first waiting party of a cluster launches once every resource it needs
is free at once; its launch is an acquire at device scope. -/
def execPartyLaunch (c : Nat) (s : State) : Host.Outcome State Fault Refusal :=
  if !s.ready || s.clusterHalted c then .next s
  else
    match (s.cluster c).waiting with
    | [] => .next s
    | (l, idx) :: rest =>
      match Table.find s.launches l with
      | none => .next (s.setCluster c { s.cluster c with waiting := rest })
      | some x =>
        let k := s.cluster c
        let slots := k.freeSlots x.par.ropes
        if (k.split ≠ x.par.split ∧ k.parties ≠ []) || !k.fits x.par || !s.mayTraceRopes c slots x.par.ctx kPartyStart then
          .next s
        else
          let s0 := ((s.setReg (.clTeStat c) 0).setRf (.clHaulStat c) .xltStall 0).setRf (.clRcStat c) .misses 0
          let s1 := (s0.takeSplit c x.par.ctx x.par.split).acquireAt c x.par.ctx 2
          let k1 := s1.cluster c
          -- a clean that a home refused may have failed this very context
          if (Table.find s1.launches l).isNone then .next s1
          else
            let n := (Table.firstFree k1.parties 0 16).getD 0
            let p : Party := ⟨l, idx, x.par, [], [], .clear⟩
            let ropes := (slots.zip (List.range x.par.ropes)).foldl
              (fun t e => Table.insert t e.1 (Rope.launched n e.2 c idx x.par)) k1.ropes
            let s2 := s1.setCluster c { k1 with
              waiting := rest, parties := Table.insert k1.parties n p, ropes := ropes }
            .next (s2.traceRopes c slots x.par.ctx kPartyStart idx x.par.code.toNat)

/-- Parties of a launch that cluster `c` takes: those p below PARTIES with FIRST + p mod CLUSTERS = c (13 R413). -/
def LaunchParams.onCluster (p : LaunchParams) (c : Nat) : Nat :=
  if c < p.first ∨ p.first + p.clusters ≤ c then 0
  else (p.parties + p.clusters - 1 - (c - p.first)) / p.clusters

/-- Clusters that a launch uses. -/
def LaunchParams.clustersUsed (p : LaunchParams) : Nat := min p.clusters p.parties

/-- R234: one more party of a launch has ended on a cluster; with the last, the cluster releases at system scope,
and with the last cluster the launch's command completes with RESULT PARTIES. -/
def State.partyGone (s : State) (c l : Nat) : State :=
  match Table.find s.launches l with
  | none => s
  | some x =>
    let e := Table.get 0 x.ended c + 1
    let x1 := { x with ended := Table.set 0 x.ended c e }
    if e < x.par.onCluster c then { s with launches := Table.insert s.launches l x1 }
    else
      let x2 := { x1 with released := x1.released + 1 }
      let s1 := ({ s with launches := Table.insert s.launches l x2 }).releaseAt c x.par.ctx 3
      if x2.released < x.par.clustersUsed ∨ (Table.find s1.launches l).isNone then s1
      else ({ s1 with launches := Table.erase s1.launches l }).endCmd x.queue x.index stOk x.par.parties 0

/-- Operations queued under a party's tokens that have not signalled. -/
def Party.idle (p : Party) : Bool := (List.range 16).all fun t => (p.token t).outstanding == 0

/-- PARTY_END (R153): a party whose ropes have all ended and whose queued operations have signalled gives back
everything it holds. -/
def execPartyEnd (c n : Nat) (s : State) : Host.Outcome State Fault Refusal :=
  if !s.ready || s.clusterHalted c then .next s
  else
    let k := s.cluster c
    match Table.find k.parties n with
    | none => .next s
    | some p =>
      let slots := (k.ropes.filter fun e => e.2.party == n).map Prod.fst
      if (k.ropes.any fun e => e.2.party == n && !e.2.ended) || !p.idle ||
          !s.mayTraceRopes c slots p.par.ctx kPartyEnd then .next s
      else
        let k1 := { k with
          parties := Table.erase k.parties n
          ropes := k.ropes.filter fun e => e.2.party != n
          te := { k.te with
            accs := k.te.accs.filter fun e => e.2.party != n
            handles := k.te.handles.filter fun e => e.1 / 16 != n } }
        .next (((s.traceRopes c slots p.par.ctx kPartyEnd p.index 0).setCluster c k1).partyGone c p.launch)

end Sys2Proof.Machine
end

