-- ==== Sys2Proof/Machine/Desc.lean ====
section
/-! DEFINITION. Tensor descriptors: their fields, form, local slice, addresses, footprints and aliasing
(08_tensor_descriptors_haul.md R252 to R266). -/

namespace Sys2Proof.Machine

/-! ### Fields (Tables 8.1 to 8.3) -/

/-- A descriptor read from its 1024 bits. -/
def Desc.ofNat (x : Nat) : Desc :=
  { base := bits x 0 64, scaleVa := bits x 64 64, ledgerVa := bits x 128 64, dropVa := bits x 192 64
    fill := bits x 256 64, tensorId := bits x 320 32, type := bits x 352 8
    recipe := bits x 364 4, rank := bits x 360 3
    q := signed 12 (bits x 372 12), noalloc := bit x 369, ls := bit x 368
    splitM1 := (List.range 6).map fun d => bits x (384 + 16 * d) 16
    axes := (List.range 6).map fun d => bits x (480 + 4 * d) 4
    extent := (List.range 6).map fun d => bits x (512 + 40 * d) 40
    stride := (List.range 6).map fun d => signed 40 (bits x (768 + 40 * d) 40) }

/-- R253: element bits of a type. -/
def typeBits (t : Nat) : Nat :=
  match t with
  | 0 => 64 | 1 => 32 | 2 => 16 | 3 => 16 | 4 => 8 | 5 => 8 | 6 => 8 | 7 => 8 | 8 => 6 | 9 => 6 | 10 => 4
  | 11 => 8 | 12 => 32 | 13 => 64 | _ => 256

/-- MX types (Table 8.2). -/
def typeMx (t : Nat) : Bool := decide (6 ≤ t) && decide (t ≤ 10)

/-- The float format of an element type; none for integers and tally cells. -/
def typeFmt : Nat → Option Fmt
  | 0 => some fp64
  | 1 => some fp32
  | 2 => some bf16
  | 3 => some fp16
  | 4 => some e4m3
  | 5 => some e5m2
  | 6 => some e4m3
  | 7 => some e5m2
  | 8 => some e3m2
  | 9 => some e2m3
  | 10 => some e2m1
  | _ => none

/-- The value an element's bits hold. -/
def typeFp (t x : Nat) : Fp :=
  match typeFmt t with
  | some f => f.decode (x % 2 ^ typeBits t)
  | none => Fp.ofInt (signed (typeBits t) x)

def Desc.ext (d : Desc) (i : Nat) : Nat := d.extent.getD i 1
def Desc.str (d : Desc) (i : Nat) : Int := d.stride.getD i 0
def Desc.split (d : Desc) (i : Nat) : Nat := d.splitM1.getD i 0
def Desc.axis (d : Desc) (i : Nat) : Nat := d.axes.getD i 15

/-- R259: a dimension is sharded. -/
def Desc.sharded (d : Desc) (i : Nat) : Bool := decide (d.axis i < 8)

/-! ### Meshes (R257, R258) -/

/-- A unit's place in the mesh: its rank, its logical cluster, and the extents of the eight axes. -/
structure Place where
  rank : Nat
  cluster : Nat
  axes : List Nat
  deriving DecidableEq, Repr

/-- The product of axis extents `a` to `b - 1`. -/
def axisProduct (axes : List Nat) (a b : Nat) : Nat := ((axes.drop a).take (b - a)).foldl (· * ·) 1

/-- R258: a unit's coordinate on an axis. -/
def Place.coord (u : Place) (a : Nat) : Nat :=
  if a < 4 then u.rank / axisProduct u.axes 0 a % u.axes.getD a 1
  else u.cluster % axisProduct u.axes 4 8 / axisProduct u.axes 4 a % u.axes.getD a 1

/-- RANK and RANKS of a context's job binding; a context without a valid binding is a job of one node. -/
def State.rankOf (s : State) (ctx : Nat) : Nat × Nat :=
  if s.rbit (.podCtxJob ctx) .valid then (s.rf (.podCtxMap ctx) .myRank, s.rf (.podCtxJob ctx) .ranks) else (0, 1)

/-- The place of a cluster's unit in a context. -/
def State.place (s : State) (ctx c : Nat) (x : Ctx) : Place := ⟨(s.rankOf ctx).1, c, x.axes⟩

/-! ### Local slice and addresses (R260, R255) -/

/-- R260: the local extent of a dimension. -/
def Desc.localExt (d : Desc) (i : Nat) : Nat :=
  if d.sharded i then (d.ext i + d.split i) / (d.split i + 1) else d.ext i

/-- The first global coordinate of the unit's slice in a dimension. -/
def Desc.first (d : Desc) (u : Place) (i : Nat) : Nat :=
  if d.sharded i then u.coord (d.axis i) * d.localExt i else 0

/-- The dimension is sharded on a node axis. -/
def Desc.nodeSharded (d : Desc) (i : Nat) : Bool := decide (d.axis i < 4)

/-- R260: local coordinates are in bounds. -/
def Desc.inBounds (d : Desc) (u : Place) (i : List Int) : Bool :=
  (List.range 6).all fun k =>
    let x := i.getD k 0
    decide (0 ≤ x) && decide (x < d.localExt k) && decide ((d.first u k : Int) + x < d.ext k)

/-- The coordinate that R260 multiplies by the stride: local on a node axis, else global. -/
def Desc.coordOf (d : Desc) (u : Place) (k : Nat) (x : Int) : Int :=
  if d.sharded k && d.nodeSharded k then x else (d.first u k : Int) + x

/-- R260: the bit address of an element, if it is in bounds and its address is not below 0. -/
def Desc.bitAddr (d : Desc) (u : Place) (i : List Int) : Option Nat :=
  if d.inBounds u i then
    let off := (List.range 6).foldl (fun (a : Int) k => a + d.coordOf u k (i.getD k 0) * d.str k) 0
    some ((d.base : Int) * 8 + off * typeBits d.type).toNat
  else none

/-- R255: the address of the scale of an element's block. -/
def Desc.scaleAddr (d : Desc) (u : Place) (i : List Int) : Nat :=
  let c0 := d.coordOf u 0 (i.getD 0 0) / 32
  let off := (List.range 5).foldl (fun (a : Int) k => a + d.coordOf u (k + 1) (i.getD (k + 1) 0) * d.str (k + 1)) 0
  ((d.scaleVa : Int) + c0 + off / 32).toNat

/-- The linear index of an element in the global extents, dimension 0 fastest (R260; R81, R87, R90). -/
def Desc.linear (d : Desc) (u : Place) (i : List Int) : Nat :=
  ((List.range 6).foldr (fun k (a : Int) => a * d.ext k + ((d.first u k : Int) + i.getD k 0)) 0).toNat

/-- Local coordinates of a local linear index, dimension 0 fastest. -/
def Desc.unlinear (d : Desc) (n : Nat) : List Int :=
  ((List.range 6).foldl (fun (r : Nat × List Int) k =>
    (r.1 / d.localExt k, r.2 ++ [((r.1 % d.localExt k : Nat) : Int)])) (n, [])).2

/-- Elements of the local extents. -/
def Desc.localCount (d : Desc) : Nat := (List.range 6).foldl (fun a k => a * d.localExt k) 1

/-- The local extents, all six dimensions. -/
def Desc.shape (d : Desc) : List Nat := (List.range 6).map d.localExt

/-! ### Form (R254, R255, R259) -/

/-- Reserved fields and codes are 0 (R254), read from the descriptor's bits. -/
def descReserved (x : Nat) : Bool :=
  let t := bits x 352 8
  bit x 363 || bits x 370 2 != 0 || bits x 504 8 != 0 || bits x 752 16 != 0 || bits x 1008 16 != 0 ||
    decide (15 ≤ t) || (t != 14 && bits x 372 12 != 0) || (!typeMx t && bits x 64 64 != 0)

/-- R254, R255, R259: the descriptor is well formed for a context's mesh. -/
def Desc.formOk (d : Desc) (axes : List Nat) : Bool :=
  let dims := List.range 6
  decide (1 ≤ d.rank) && decide (d.rank ≤ 6) &&
    dims.all (fun k => if k < d.rank then d.ext k != 0
      else d.ext k == 1 && d.str k == 0 && d.split k == 0 && d.axis k == 15) &&
    decide (d.extent.foldl (· * ·) 1 ≤ 2 ^ 48) &&
    decide (d.base < 2 ^ 56) && decide (d.scaleVa < 2 ^ 56) && decide (d.dropVa < 2 ^ 56) && d.dropVa % 8 == 0 &&
    dims.all (fun k => if d.sharded k then d.split k + 1 == axes.getD (d.axis k) 1
      else d.axis k == 15 && d.split k == 0) &&
    dims.all (fun k => !d.sharded k || dims.all fun j => j == k || d.axis j != d.axis k) &&
    (!typeMx d.type || (d.str 0 == 1 && dims.all fun k => k == 0 || d.str k % 32 == 0))

/-- R255: extents of an MX descriptor's dimension 0 are multiples of 32. -/
def Desc.mxShapeOk (d : Desc) : Bool := !typeMx d.type || (d.ext 0 % 32 == 0 && d.localExt 0 % 32 == 0)

/-! ### Footprints, nesting, overlap (R264 to R266) -/

/-- Elements in bounds for the unit along a dimension. -/
def Desc.countIn (d : Desc) (u : Place) (k : Nat) : Nat := min (d.localExt k) (d.ext k - d.first u k)

/-- The least and the greatest of a coordinate times a stride over the unit's elements. -/
def Desc.dimSpan (d : Desc) (u : Place) (k : Nat) (st : Int) : Int × Int :=
  let lo := d.coordOf u k 0 * st
  let hi := d.coordOf u k ((d.countIn u k : Nat) - 1) * st
  (min lo hi, max lo hi)

/-- A span of bytes in local store or device memory. -/
structure Span where
  ls : Bool
  lo : Int
  hi : Int
  deriving DecidableEq, Repr

/-- R264: the footprint of a descriptor: its data span and, for MX types, its scale span; none of an empty
slice. -/
def Desc.footprint (d : Desc) (u : Place) : List Span :=
  if (List.range 6).any fun k => d.countIn u k == 0 then []
  else
    let sum := (List.range 6).foldl (fun (a : Int × Int) k =>
      let x := d.dimSpan u k (d.str k)
      (a.1 + x.1, a.2 + x.2)) (0, 0)
    let w : Int := typeBits d.type
    let b : Int := (d.base : Int) * 8
    let data : Span := ⟨d.ls, (b + sum.1 * w) / 8, (b + sum.2 * w + w - 1) / 8⟩
    if typeMx d.type then
      let rest := (List.range 5).foldl (fun (a : Int × Int) k =>
        let x := d.dimSpan u (k + 1) (d.str (k + 1))
        (a.1 + x.1, a.2 + x.2)) (0, 0)
      let c := d.dimSpan u 0 1
      [data, ⟨d.ls, (d.scaleVa : Int) + c.1 / 32 + rest.1 / 32, (d.scaleVa : Int) + c.2 / 32 + rest.2 / 32⟩]
    else [data]

/-- Two footprints intersect in one space. -/
def meet (a b : List Span) : Bool :=
  a.any fun x => b.any fun y => x.ls == y.ls && decide (x.lo ≤ y.hi) && decide (y.lo ≤ x.hi)

/-- R264: a footprint below 0 or beyond 2^56 - 1. -/
def spanForm (a : List Span) : Bool := a.any fun x => decide (x.lo < 0) || decide ((2 ^ 56 : Nat) ≤ x.hi)

/-- R264: a local-store footprint past the party's local store. -/
def spanOutside (bytes : Nat) (a : List Span) : Bool := a.any fun x => x.ls && decide ((bytes : Int) ≤ x.hi)

/-- Insert a dimension in ascending |stride|, ties by ascending dimension (R265). -/
def insertDim (key : Nat → Nat) : List Nat → Nat → List Nat
  | [], k => [k]
  | j :: t, k => if key j ≤ key k then j :: insertDim key t k else k :: j :: t

/-- The nesting of adjacent dimensions (R265). -/
def nestedPairs (str span : Nat → Nat) : List Nat → Bool
  | a :: b :: t => decide (str a * span a ≤ str b) && nestedPairs str span (b :: t)
  | _ => true

/-- R265: a written descriptor is nested. -/
def Desc.nested (d : Desc) : Bool :=
  let span := fun k => if d.sharded k && d.nodeSharded k then d.localExt k else d.ext k
  let str := fun k => (d.str k).natAbs
  let ds := ((List.range 6).filter fun k => decide (1 < span k)).foldl (insertDim str) []
  match ds with
  | [] => true
  | a :: _ => decide (1 ≤ str a) && nestedPairs str span ds

/-! ### Fill values (R256) -/

/-- The bits of an out-of-bounds element. -/
def Desc.fillBits (d : Desc) : Nat :=
  if d.type = 14 then (signed 64 d.fill % ((2 ^ 256 : Nat) : Int)).toNat
  else d.fill % 2 ^ typeBits d.type

/-- The scale of a block whose elements are all out of bounds. -/
def Desc.fillScale (d : Desc) : Nat := bits d.fill 8 8

end Sys2Proof.Machine
end

