-- ==== Sys2Proof/Machine/Pod.lean ====
section
/-! DEFINITION. The pod transport as a receiver and a sender: accesses of the Square's units, DATA, READ, BELL, HOLD,
timers, lost peers, ports, bindings and time (15_pod_transport.md R451 to R480). -/

namespace Sys2Proof.Machine

/-! ### Accesses of a Square unit in a context (09 R278, R285, R294; 10 R335) -/

/-- How an access of a Square unit ends. -/
inductive UAccess where
  | ok
  | fault (cause entry va : Nat)
  | refused (line : Nat)
  | poison (va : Nat)
  deriving DecidableEq, Repr

/-- A non-caching write of bytes in a context: nothing is written where an address faults or is refused. -/
def State.unitWrite (s : State) (ctx va : Nat) (bs : List Byte) (need : Need := needWrite) : State × UAccess :=
  let ls := splitLines (bs.length / 128 + 2) va bs
  match s.xlatAll .square ctx need (ls.map fun l => max va (128 * l.1)) with
  | (s1, .fault c e a) => (s1, .fault c e a)
  | (s1, .ok xs) =>
    ls.foldl (fun (r : State × UAccess) l =>
      match r.2, (xs.find? fun x => x.1 == l.1).map Prod.snd with
      | .ok, some (.mem pa) =>
        match r.1.homeWrite ctx pa l.2.1 l.2.2 with
        | (s2, true) => (s2, .ok)
        | (_, false) => (r.1, .refused pa)
      | .ok, some (.host a) => (r.1.hostWrite a ((List.range 128).map fun i =>
          if l.2.2.getLsbD i then some (BitVec.ofNat 8 (lineNat l.2.1 i 1)) else none), .ok)
      | _, _ => r) (s1, .ok)

/-- A line of the host's memory, whose bytes this model leaves free (log 9). -/
def State.freeLine (s : State) : State × Line :=
  (List.range 16).foldl (fun (r : State × Line) i =>
    let w := r.1.freshWord
    (w.1, r.2 ||| BitVec.ofNat 1024 (w.2.toNat <<< (64 * i)))) (s, 0)

/-- A non-caching read of bytes in a context. Whether the host completes a read of an aperture line, and with what bytes,
this model leaves free where no command gives the host's answer (log 9; 12 R392). -/
def State.unitRead (s : State) (ctx va n : Nat) (need : Need := needRead) : State × UAccess × List Byte :=
  let starts := (List.range (n / 128 + 2)).filterMap fun k =>
    let a := if k = 0 then va else 128 * (va / 128 + k)
    if a < va + n then some a else none
  match s.xlatAll .square ctx need starts with
  | (s1, .fault c e a) => (s1, .fault c e a, [])
  | (s1, .ok xs) =>
    starts.foldl (fun (r : State × UAccess × List Byte) a =>
      let m := min (128 * (a / 128) + 128) (va + n) - a
      let take := fun (l : Line) => r.2.2 ++ leBytes m (lineNat l (a % 128) m)
      match r.2.1, (xs.find? fun x => x.1 == a / 128).map Prod.snd with
      | .ok, some (.mem pa) =>
        let f := r.1.homeFetch ctx pa
        let h := f.2
        let bad := (List.range 4).find? fun k => (h.2.1 &&& sectorsOf (spanMask (a % 128) m)).getLsbD k
        if !h.2.2 then (r.1, .refused pa, [])
        else
          match bad with
          | some k => (f.1, .poison (128 * (a / 128) + 32 * k), [])
          | none => (f.1, .ok, take h.1)
      | .ok, some (.host h) =>
        let f := (r.1.hostRead (h + a % 128) m).freshBit
        if f.2 && r.1.rbit .hqLinkStatus .up then
          let l := f.1.freeLine
          (l.1, .ok, take l.2)
        else (f.1.apertureFail { die := 4, agent := 3 } ctx h, .poison (a / 32 * 32), [])
      | _, _ => r) (s1, .ok, [])

/-- What an error record says of the transport on a port: KIND 3, UNIT 4 + port. -/
def portInfo (p : Nat) : ErrInfo := { die := 4, agent := 3, unit := 4 + p }

/-! ### Admission (R460, R462) -/

/-- R460: a frame that a receiver discards. -/
def State.discards (s : State) (f : Frame) : Bool :=
  !f.fcsOk || f.header.length != 64 || f.hdr 0x3C 4 != crc32c (f.header.take 60 ++ f.payload) ||
    f.hdr 0 1 / 16 != 1 || f.type == 0 || decide (6 < f.type) || f.hdr 1 1 / 2 != 0 || f.hdr 0x28 20 != 0 ||
    f.hdr 4 2 != s.rf .podNode .nodeId

/-- R455: the frame is one of the transport's for this port: its MAC address, EtherType and, with VLAN_EN, VLAN. Any other
frame is no frame of the transport (log 132). -/
def State.addressed (s : State) (f : Frame) : Bool :=
  f.mac == macBytes (s.rf .podNode .domain) f.port (s.rf .podNode .nodeId) && f.etherType == 0x88B5 &&
    (match f.tag with
      | some t => s.rbit .podCfg .vlanEn && bits t.toNat 0 12 == s.rf .podCfg .vid
      | none => !s.rbit .podCfg .vlanEn)

/-- A frame arrives on a port that is up at a node that takes part: it is counted, and `act` takes it unless it is
discarded. A row takes the frames of its own type. -/
def State.arrive (s : State) (f : Frame) (type : Nat) (act : State → State) : State :=
  if !s.ready || !s.rbit .podNode .valid || !s.portUp f.port || !s.addressed f then s
  else
    let s1 := s.wrapRf (.podPortFrames f.port) .rx 1
    if s.discards f then s1.satRf .podXstat .rxDiscard 1
    else if f.type = type then act s1
    else s

/-- The context whose valid binding has a job. -/
def State.jobCtx (s : State) (job : Nat) : Option Nat :=
  (List.range 63).find? fun n => s.bound n && s.rf (.podCtxJob n) .jobId == job

/-- REFUSE a frame (R460, R472). -/
def State.refuse (s : State) (f : Frame) : State := s.emitPlain f.port f.src tRefuse f.psn f.job 0 []

/-- R460: a frame that no binding takes is refused. -/
def State.unbound (s : State) (f : Frame) : State := (s.refuse f).setRf .podEvent .rxRefused 1

/-- R460: an ACK, HOLD or REFUSE: refused without a binding, else acted on. -/
def State.plain (s : State) (f : Frame) (act : State → State) : State :=
  if (s.jobCtx f.job).isSome then act s else s.unbound f

/-- R460, R462: a sequenced frame: refused without a binding, acknowledged again as a duplicate, discarded beyond
4,096, else acted on. A held frame that comes again is answered with HOLD. -/
def State.sequenced (s : State) (f : Frame) (act : State → Nat → State) : State :=
  let n := f.src
  let s1 := s.setPeer n { s.peer n with stamp := f.stamp, port := f.port, job := f.job }
  match s1.jobCtx f.job with
  | none => s1.unbound f
  | some ctx =>
    let p := s1.peer n
    let d := p.above f.psn
    let owed := fun (b : Body) => b.owner == FrameOf.answer f.psn
    if d = 0 ∨ 2 ^ 31 ≤ d ∨ p.rxGot.contains f.psn then s1.sendAck n
    else if 4096 < d then s1
    else if s1.pod.held.any fun h => h.peer == n && h.psn == f.psn then
      s1.emitPlain f.port n tHold f.psn f.job 0 []
    else if p.backlog.any owed then s1
    else act s1 ctx

/-- R472: a frame that meets a translation fault: a record, HOLD, and the frame is kept. -/
def State.holdFrame (s : State) (f : Frame) (ctx cause entry va : Nat) (n : Need) : State :=
  let s1 := s.xltFault ⟨.port f.port, n.code, cause, ctx, va, entry⟩
  let h : HeldFrame := ⟨f.src, f.port, f.psn, f.type, f.job, f.msg, f.va, f.aux, f.len, f.payload.take f.len, ctx,
    blockOf va⟩
  ({ s1 with pod := { s1.pod with held := s1.pod.held ++ [h] } }).emitPlain f.port f.src tHold f.psn f.job 0 []

/-! ### DATA, READ and BELL (R468 to R472) -/

/-- A DATA frame that answers a run of a get. The answer carries the READ's MSG_ID (log 31). -/
def State.getRun (s : State) (f : Frame) (ctx : Nat) : Option GetRun :=
  s.pod.gets.find? fun g => g.ctx == ctx && g.peer == f.src && g.msg == f.msg && g.va == f.va && g.len == f.len

/-- R471: the bytes of a DATA frame are performed, and a run of a get that they answer has arrived. -/
def State.dataWrite (s : State) (f : Frame) (ctx : Nat) : State × UAccess :=
  let bs := takePad 0 f.len f.payload
  match s.getRun f ctx with
  | none =>
    let r := s.unitWrite ctx f.va bs
    match r.2 with
    | .ok => (r.1.markRx f.src f.psn, .ok)
    | _ => r
  | some g =>
    let gone := fun (s : State) => ({ s with pod := { s.pod with gets := s.pod.gets.erase g } }).markRx f.src f.psn
    match g.ls with
    | some n =>
      match Table.find (s.cluster g.cluster).parties n with
      | some p => (gone (s.setParty g.cluster n (p.lsWrite f.va bs)), .ok)
      | none => (gone s, .ok)
    | none =>
      -- the get's cluster sees the bytes: its L1 keeps no copy of the lines written (07 R233, R240)
      let lines := (splitLines (bs.length / 128 + 2) f.va bs).map Prod.fst
      let r := (lines.foldl (fun s l => s.l1Push g.cluster ctx l) s).unitWrite ctx f.va bs
      match r.2 with
      | .ok => (gone r.1, .ok)
      | _ => r

/-- R468, R471: a READ is answered with one DATA frame. -/
def State.readAnswer (s : State) (f : Frame) (ctx : Nat) : State × UAccess :=
  let r := s.unitRead ctx f.va f.len
  match r.2.1 with
  | .ok => (r.1.podSend f.src ⟨tData, f.job, f.msg, f.aux, 0, f.len, ctx, .answer f.psn, r.2.2⟩, .ok)
  | x => (r.1, x)

/-- How a DATA frame or a READ that could not be performed ends (R301, R472; 19 Table 19.3). -/
def State.frameStop (s : State) (f : Frame) (ctx : Nat) (n : Need) (x : UAccess) : State :=
  match x with
  | .ok => s
  | .fault c e va => s.holdFrame f ctx c e va n
  | .refused l => (s.refuse f).ctxFail ctx Code.frameOwner { portInfo f.port with addr := 128 * l, addrKind := 2 } none
  | .poison va =>
    (s.refuse f).countConsumed.ctxFail ctx Code.poison { portInfo f.port with addr := va, addrKind := 1 } none

/-- Act on a DATA frame or a READ for memory. -/
def State.takeFrame (s : State) (f : Frame) (ctx : Nat) : State :=
  if f.type = tRead then
    let r := s.readAnswer f ctx
    r.1.frameStop f ctx needRead r.2
  else
    let r := s.dataWrite f ctx
    r.1.frameStop f ctx needWrite r.2

/-- DATA (R460, R462, R471, R472; R491 for an engine-addressed VA of no kind that Table 16.6 lists). The frames of
Table 16.6 are rows of their own. -/
def execData (f : Frame) (s : State) : Host.Outcome State Fault Refusal :=
  .next (s.arrive f tData fun s1 =>
    if bit f.va 63 then
      if 0b1000 ≤ f.va / 2 ^ 60 ∧ f.va / 2 ^ 60 ≤ 0b1010 then s else s1.satRf .podXstat .rxDiscard 1
    else s1.sequenced f fun s ctx => s.takeFrame f ctx)

/-- READ (R463, R468, R472). -/
def execRead (f : Frame) (s : State) : Host.Outcome State Fault Refusal :=
  .next (s.arrive f tRead fun s1 => s1.sequenced f fun s ctx => s.takeFrame f ctx)

/-- BELL (R469): a bell refused under R243 is still acknowledged. -/
def execBell (f : Frame) (s : State) : Host.Outcome State Fault Refusal :=
  .next (s.arrive f tBell fun s1 => s1.sequenced f fun s _ =>
    let s2 := if bit f.aux 15 then s.bellRemote (bits f.aux 0 14) (BitVec.ofNat 64 (bits f.aux 32 32)) else s
    s2.markRx f.src f.psn)

/-- A held frame as it arrived. -/
def HeldFrame.frame (h : HeldFrame) : Frame :=
  ⟨h.port, [], none, 0x88B5, true, headerBytes h.type 0 h.peer 0 h.len h.job h.psn h.msg 0 h.va h.aux, h.payload⟩

/-- R472: after a FATAL of a context and block, the frames that waited for it are refused. -/
def State.refuseHeld (s : State) (ctx block : Nat) : State :=
  let mine := s.pod.held.filter fun h => h.ctx == ctx && h.block == block
  mine.foldl (fun s h => s.refuse h.frame)
    { s with pod := { s.pod with held := s.pod.held.filter fun h => !(h.ctx == ctx && h.block == block) } }

/-- R472: after a RETRY of a context and block, the frames that waited for it are performed. -/
def State.retryFrames (s : State) (ctx block : Nat) : State :=
  let mine := s.pod.held.filter fun h => h.ctx == ctx && h.block == block
  mine.foldl (fun s h => s.takeFrame h.frame ctx)
    { s with pod := { s.pod with held := s.pod.held.filter fun h => !(h.ctx == ctx && h.block == block) } }

/-! ### Acknowledgements (R463 to R467, R469) -/

/-- A frame of the pool that an ACK shows received. -/
def ackShows (f : Frame) (psn : Nat) : Bool :=
  let d := (psn + 2 ^ 32 - f.psn) % 2 ^ 32
  d == 0 || decide (2 ^ 31 ≤ d) || (decide (d ≤ 4096) && bit (leNat f.payload) (d - 1))

/-- R467: the window after an ACK. -/
def Peer.onAck (p : Peer) (now rtt newly window target : Nat) : Peer :=
  if rtt ≤ target then { p with cwnd := min window (p.cwnd + newly) }
  else if rtt ≤ now - p.lastCut then
    { p with cwnd := max 16 (p.cwnd * (rtt + target) / (2 * rtt)), lastCut := now }
  else p

/-- R469: a message whose DATA frames are all acknowledged sends its BELL frame. -/
def State.sendBells (s : State) : State :=
  s.pod.bells.foldl (fun s b =>
    let p := s.peer b.peer
    let busy := (p.pool.any fun f => f.body.msg == b.msg && f.body.type == tData) ||
      p.backlog.any fun x => x.msg == b.msg && x.type == tData
    if busy then s
    else
      ({ s with pod := { s.pod with bells := s.pod.bells.erase b } }).podSend b.peer b.body) s

/-- R464, R466, R467: an ACK from a peer: the window moves, received frames leave the pool, and a frame missing
while one at least 64 PSNs later, first sent after it was last sent, is shown received is sent again (log 30). -/
def State.takeAck (s : State) (f : Frame) : State :=
  let n := f.src
  match Table.find s.pod.peers n with
  | none => s
  | some p =>
    let got := p.pool.filter fun x => ackShows f x.psn
    let rtt := (s.time + 2 ^ 32 - f.stamp) % 2 ^ 32
    let window := s.rf .podCfg .window
    let p1 := p.onAck s.time rtt got.length window (s.rf .podCfg .targetUs * 1000)
    let left := p1.pool.filter fun x => !ackShows f x.psn
    let since := fun (a b : Nat) => (a + 2 ^ 32 - b) % 2 ^ 32
    let lost := left.filter fun x => decide (x.resends < 16) && got.any fun y =>
      decide (64 ≤ since y.psn x.psn) && decide (since y.psn x.psn < 2 ^ 31) && decide (since y.psn x.mark < 2 ^ 31)
    let s1 := s.setPeer n { p1 with pool := left }
    (lost.foldl (fun s x => s.resend n x.psn) s1).sendBells.flushAll

/-- HOLD (R472): no timer runs for the PSN it names. -/
def execHold (f : Frame) (s : State) : Host.Outcome State Fault Refusal :=
  .next (s.arrive f tHold fun s1 => s1.plain f fun s1 =>
    match Table.find s1.pod.peers f.src with
    | none => s1
    | some p => s1.setPeer f.src { p with pool := p.pool.map fun x =>
        if x.psn = f.psn then { x with held := true } else x })

/-- ACK_TIMER (R463): an ACK leaves for marked frames not yet acknowledged. -/
def execAckTimer (peer : Nat) (s : State) : Host.Outcome State Fault Refusal :=
  if !s.ready then .next s
  else
    match Table.find s.pod.peers peer with
    | none => .next s
    | some p => .next (if p.ackDue then s.sendAck peer else s)

/-- RTO_RESEND (R464, R465, R467): a frame whose timer runs is sent again on another port; the window falls to
16. With no port up nothing is sent, and the frame waits for a port. -/
def execRtoResend (peer psn : Nat) (s : State) : Host.Outcome State Fault Refusal :=
  if !s.ready then .next s
  else
    match Table.find s.pod.peers peer with
    | none => .next s
    | some p =>
      match p.pool.find? fun x => x.psn == psn with
      | none => .next s
      | some x =>
        if x.held || decide (16 ≤ x.resends) then .next s
        else
          let gone := x.port.toList
          let p1 := { p with cwnd := 16, mask := p.mask.filter (fun q => !gone.contains q),
                             removed := p.removed ++ gone }
          if s.upPorts = [] then .next (s.resend peer psn)
          else .next (((s.setPeer peer p1).satRf .podXstat .timeouts 1).resend peer psn)

/-- PORT_MASK_RESTORE (R465). -/
def execPortMaskRestore (peer port : Nat) (s : State) : Host.Outcome State Fault Refusal :=
  if !s.ready then .next s
  else
    match Table.find s.pod.peers peer with
    | none => .next s
    | some p =>
      if p.removed.contains port then
        .next ((s.setPeer peer { p with removed := p.removed.filter (fun q => q != port),
                                        mask := setInsert p.mask port }).flushPeer peer)
      else .next s

/-! ### Ports (R453, R465) -/

/-- PORT_UP (R453): the port takes the mode of the board record. Frames that no port could take leave. -/
def execPortUp (port : Nat) (s : State) : Host.Outcome State Fault Refusal :=
  if !s.ready || decide (6 ≤ port) || s.portUp port then .next s
  else
    let s1 := ((s.setRf (.podPortStatus port) .up 1)).setRf .podEvent .portChange 1
    let s2 := s1.pod.peers.foldl (fun s e =>
      e.2.pool.foldl (fun s x => if x.port.isNone then s.resend e.1 x.psn else s) s) s1
    .next s2.flushAll

/-- PORT_DOWN (R453, R465): frames sent on the port are resent at once on another. -/
def execPortDown (port : Nat) (s : State) : Host.Outcome State Fault Refusal :=
  if !s.ready || !s.portUp port then .next s
  else
    let s1 := ((s.setRf (.podPortStatus port) .up 0).satRf (.podPortStatus port) .downCount 1).setRf .podEvent
      .portChange 1
    .next (s1.pod.peers.foldl (fun s e =>
      e.2.pool.foldl (fun s x => if x.port = some port then s.resend e.1 x.psn else s) s) s1)

/-! ### Bindings (R457, R480) -/

/-- BINDING_WRITE: a write of POD_CTXn_JOB. A valid binding takes only a write that clears VALID; a JOB_ID of
another valid binding is refused. -/
def State.bindingWrite (s : State) (n : Nat) (v : Word) : State :=
  let v1 := v &&& 0x8001FFFFFFFFFFFF
  if s.bound n then
    if bit v.toNat 63 then s else s.setReg (.podCtxJob n) v1
  else
    let dup := bit v.toNat 63 && (List.range 63).any fun m =>
      m != n && s.bound m && s.rf (.podCtxJob m) .jobId == fld v 0 32
    if dup then s.setRf .podEvent .rxRefused 1 else s.setReg (.podCtxJob n) v1

def execBindingWrite (_m : Master) (n : Nat) (v : Word) (s : State) : Host.Outcome State Fault Refusal :=
  if !s.ready || decide (63 ≤ n) then .next s else .next (s.bindingWrite n v)

/-! ### Time (R477 to R479) -/

/-- R478: a measured offset of true time over the counter steers the counter: a forward offset above 1 ms is one
step, a backward one holds it, until true time reaches it; the servo otherwise chooses a rate, which the spec leaves free within ±500 ppm. -/
def State.steer (s : State) (off : Int) : State :=
  if 1000000 < off then { s with time := (s.time + off.toNat) % 2 ^ 64, pod := { s.pod with timeHold := 0 } }
  else if off < -1000000 then { s with pod := { s.pod with timeHold := (-off).toNat } }
  else
    let w := s.freshWord
    let hold := if s.pod.timeHold = 0 then 0 else (-off).toNat
    { w.1 with pod := { w.1.pod with timeHold := hold, rate := ((w.2.toNat % 1001 : Nat) : Int) - 500 } }

/-- OFFSET and LOCKED after a measurement (R478, Table 15.16). -/
def State.measured (s : State) (off : Int) : State :=
  let o := max (-(2 ^ 31 : Int)) (min (2 ^ 31 - 1) off)
  let s1 := s.setRf .podTimeCtl .offset (o % ((2 ^ 32 : Nat) : Int)).toNat
  if off.natAbs ≤ 200 then
    let t := s1.pod.lockFrom.getD s1.time
    let s2 : State := { s1 with pod := { s1.pod with lockFrom := some t } }
    if t + 16000000000 ≤ s2.time then s2.setRf .podTimeCtl .locked 1 else s2
  else
    let s2 : State := { s1 with pod := { s1.pod with lockFrom := none } }
    if s2.rbit .podTimeCtl .locked then (s2.setRf .podTimeCtl .locked 0).setRf .podEvent .timeUnlock 1 else s2

/-- Put a PTP message on a port; none leaves a port that is down. -/
def State.ptpSend (s : State) (port : Nat) (kind : PtpKind) (seq time : Nat) : State :=
  if !s.portUp port then s
  else { s with outbox := s.outbox ++
    [Out.ptp port kind (s.rf .podTimeCtl .ptpDomain) seq time (s.rf .podTimeCtl .priority1)] }

/-- The next sequence number of the node's PTP messages. -/
def State.ptpNext (s : State) : State × Nat :=
  ({ s with pod := { s.pod with ptpSeq := (s.pod.ptpSeq + 1) % 65536 } }, s.pod.ptpSeq)

/-- R477, R479: the best master clock algorithm chooses again: a port that is up, or with PPS_EN and GM_EN the node
itself; the choice is left free (log 9), and where it names neither the announcing port is taken. -/
def State.chooseSource (s : State) (port : Nat) : State :=
  let n := Config.bmcaChoice s.free
  let gm := decide (5 < n) && s.rbit .podTimeCtl .ppsEn && s.rbit .podTimeCtl .gmEn
  let src := if gm then none else if n < 6 ∧ s.portUp n then some n else some port
  { s with free := s.free + 1, pod := { s.pod with source := src, grandmaster := gm } }

/-- A PTP exchange: the message that it takes next. -/
def State.setExchange (s : State) (e : Option PtpExchange) : State := { s with pod := { s.pod with exchange := e } }

/-- A message from the time source's port in the node's domain. -/
def State.fromSource (s : State) (port domain : Nat) : Bool :=
  s.ready && s.portUp port && s.pod.source == some port && domain == s.rf .podTimeCtl .ptpDomain

/-- PTP_MESSAGE (R477): an ordinary clock of IEEE 1588's default delay request-response profile. An exchange with the
time source ends in a measurement, which steers the counter; the node's other ports stay passive, and messages of
another domain change nothing. As grandmaster it sends Announce, two-step Sync and Delay_Resp. -/
def execPtpMessage (m : PtpMsg) (s : State) : Host.Outcome State Fault Refusal :=
  match m with
  | .announce port domain =>
    if !s.ready || !s.portUp port || domain != s.rf .podTimeCtl .ptpDomain then .next s
    else .next (s.chooseSource port)
  | .sync port domain seq twoStep origin =>
    if !s.fromSource port domain then .next s
    else .next (s.setExchange (some ⟨port, seq, if twoStep then none else some origin, s.time, none⟩))
  | .followUp port domain seq origin =>
    match s.pod.exchange with
    | some e =>
      if !s.fromSource port domain || e.port != port || e.seq != seq || e.t1.isSome then .next s
      else .next (s.setExchange (some { e with t1 := some origin }))
    | none => .next s
  | .sendDelayReq port =>
    match s.pod.exchange with
    | some e =>
      if !s.fromSource port (s.rf .podTimeCtl .ptpDomain) || e.port != port || e.t1.isNone then .next s
      else
        let n := s.ptpNext
        .next ((n.1.ptpSend port .delayReq n.2 0).setExchange (some { e with t3 := some (n.2, s.time) }))
    | none => .next s
  | .delayResp port domain seq received =>
    match s.pod.exchange with
    | some ⟨p, _, some t1, t2, some (n, t3)⟩ =>
      if !s.fromSource port domain || p != port || n != seq then .next s
      else
        let off : Int := (((t1 : Int) - t2) + ((received : Int) - t3)) / 2
        .next (((s.setExchange none).measured off).steer off)
    | _ => .next s
  | .delayReq port domain seq =>
    if !s.ready || !s.pod.grandmaster || domain != s.rf .podTimeCtl .ptpDomain then .next s
    else .next (s.ptpSend port .delayResp seq s.time)
  | .sendAnnounce port =>
    if !s.ready || !s.pod.grandmaster then .next s
    else
      let n := s.ptpNext
      .next (n.1.ptpSend port .announce n.2 s.time)
  | .sendSync port =>
    if !s.ready || !s.pod.grandmaster then .next s
    else
      let n := s.ptpNext
      .next ((n.1.ptpSend port .sync n.2 0).ptpSend port .followUp n.2 s.time)

/-- PPS_EDGE (R479): the first edge after a write of POD_TIME_SET sets the counter, and later edges mark whole
seconds. The counter never decreases. -/
def execPpsEdge (s : State) : Host.Outcome State Fault Refusal :=
  if !s.ready || !s.rbit .podTimeCtl .ppsEn then .next s
  else
    match s.pod.timeSet with
    | some sec =>
      let t := sec * 1000000000 % 2 ^ 64
      let s1 : State := { s with pod := { s.pod with timeSet := none, timeHold := s.time - t } }
      .next { s1 with time := max s.time t }
    | none =>
      let r := s.time % 1000000000
      let off : Int := if r < 500000000 then -(r : Int) else 1000000000 - (r : Int)
      .next ((s.measured off).steer off)

/-- TIME_SET (R479). -/
def execTimeSet (_m : Master) (v : Word) (s : State) : Host.Outcome State Fault Refusal :=
  if !s.ready then .next s else .next { s with pod := { s.pod with timeSet := some v.toNat } }

end Sys2Proof.Machine
end

