-- ==== Sys2Proof/Machine/Coll.lean ====
section
/-! DEFINITION. Collectives: groups, the reference tree, combining, segments, credits and completion
(16_collectives_muster.md R481 to R495). -/

namespace Sys2Proof

/-! ### Fields of an engine-addressed VA (Table 16.6) -/

def Frame.engine (f : Frame) : Nat := Machine.bits f.va 58 2
def Frame.cseq (f : Frame) : Nat := Machine.bits f.va 42 16
def Frame.phase (f : Frame) : Nat := Machine.bits f.va 40 2
def Frame.off (f : Frame) : Nat := Machine.bits f.va 0 40

end Sys2Proof

namespace Sys2Proof.Machine

/-! ### Operands (Table 16.1) -/

/-- Word `i` of the command record. -/
def Coll.word (c : Coll) (i : Nat) : Nat := bits c.record.toNat (64 * i) 64

def Coll.opcode (c : Coll) : Nat := bits c.record.toNat 0 8
def Coll.src (c : Coll) : Nat := bits (c.word 1) 0 56
def Coll.dst (c : Coll) : Nat := bits (c.word 2) 0 56
def Coll.segLog2 (c : Coll) : Nat := bits (c.word 3) 48 4
def Coll.op (c : Coll) : Nat := bits (c.word 3) 44 4
def Coll.type (c : Coll) : Nat := bits (c.word 3) 40 4
def Coll.count (c : Coll) : Nat := bits (c.word 3) 0 40
def Coll.step (c : Coll) : Nat := bits (c.word 4) 32 32
def Coll.tensor (c : Coll) : Nat := bits (c.word 4) 0 32
def Coll.incr (c : Coll) : Nat := bits (c.word 5) 32 32
def Coll.root (c : Coll) : Nat := bits (c.word 5) 16 16
def Coll.bellEn (c : Coll) : Bool := bit (c.word 5) 15
def Coll.bell (c : Coll) : Nat := bits (c.word 5) 0 14
def Coll.work (c : Coll) : Nat := bits (c.word 6) 16 40 * 65536
def Coll.q (c : Coll) : Int := signed 12 (bits (c.word 6) 0 12)

def opAllReduce : Nat := 0x10
def opReduceScatter : Nat := 0x11
def opAllGather : Nat := 0x12
def opBroadcast : Nat := 0x13
def opReduce : Nat := 0x14
def opBarrier : Nat := 0x15
def opMuster : Nat := 0x16

/-- Members of the group. -/
def Coll.n (c : Coll) : Nat := c.ranks.length

/-- The operation is SUM_EXACT (Table 16.3). -/
def Coll.exact (c : Coll) : Bool := c.op == 3

/-- Bytes of a source element; a barrier moves none. -/
def Coll.elemBytes (c : Coll) : Nat := if c.opcode = opBarrier then 0 else typeBits c.type / 8

/-- Bytes of an element as sent (R488). -/
def Coll.sentBytes (c : Coll) : Nat := if c.opcode = opBarrier then 0 else if c.exact then 8 else c.elemBytes

/-- The collective combines on the way up (R490). -/
def hasUp (opcode : Nat) : Bool :=
  opcode == opAllReduce || opcode == opReduceScatter || opcode == opReduce || opcode == opBarrier

/-- The collective spreads values on the way down (R490). -/
def hasDown (opcode : Nat) : Bool :=
  opcode == opAllReduce || opcode == opAllGather || opcode == opBroadcast || opcode == opBarrier

/-! ### Groups (R481) -/

/-- The selected node axes, lowest first. -/
def selectedAxes (mask : Nat) : List Nat := (List.range 4).filter fun a => bit mask a

/-- N: the product of the selected extents. -/
def groupSize (axes : List Nat) (mask : Nat) : Nat := (selectedAxes mask).foldl (fun n a => n * axes.getD a 1) 1

/-- A rank's coordinate on a node axis (08 R258). -/
def nodeCoord (axes : List Nat) (rank a : Nat) : Nat := rank / axisProduct axes 0 a % axes.getD a 1

/-- The group index of a rank. -/
def groupIndex (axes : List Nat) (mask rank : Nat) : Nat :=
  ((selectedAxes mask).foldl (fun (r : Nat × Nat) a =>
    (r.1 + nodeCoord axes rank a * r.2, r.2 * axes.getD a 1)) (0, 1)).1

/-- The rank of member `g` of the group of a rank. -/
def groupRank (axes : List Nat) (mask rank g : Nat) : Nat :=
  ((List.range 4).foldl (fun (r : Nat × Nat) a =>
    let e := axes.getD a 1
    if bit mask a then (r.1 + r.2 % e * axisProduct axes 0 a, r.2 / e)
    else (r.1 + nodeCoord axes rank a * axisProduct axes 0 a, r.2)) (0, g)).1

/-! ### The tree (R485, R489) -/

/-- R485: the split point of [a, b). -/
def collSplit (a b : Nat) : Nat := a + 2 ^ Nat.log2 (b - a - 1)

/-- R489: the member that computes node [a, b) of a segment; `k` bounds the depth. -/
def collHost : Nat → Nat → Nat → Nat → Nat
  | 0, a, _, _ => a
  | k + 1, a, b, sel =>
    if b - a ≤ 1 then a
    else
      let m := collSplit a b
      if a ≤ sel ∧ sel < m then collHost k a m sel
      else if m ≤ sel ∧ sel < b then collHost k m b sel
      else if bit sel (Nat.log2 (b - a - 1)) then collHost k m b sel
      else collHost k a m sel

/-- The nodes above a member's leaf, from the root down, as (a, split, b). -/
def collPath : Nat → Nat → Nat → Nat → List (Nat × Nat × Nat)
  | 0, _, _, _ => []
  | k + 1, a, b, me =>
    if b - a ≤ 1 then []
    else
      let m := collSplit a b
      (a, m, b) :: (if me < m then collPath k a m me else collPath k m b me)

/-- A step of a member's climb: the node it hosts, whether its own child is the left one, and the member that hosts
the other child. -/
structure Climb where
  split : Nat
  left : Bool
  other : Nat
  deriving DecidableEq, Repr

/-- The nodes a member hosts in a segment, from its leaf up, and the member that hosts the node above the last, if
any. -/
def climb (n me sel : Nat) : List Climb × Option Nat :=
  ((collPath 64 0 n me).reverse.foldl (fun (r : List Climb × Option Nat) e =>
    match r.2 with
    | some _ => r
    | none =>
      let h := collHost 64 e.1 e.2.2 sel
      if h = me then
        let left := decide (me < e.2.1)
        let other := if left then collHost 64 e.2.1 e.2.2 sel else collHost 64 e.1 e.2.1 sel
        (r.1 ++ [⟨e.2.1, left, other⟩], none)
      else (r.1, some h)) ([], none))

/-! ### Segments (Table 16.5) -/

/-- A segment: its first element in the vector, its elements, its selector. -/
structure Seg where
  start : Nat
  count : Nat
  sel : Nat
  deriving DecidableEq, Repr

/-- Cut `count` elements from `start` into segments of `size` elements, as (start, count). -/
def chop (start count size : Nat) : List (Nat × Nat) :=
  (List.range ((count + size - 1) / size)).map fun i => (start + i * size, min size (count - i * size))

/-- The segments of a collective, in ascending order. -/
def Coll.segs (c : Coll) : List Seg :=
  if c.opcode = opBarrier then [⟨0, 0, 0⟩]
  else
    let size := 2 ^ (c.segLog2 + 16) / c.elemBytes
    let n := c.n
    if c.opcode = opReduceScatter then
      (List.range n).flatMap fun g => (chop (g * (c.count / n)) (c.count / n) size).map fun x => ⟨x.1, x.2, g⟩
    else if c.opcode = opAllGather then
      (List.range n).flatMap fun h => (chop (h * c.count) c.count size).map fun x => ⟨x.1, x.2, h⟩
    else
      let l := chop 0 c.count size
      (l.zip (List.range l.length)).map fun x =>
        ⟨x.1.1, x.1.2, if c.opcode = opAllReduce then x.2 % n else c.root⟩

/-- Segment `i`. -/
def Coll.seg (c : Coll) (i : Nat) : Seg := c.segs.getD i ⟨0, 0, 0⟩

/-- Where a member's source elements of a segment lie. -/
def Coll.srcAt (c : Coll) (g : Seg) : Nat :=
  if c.opcode = opAllGather then c.src + (g.start - c.me * c.count) * c.elemBytes else c.src + g.start * c.elemBytes

/-- Where a segment's result lands. -/
def Coll.dstAt (c : Coll) (g : Seg) : Nat :=
  if c.opcode = opReduceScatter then c.dst + (g.start - c.me * (c.count / c.n)) * c.elemBytes
  else c.dst + g.start * c.elemBytes

/-! ### Combining (Table 16.3, R485 to R488) -/

/-- The numbers that bytes of `w` bytes each spell. -/
def unpackElems (w n : Nat) (bs : List Byte) : List Nat :=
  (List.range n).map fun i => leNat ((bs.drop (i * w)).take w)

/-- Bytes of a list of numbers. -/
def packElems (w : Nat) (xs : List Nat) : List Byte := xs.flatMap (leBytes w)

/-- R488: an FP32 element as a fixed-point word, and its flags INEXACT, RANGE, NONFINITE in bits 0 to 2. -/
def exactWord (q : Int) (x : Nat) : Nat × Nat :=
  match fp32.decode x with
  | .fin n m e =>
    let t := truncTo q (.fin n m e)
    let lost := decide (e < q) && m % 2 ^ (q - e).toNat != 0
    let big := m != 0 && decide (q + 47 ≤ (Nat.log2 m : Int) + e)
    ((t % ((2 ^ 64 : Nat) : Int)).toNat, bval lost + 2 * bval big)
  | _ => (0, 4)

/-- R488: a word as FP32; a zero is +0. -/
def exactFloat (q : Int) (w : Nat) : Nat :=
  let v := signed 64 w
  if v = 0 then 0 else fp32.round (.fin (decide (v < 0)) v.natAbs q)

/-- Table 16.3: combine of two elements, `x` of the lower indices, at split point `m` and element `e`. -/
def Coll.combine (c : Coll) (seed m e x y : Nat) : Nat :=
  match typeFmt c.type with
  | some f =>
    match c.op with
    | 1 => f.round ((f.decode x).add (f.decode y))
    | 2 => srBf16 ((bf16.decode x).add (bf16.decode y)) (philoxAt seed c.tensor c.step m e)
    | 3 => (x + y) % 2 ^ 64
    | 4 => f.round (Fp.minmax false (f.decode x) (f.decode y))
    | _ => f.round (Fp.minmax true (f.decode x) (f.decode y))
  | none =>
    let w := typeBits c.type
    match c.op with
    | 1 => (x + y) % 2 ^ w
    | 4 => if signed w x ≤ signed w y then x else y
    | 5 => if signed w x ≤ signed w y then y else x
    | 6 => x &&& y
    | 7 => x ||| y
    | _ => x ^^^ y

/-- Combine two values of a segment. -/
def Coll.combineAll (c : Coll) (seed m : Nat) (g : Seg) (xs ys : List Nat) : List Nat :=
  ((xs.zip ys).zip (List.range g.count)).map fun p => c.combine seed m (g.start + p.2) p.1.1 p.1.2

/-! ### Values held (R491, R492) -/

/-- The value granted for a segment and phase from a member. -/
def Coll.val (c : Coll) (phase seg src : Nat) : Option CollVal :=
  c.vals.find? fun v => v.phase == phase && v.seg == seg && v.src == src

/-- Replace or add a value. -/
def Coll.setVal (c : Coll) (v : CollVal) : Coll :=
  { c with vals := c.vals.filter (fun w => !(w.phase == v.phase && w.seg == v.seg && w.src == v.src)) ++ [v] }

/-- Bytes of a segment as sent. -/
def Coll.segBytes (c : Coll) (i : Nat) : Nat := (c.seg i).count * c.sentBytes

/-- All of a value has arrived. -/
def Coll.whole (c : Coll) (v : CollVal) : Bool :=
  v.runs != [] && (v.runs.foldl (fun a r => a + r.2.length) 0) == c.segBytes v.seg

/-- The bytes of a value that has arrived. -/
def CollVal.bytes (v : CollVal) (n : Nat) : List Byte :=
  let t := v.runs.foldl (fun (t : Table Byte) r =>
    (r.2.zip (List.range r.2.length)).foldl (fun t b => Table.set 0 t (r.1 + b.2) b.1) t) []
  (List.range n).map fun i => Table.get 0 t i

/-- Put back an active collective. -/
def State.setColl (s : State) (c : Coll) : State :=
  { s with pod := { s.pod with colls := s.pod.colls.map fun (x : Coll) =>
      if x.ctx = c.ctx ∧ x.engine = c.engine then c else x } }

/-- The active collective of a context on an engine. -/
def State.coll (s : State) (ctx e : Nat) : Option Coll :=
  s.pod.colls.find? fun c => c.ctx == ctx && c.engine == e

/-- What an error record says of a collective engine: KIND 3 and its number. -/
def collInfo (e : Nat) : ErrInfo := { die := 4, agent := 3, unit := e }

/-- An access of an engine that did not succeed: a stall, or the failure of the context (R484; 19 Table 19.3). -/
def State.collStop (s : State) (c : Coll) (n : Need) (x : UAccess) : State :=
  match x with
  | .ok => s
  | .fault cause e va =>
    (s.xltFault ⟨.coll c.engine, n.code, cause, c.ctx, va, e⟩).setColl { c with stall := some (c.ctx, blockOf va) }
  | .refused l => s.ctxFail c.ctx Code.frameOwner { collInfo c.engine with addr := 128 * l, addrKind := 2 } none
  | .poison va =>
    s.countConsumed.ctxFail c.ctx Code.poison { collInfo c.engine with addr := va, addrKind := 1 } none

/-! ### Sending (R491, R492) -/

/-- The AUX word of a segment run. -/
def Coll.aux (c : Coll) (flags : Nat) : Nat :=
  flags * 2 ^ 61 + c.count * 2 ^ 16 + c.segLog2 * 2 ^ 12 + c.type * 2 ^ 8 + c.op * 2 ^ 4 + c.opcode % 16

/-- The engine-addressed VA of Table 16.6. -/
def Coll.va (c : Coll) (kind phase off : Nat) : Nat :=
  kind * 2 ^ 60 + c.engine * 2 ^ 58 + c.cseq * 2 ^ 42 + phase * 2 ^ 40 + off % 2 ^ 40

/-- Send a value to a member as runs of up to 4,096 bytes. -/
def State.sendValue (s : State) (c : Coll) (phase seg flags dest : Nat) (bs : List Byte) : State :=
  let node := s.rankNode c.ctx (c.ranks.getD dest 0)
  let base := (c.seg seg).start * c.sentBytes
  let m := s.takeMsg
  let runs := if bs = [] then [(0, [])] else (List.range ((bs.length + 4095) / 4096)).map fun i =>
    (4096 * i, (bs.drop (4096 * i)).take 4096)
  runs.foldl (fun s r => s.podSend node
    ⟨tData, s.rf (.podCtxJob c.ctx) .jobId, m.2, c.va 0b1000 phase (base + r.1), c.aux flags, r.2.length, c.ctx,
      .coll c.engine c.cseq, r.2⟩) m.1

/-- Grant a credit to a member. -/
def State.sendCredit (s : State) (c : Coll) (phase seg dest : Nat) : State :=
  let m := s.takeMsg
  m.1.podSend (s.rankNode c.ctx (c.ranks.getD dest 0))
    ⟨tData, s.rf (.podCtxJob c.ctx) .jobId, m.2, c.va 0b1001 phase seg, 0, 0, c.ctx, .coll c.engine c.cseq, []⟩

/-- A member has granted a credit. -/
def State.credited (s : State) (c : Coll) (phase seg dest : Nat) : Bool :=
  s.pod.credits.contains ⟨c.ctx, c.engine, c.cseq, phase, seg, c.ranks.getD dest 0⟩

/-! ### Progress of one segment (R490) -/

/-- The source elements of a segment in the form that is combined, with flags. -/
def Coll.leaf (c : Coll) (g : Seg) (bs : List Byte) : List Nat × Nat :=
  let xs := unpackElems c.elemBytes g.count bs
  if c.exact then
    let ws := xs.map (exactWord c.q)
    (ws.map Prod.fst, ws.foldl (fun a w => a ||| w.2) 0)
  else (xs, 0)

/-- A value in the form it is stored in DST. -/
def Coll.stored (c : Coll) (xs : List Nat) : List Byte :=
  if c.exact then packElems 4 (xs.map (exactFloat c.q)) else packElems c.elemBytes xs

/-- The marks in `sent`: a value sent to a member in a phase, or (phase 2) a member's own result formed, or (3 and 4) a value that waited for a credit. -/
def Coll.mark (c : Coll) (phase seg dest : Nat) : Coll := { c with sent := c.sent ++ [(phase, seg, dest)] }

def Coll.marked (c : Coll) (phase seg dest : Nat) : Bool := c.sent.contains (phase, seg, dest)

/-- A value is held for lack of a credit: counted once. -/
def State.waitCredit (s : State) (c : Coll) (phase seg dest : Nat) : State × Coll :=
  if c.marked (3 + phase) seg dest then (s, c)
  else (s.satRf (.podCollStat c.engine) .creditWaits 1, c.mark (3 + phase) seg dest)

/-- Write a segment's result into DST. -/
def State.land (s : State) (c : Coll) (g : Seg) (xs : List Nat) : State × UAccess :=
  if g.count = 0 then (s, .ok) else s.unitWrite c.ctx (c.dstAt g) (c.stored xs)

/-- The member's own value of a segment: its source combined with every value it awaits, in tree order. -/
def Coll.rise (c : Coll) (seed i : Nat) (g : Seg) (cl : List Climb) (leaf : List Nat × Nat) : List Nat × Nat :=
  cl.foldl (fun (r : List Nat × Nat) k =>
    match c.val 0 i k.other with
    | none => r
    | some v =>
      let ys := unpackElems c.sentBytes g.count (v.bytes (c.segBytes i))
      (if k.left then c.combineAll seed k.split g r.1 ys else c.combineAll seed k.split g ys r.1, r.2 ||| v.flags))
    leaf

/-- The up phase of a segment, where all it awaits is held: combine, then send the value on, or form the result. -/
def State.collUp (s : State) (c : Coll) (seed i : Nat) : State × Coll × Bool :=
  let g := c.seg i
  let cl := climb c.n c.me g.sel
  let dest := cl.2.getD c.me
  let phase := if cl.2.isSome then 0 else 2
  let held := !hasUp c.opcode || cl.1.all fun k => match c.val 0 i k.other with
    | some v => c.whole v
    | none => false
  let must := hasUp c.opcode || cl.2.isNone
  if !must || c.marked phase i dest || !held then (s, c, true)
  else if phase = 0 ∧ !s.credited c 0 i dest then
    let w := s.waitCredit c 0 i dest
    (w.1, w.2, true)
  else
    let r := if g.count = 0 then (s, UAccess.ok, []) else s.unitRead c.ctx (c.srcAt g) (g.count * c.elemBytes)
    match r.2.1 with
    | .ok =>
      let v := if hasUp c.opcode then c.rise seed i g cl.1 (c.leaf g r.2.2) else c.leaf g r.2.2
      let c1 := { c with vals := c.vals.filter fun w => !(w.phase == 0 && w.seg == i) }
      if phase = 0 then
        (r.1.sendValue c 0 i v.2 dest (packElems c.sentBytes v.1), c1.mark 0 i dest, true)
      else
        let w := r.1.land c g v.1
        match w.2 with
        | .ok =>
          let own : CollVal := ⟨1, i, c.me, 0, v.2, [(0, packElems c.sentBytes v.1)]⟩
          let c2 := { c1.mark 2 i c.me with flags := c1.flags ||| v.2 }
          (w.1, if hasDown c.opcode then c2.setVal own else c2, true)
        | x => (w.1.collStop c needWrite x, c, false)
    | x => (r.1.collStop c needRead x, c, false)

/-- The down phase of a segment: pass a value that is held to the hosts of the other children. -/
def State.collDown (s : State) (c : Coll) (i : Nat) : State × Coll :=
  let cl := climb c.n c.me (c.seg i).sel
  if !hasDown c.opcode then (s, c)
  else
    match c.val 1 i (cl.2.getD c.me) with
    | none => (s, c)
    | some v =>
      if !c.whole v then (s, c)
      else
        let bs := v.bytes (c.segBytes i)
        cl.1.reverse.foldl (fun (r : State × Coll) k =>
          if r.2.marked 1 i k.other then r
          else if !r.1.credited c 1 i k.other then r.1.waitCredit r.2 1 i k.other
          else (r.1.sendValue c 1 i v.flags k.other bs, r.2.mark 1 i k.other)) (s, c)

/-- All of a segment's work on this member is done. -/
def Coll.segDone (c : Coll) (i : Nat) : Bool :=
  let cl := climb c.n c.me (c.seg i).sel
  let up := match cl.2 with
    | some d => !hasUp c.opcode || c.marked 0 i d
    | none => c.marked 2 i c.me
  let down := !hasDown c.opcode || ((match c.val 1 i (cl.2.getD c.me) with
    | some v => c.whole v
    | none => false) && cl.1.all fun k => c.marked 1 i k.other)
  up && down

/-- Work on one segment. The last answer is false where the engine stalls or the context has failed. -/
def State.collSeg (s : State) (c : Coll) (seed i : Nat) : State × Coll × Bool :=
  if c.done.contains i then (s, c, true)
  else
    let u := s.collUp c seed i
    if !u.2.2 then u
    else
      let d := u.1.collDown u.2.1 i
      if d.2.segDone i then
        (d.1.wrapRf (.podCollStat c.engine) .segments 1,
         { d.2 with done := d.2.done ++ [i], vals := d.2.vals.filter fun v => v.seg != i }, true)
      else (d.1, d.2, true)

/-! ### Credits granted (R492) -/

/-- The values a member still has to receive for a segment, as (phase, member). -/
def Coll.awaits (c : Coll) (i : Nat) : List (Nat × Nat) :=
  let cl := climb c.n c.me (c.seg i).sel
  let up := if hasUp c.opcode then cl.1.map fun k => (0, k.other) else []
  let down := if hasDown c.opcode then cl.2.toList.map fun h => (1, h) else []
  (up ++ down).filter fun x => (c.val x.1 i x.2).isNone && !(x.1 == 0 && (match cl.2 with
    | some d => c.marked 0 i d
    | none => c.marked 2 i c.me))

/-- The lowest workspace slot that no held value uses. -/
def Coll.freeSlot (c : Coll) : Option Nat :=
  (List.range 64).find? fun n => !(c.vals.any fun v => v.phase == 0 && v.slot == n)

/-- Grant credits in ascending segment order, at most 64 outstanding. -/
def State.collGrant (s : State) (c : Coll) : State × Coll :=
  (List.range c.segs.length).foldl (fun (r : State × Coll) i =>
    if r.2.done.contains i then r
    else (r.2.awaits i).foldl (fun (r : State × Coll) x =>
      let out := (r.2.vals.filter fun v => !r.2.whole v).length
      if 64 ≤ out then r
      else if x.1 = 1 then (r.1.sendCredit c 1 i x.2, r.2.setVal ⟨1, i, x.2, 0, 0, []⟩)
      else
        match r.2.freeSlot with
        | none => r
        | some n => (r.1.sendCredit c 0 i x.2,
            { r.2.setVal ⟨0, i, x.2, n, 0, []⟩ with used := setInsert r.2.used n })) r) (s, c)

/-! ### Completion (R494) -/

/-- Bytes of a workspace slot. -/
def Coll.slotBytes (c : Coll) : Nat := 2 ^ (c.segLog2 + 16) * (if c.exact then 2 else 1)

/-- Every transfer of a collective has been acknowledged. -/
def State.collAcked (s : State) (c : Coll) : Bool :=
  let mine := fun (b : Body) => b.ctx == c.ctx && b.owner == FrameOf.coll c.engine c.cseq
  s.pod.peers.all fun e => !(e.2.pool.any fun f => mine f.body) && !e.2.backlog.any mine

/-- Zeros over every slot used. -/
def State.collClear (s : State) (c : Coll) : State × UAccess :=
  c.used.foldl (fun (r : State × UAccess) n =>
    match r.2 with
    | .ok => r.1.unitWrite c.ctx (c.work + n * c.slotBytes) (List.replicate c.slotBytes 0)
    | _ => r) (s, .ok)

/-- A collective whose segments are done, whose transfers are acknowledged and whose workspace is clear completes:
BELL is signalled, and its command ends. -/
def State.collFinish (s : State) (c : Coll) : State :=
  if c.done.length < c.segs.length ∨ !s.collAcked c then s.setColl c
  else
    let z := s.collClear c
    match z.2 with
    | .ok =>
      let s1 : State := { z.1 with pod := { z.1.pod with
        colls := z.1.pod.colls.filter fun x => !(x.ctx == c.ctx && x.engine == c.engine)
        credits := z.1.pod.credits.filter fun k => !(k.ctx == c.ctx && k.engine == c.engine && k.cseq == c.cseq) } }
      let s2 := s1.showColl
      let result := if c.exact then c.flags else 0
      if c.bellEn then
        if c.ctx = 0 || s2.bellOk c.ctx c.bell then
          (s2.bellAdd c.bell (BitVec.ofNat 64 c.incr) c.ctx).endCmd c.queue c.index stOk result 0
        else (s2.lastBell c.bell).endCmd c.queue c.index stBellOwner 0 c.bell
      else s2.endCmd c.queue c.index stOk result 0
    | x => z.1.collStop c needWrite x

/-- The active collective of a context on an engine does all it now can. -/
def State.collRun (s : State) (ctx e : Nat) : State :=
  match s.coll ctx e, Table.find s.ctxs ctx with
  | some c, some cx =>
    if c.stall.isSome then s
    else
      let r := (List.range c.segs.length).foldl (fun (r : State × Coll × Bool) i =>
        if r.2.2 then r.1.collSeg r.2.1 cx.seed i else r) (s, c, true)
      if !r.2.2 then
        -- keep the progress made before the stall
        match r.1.coll ctx e with
        | some x => r.1.setColl { r.2.1 with stall := x.stall }
        | none => r.1
      else
        let g := r.1.collGrant r.2.1
        g.1.collFinish g.2
  | _, _ => s

/-- Every active collective does all it now can (after a RETRY or an ACK). -/
def State.collRunAll (s : State) : State := s.pod.colls.foldl (fun s c => s.collRun c.ctx c.engine) s

/-! ### Start (R482 to R484) -/

/-- Two spans of bytes meet. -/
def spansMeet (a la b lb : Nat) : Bool := decide (0 < la) && decide (0 < lb) && decide (a < b + lb) && decide (b < a + la)

/-- Table 16.3: the types an operation takes. -/
def collTypes (op : Nat) : List Nat :=
  match op with
  | 0 => [0, 1, 2, 12, 13]
  | 1 => [0, 1, 2, 12, 13]
  | 2 => [2]
  | 3 => [1]
  | 4 => [0, 1, 2, 12, 13]
  | 5 => [0, 1, 2, 12, 13]
  | 6 => [12, 13]
  | 7 => [12, 13]
  | 8 => [12, 13]
  | _ => []

/-- The bits of operand word `i` that a collective command uses; the others are reserved (R412, R483). -/
def Coll.mask (c : Coll) (i : Nat) : Nat :=
  let bar := c.opcode == opBarrier
  match i with
  | 1 => if bar then 0 else 2 ^ 56 - 1
  | 2 => if bar then 0 else 2 ^ 56 - 1
  | 3 => 0xF * 2 ^ 56 + 0x3 * 2 ^ 52 + (if bar then 0 else 0xFFF * 2 ^ 40 + (2 ^ 40 - 1))
  | 4 => if !bar && c.op == 2 then 2 ^ 64 - 1 else 0
  | 5 => (2 ^ 32 - 1) * 2 ^ 32 + 0x8000 + 0x3FFF +
      (if c.opcode = opBroadcast ∨ c.opcode = opReduce then 0xFFFF * 2 ^ 16 else 0)
  | _ => if bar || !hasUp c.opcode then 0 else (2 ^ 40 - 1) * 2 ^ 16 + (if c.exact then 0xFFF else 0)

/-- R484: the first offending word of a collective's operands, if any. -/
def Coll.badWord (c : Coll) : Option Nat :=
  let n := c.n
  let ls := c.count * c.elemBytes
  let ld := if c.opcode = opReduceScatter then ls / n else if c.opcode = opAllGather then ls * n else ls
  let reads := c.opcode != opBroadcast || c.me == c.root
  let writes := c.opcode != opReduce || c.me == c.root
  let same := c.src == c.dst && (c.opcode == opAllReduce || c.opcode == opBroadcast)
  let reduces := c.opcode == opAllReduce || c.opcode == opReduceScatter || c.opcode == opReduce
  let clash := reads && writes && spansMeet c.src ls c.dst ld && !same
  let wl := 64 * c.slotBytes
  let bad := fun (i : Nat) =>
    (c.word i &&& c.mask i) != c.word i || (c.opcode != opBarrier && (match i with
      | 1 => c.src % 32 != 0
      | 2 => c.dst % 32 != 0 || clash
      | 3 => !(collTypes c.op).contains c.type || reduces == (c.op == 0) || decide (8 < c.segLog2) || c.count == 0 ||
          (c.opcode == opReduceScatter && c.count % n != 0)
      | 5 => (c.opcode == opBroadcast || c.opcode == opReduce) && decide (n ≤ c.root)
      | 6 => reduces && ((reads && spansMeet c.work wl c.src ls) || (writes && spansMeet c.work wl c.dst ld))
      | _ => false))
  [1, 2, 3, 4, 5, 6].find? bad

/-- R482, R484: a collective command of a queue starts, or fails with BAD_CMD. A context's engine runs one at a time:
the start waits for the collective before it. Answers whether the command has started. -/
def State.collStart (s : State) (n ctx : Nat) (cx : Ctx) (k : Cmd) : State × Bool :=
  let e := bits (k.word 3) 52 2
  let mask := bits (k.word 3) 56 4
  let rank := (s.rankOf ctx).1
  let size := groupSize cx.axes mask
  let key := 4 * ctx + e
  let seq := Table.get 0 s.pod.cseq key
  let c : Coll := ⟨ctx, e, (seq + 1) % 65536, n, k.index, k.record,
    (List.range size).map (groupRank cx.axes mask rank), groupIndex cx.axes mask rank, [], [], [], [], 0, none⟩
  if (s.coll ctx e).isSome then (s, false)
  else
    match c.badWord with
    | some i => (s.endCmd n k.index stBadCmd 0 i, true)
    | none =>
      if (Table.find s.pod.collQueue key).getD n ≠ n then (s.endCmd n k.index stBadCmd 0 3, true)
      else
        let s1 : State := { s with pod := { s.pod with
          colls := s.pod.colls ++ [c]
          cseq := Table.insert s.pod.cseq key (seq + 1)
          collQueue := Table.insert s.pod.collQueue key n } }
        ((s1.setCmd n k.index .running).showColl.collRun ctx e, true)

/-! ### Arrivals (R491, R492) -/

/-- The member of a collective's group that a node hosts. -/
def State.memberOf (s : State) (c : Coll) (node : Nat) : Option Nat :=
  (List.range c.n).find? fun g => g != c.me && s.rankNode c.ctx (c.ranks.getD g 0) == node

/-- R491: a frame's parameters differ from the matching collective's: the context fails. -/
def State.collMismatch (s : State) (c : Coll) (node : Nat) : State :=
  (((s.satRf .podCollErr .mismatch 1).setRf .podCollErr .lastCtx c.ctx).setRf .podCollErr .lastPeer node).ctxFail
    c.ctx Code.collMismatch (collInfo c.engine) none

/-- The segment that a byte offset lies in, with the offset inside it. -/
def Coll.segOf (c : Coll) (off : Nat) : Option (Nat × Nat) :=
  let l := c.segs
  (l.zip (List.range l.length)).findSome? fun x =>
    let b := x.1.start * c.sentBytes
    if b ≤ off ∧ off < b + max 1 (x.1.count * c.sentBytes) then some (x.2, off - b) else none

/-- A run that was granted is accepted: into its workspace slot, or into DST. -/
def State.takeRun (s : State) (f : Frame) (c : Coll) (v : CollVal) (i off : Nat) : State :=
  let bs := takePad 0 f.len f.payload
  let flags := bits f.aux 61 3
  let v1 : CollVal := { v with flags := v.flags ||| flags, runs := v.runs ++ [(off, bs)] }
  let n := bs.length / max 1 c.sentBytes
  let w :=
    if bs = [] then (s, UAccess.ok)
    else if v.phase = 0 then s.unitWrite c.ctx (c.work + v.slot * c.slotBytes + off) bs
    else
      let g := c.seg i
      let e0 := off / max 1 c.sentBytes
      s.unitWrite c.ctx (c.dstAt g + e0 * c.elemBytes) (c.stored (unpackElems c.sentBytes n bs))
  match w.2 with
  | .ok =>
    let c1 := c.setVal v1
    let c2 := if v.phase = 1 then { c1 with flags := c1.flags ||| flags } else c1
    ((w.1.setColl c2).markRx f.src f.psn).collRun c.ctx c.engine
  | x => w.1.collStop c needWrite x

/-- SEGMENT_RUN: a run of a collective. One that no credit allows, or that finds its engine stalled, is not accepted
and comes again. -/
def execSegmentRun (f : Frame) (s : State) : Host.Outcome State Fault Refusal :=
  .next (s.arrive f tData fun s1 =>
    if f.va / 2 ^ 60 ≠ 0b1000 then s
    else s1.sequenced f fun s ctx =>
      match s.coll ctx f.engine with
      | none => s
      | some c =>
        if c.cseq ≠ f.cseq then s
        else if f.aux % 2 ^ 56 ≠ c.aux 0 then s.collMismatch c f.src
        else
          match s.memberOf c f.src, c.segOf f.off with
          | some m, some (i, off) =>
            match c.val f.phase i m with
            | none => s
            | some v => if c.stall.isSome then s else s.takeRun f c v i off
          | _, _ => s)

/-- CREDIT: a member accepts a segment's value in a phase. A credit for a segment that the collective does not have
shows that its parameters differ. -/
def execCredit (f : Frame) (s : State) : Host.Outcome State Fault Refusal :=
  .next (s.arrive f tData fun s1 =>
    if f.va / 2 ^ 60 ≠ 0b1001 then s
    else s1.sequenced f fun s ctx =>
      let rank := ((List.range (s.rankOf ctx).2).find? fun r => s.rankNode ctx r == f.src).getD 0
      let k : Credit := ⟨ctx, f.engine, f.cseq, f.phase, f.off, rank⟩
      let s2 : State := (({ s with pod := { s.pod with credits := s.pod.credits ++ [k] } }).markRx f.src f.psn)
      match s2.coll ctx f.engine with
      | none => s2
      | some c =>
        if c.cseq ≠ f.cseq then s2
        else if c.segs.length ≤ f.off then s2.collMismatch c f.src
        else s2.collRun ctx f.engine)

end Sys2Proof.Machine
end

