-- ==== Sys2Proof/Machine/Muster.lean ====
section
/-! DEFINITION. Muster: the start of a job on every node or on none, its messages and limits, and what an ACK, a
REFUSE and a lost peer mean for it (16_collectives_muster.md R496 to R503; 15_pod_transport.md R464, R473, R474). -/

namespace Sys2Proof

/-! ### Fields of a muster message (Table 16.8) -/

/-- `n` bytes of the payload at an offset. -/
def Frame.pay (f : Frame) (off n : Nat) : Nat := Machine.leNat (Machine.takePad 0 n (f.payload.drop off))

def Frame.mtype (f : Frame) : Nat := f.pay 0 1
def Frame.reason (f : Frame) : Nat := f.pay 1 1
def Frame.epoch (f : Frame) : Nat := f.pay 4 4
def Frame.rank (f : Frame) : Nat := f.pay 8 4
def Frame.acked (f : Frame) : Nat := f.pay 0xC 4
def Frame.digest (f : Frame) : List Byte := Machine.takePad 0 64 (f.payload.drop 0x40)

end Sys2Proof

namespace Sys2Proof.Machine

/-! ### The tree and the context -/

/-- The children of a rank (R497). -/
def children (rank ranks : Nat) : List Nat :=
  (List.range 16).filterMap fun i => if 16 * rank + 1 + i < ranks then some (16 * rank + 1 + i) else none

/-- The parent of a rank. -/
def parent (rank : Nat) : Nat := (rank - 1) / 16

/-- A context has failed. -/
def State.ctxFailed (s : State) (ctx : Nat) : Bool := s.rbit (.fltCtxState ctx) .failed

/-- The context needs a muster: it is bound to a job of more than one node (R496). -/
def State.musters (s : State) (ctx : Nat) : Bool := s.bound ctx && decide (1 < (s.rankOf ctx).2)

/-- R496: commands of the context's queues wait at their start. -/
def State.unmustered (s : State) (ctx : Nat) : Bool :=
  s.musters ctx && (s.muster ctx).stage != MusterStage.running

/-- The package refuses a muster: retirement pending or replacement due (R498, R499), or a cluster is halted
(01 R50). -/
def State.musterRefused (s : State) : Bool :=
  s.rf .bootStatus .health != 0 || (List.range 11).any fun k => s.reg (.fltHalted k) != 0

/-- POD_MUSTER_STAT after an outcome. -/
def State.musterStat (s : State) (ctx outcome reason rank : Nat) : State :=
  let s1 := (s.setRf .podMusterStat .lastEpoch (s.muster ctx).epoch).setRf .podMusterStat .lastOutcome outcome
  ((s1.setRf .podMusterStat .lastReason reason).setRf .podMusterStat .lastCtx ctx).setRf .podMusterStat .lastRank rank

/-- What an error record says of a muster: the Square, no unit. -/
def musterInfo : ErrInfo := { die := 4, agent := 3, unit := 0 }

/-- R499: rank 0 sends ABORT to every other rank and fails its own context. -/
def State.musterAbort (s : State) (ctx reason rank : Nat) : State :=
  ((s.sendAborts ctx reason rank).musterStat ctx 2 reason rank).ctxFail ctx Code.musterAbort musterInfo none

/-- A MUSTER command ends with RESULT equal to its epoch. -/
def State.musterEnd (s : State) (ctx : Nat) : State :=
  let m := s.muster ctx
  let s1 := s.setMuster ctx { m with stage := .running }
  match m.cmd with
  | some (n, i) => s1.endCmd n i stOk m.epoch 0
  | none => s1

/-- Send READY to the children. -/
def State.sendReady (s : State) (ctx epoch : Nat) (digest : List Byte) : State :=
  let r := s.rankOf ctx
  (children r.1 r.2).foldl (fun s k => s.musterSend ctx k mReady reasonOk epoch r.1 0 digest) s

/-- Send the parent the one ACK of this node. -/
def State.answer (s : State) (ctx reason named acked : Nat) : State :=
  let m := s.muster ctx
  let epoch := match m.ready with
    | some (e, _) => e
    | none => m.epoch
  (s.setMuster ctx { m with answered := true }).musterSend ctx (parent (s.rankOf ctx).1) mAck reason epoch named acked
    m.digest

/-- R498: the OK answer, once every child has answered; a package that has come to refuse musters says so instead
(01 R50). -/
def State.answerOk (s : State) (ctx : Nat) : State :=
  let m := s.muster ctx
  let r := s.rankOf ctx
  if m.answered || !((children r.1 r.2).all fun k => (Table.find m.acks k).isSome) then s
  else if s.musterRefused then s.answer ctx reasonRefused r.1 0
  else s.answer ctx reasonOk r.1 (1 + m.acks.foldl (fun a e => a + e.2) 0)

/-- R498: a node comes to hold READY: it forwards it, and answers at once or once its children have. -/
def State.holdReady (s : State) (ctx : Nat) : State :=
  let m := s.muster ctx
  match m.ready with
  | none => s
  | some (e, d) =>
    let s1 := (s.setMuster ctx { m with stage := .held }).sendReady ctx e d
    let me := (s.rankOf ctx).1
    if e ≠ m.epoch ∨ d ≠ m.digest then s1.answer ctx reasonMismatch me 0
    else if s1.musterRefused then s1.answer ctx reasonRefused me 0
    else s1.answerOk ctx

/-- R496, R499: MUSTER starts, with its digest read. -/
def State.musterStart (s : State) (n ctx : Nat) (k : Cmd) (digest : List Byte) : State :=
  let epoch := bits (k.word 2) 0 32
  let m := s.muster ctx
  let s1 := (s.setMuster ctx { m with stage := .started, cmd := some (n, k.index), epoch := epoch, digest := digest })
  let s2 := s1.setCmd n k.index .running
  if (s.rankOf ctx).1 = 0 then
    if s2.musterRefused then s2.musterAbort ctx reasonRefused 0 else s2.sendReady ctx epoch digest
  else s2.holdReady ctx

/-! ### Messages (R498 to R502) -/

/-- A muster message of a type arrives: after the context has failed it is acknowledged and ignored (R501). -/
def State.musterFrame (s : State) (f : Frame) (mtype : Nat) (act : State → Nat → State) : State :=
  s.arrive f tData fun s1 =>
    if f.va / 2 ^ 60 ≠ 0b1010 ∨ f.mtype ≠ mtype then s
    else s1.sequenced f fun s ctx => if s.ctxFailed ctx then s.markRx f.src f.psn else act s ctx

/-- R501: the epoch of a message differs from the local MUSTER's. -/
def Muster.stale (m : Muster) (f : Frame) : Bool := m.stage != MusterStage.unmustered && m.epoch != f.epoch

/-- READY (R498). -/
def execReady (f : Frame) (s : State) : Host.Outcome State Fault Refusal :=
  .next (s.musterFrame f mReady fun s ctx =>
    let s1 := s.markRx f.src f.psn
    let m := s1.muster ctx
    if (s1.rankOf ctx).1 = 0 || m.ready.isSome || m.stage == MusterStage.running then s1
    else
      let s2 := s1.setMuster ctx { m with ready := some (f.epoch, f.digest) }
      if m.stage = .started then s2.holdReady ctx else s2)

/-- MUSTER_ACK (R498, R499): a child's answer. -/
def execMusterAck (f : Frame) (s : State) : Host.Outcome State Fault Refusal :=
  .next (s.musterFrame f mAck fun s ctx =>
    let s1 := s.markRx f.src f.psn
    let m := s1.muster ctx
    let r := s1.rankOf ctx
    match (children r.1 r.2).find? fun k => s1.rankNode ctx k == f.src with
    | none => s1
    | some k =>
      let epoch := match m.ready with
        | some (e, _) => e
        | none => m.epoch
      if f.epoch ≠ epoch then s1
      else if r.1 = 0 then
        if m.stage ≠ .started then s1
        else if f.reason ≠ reasonOk then s1.musterAbort ctx f.reason f.rank
        else
          let acks := Table.insert m.acks k f.acked
          let all := ((children r.1 r.2).all fun k => (Table.find acks k).isSome) &&
            (acks.foldl (fun a e => a + e.2) 0) == r.2 - 1
          if all && s1.musterRefused then s1.musterAbort ctx reasonRefused 0
          else if all then
            (s1.otherRanks ctx).foldl (fun s q => s.musterSend ctx q mGo reasonOk m.epoch r.1 0 [])
              (s1.setMuster ctx { m with acks := acks, stage := .go })
          else s1.setMuster ctx { m with acks := acks }
      else if m.stage ≠ .held ∨ m.answered then s1
      else if f.reason ≠ reasonOk then s1.answer ctx f.reason f.rank 0
      else (s1.setMuster ctx { m with acks := Table.insert m.acks k f.acked }).answerOk ctx)

/-- GO (R500): taken only while READY of its epoch is held, else refused. -/
def execGo (f : Frame) (s : State) : Host.Outcome State Fault Refusal :=
  .next (s.musterFrame f mGo fun s ctx =>
    let m := s.muster ctx
    let epoch := match m.ready with
      | some (e, _) => e
      | none => m.epoch
    if m.stage = .held ∧ f.epoch = epoch then
      ((s.markRx f.src f.psn).musterEnd ctx).musterStat ctx 1 reasonOk f.rank
    else s.refuse f)

/-- ABORT (R495, R501). -/
def execAbort (f : Frame) (s : State) : Host.Outcome State Fault Refusal :=
  .next (s.musterFrame f mAbort fun s ctx =>
    let s1 := s.markRx f.src f.psn
    let m := s1.muster ctx
    if m.stale f then s1
    else
      let went := m.stage == MusterStage.running || m.stage == MusterStage.go
      let code := if went && f.reason == reasonJobFailed then Code.jobAborted else Code.musterAbort
      (s1.musterStat ctx 3 f.reason f.rank).ctxFail ctx code musterInfo none)

/-- TIMEOUT (R499): rank 0 has not heard from every rank within 20 ms. -/
def execTimeout (ctx : Nat) (s : State) : Host.Outcome State Fault Refusal :=
  if !s.ready || s.ctxFailed ctx || (s.rankOf ctx).1 != 0 || (s.muster ctx).stage != MusterStage.started then .next s
  else .next (s.musterAbort ctx reasonTimeout 0)

/-- READY_HOLD_EXPIRY (R501): READY held for 100 ms without GO or ABORT. The reason and rank that
POD_MUSTER_STAT then shows are free values. -/
def execReadyHoldExpiry (ctx : Nat) (s : State) : Host.Outcome State Fault Refusal :=
  if !s.ready || s.ctxFailed ctx || (s.muster ctx).stage != MusterStage.held then .next s
  else
    let w := s.freshWord
    .next ((w.1.musterStat ctx 4 (w.2.toNat % 16) (w.2.toNat / 16)).ctxFail ctx Code.musterTimeout musterInfo none)

/-- The tree neighbours of a rank. -/
def neighbours (rank ranks : Nat) : List Nat := (if rank = 0 then [] else [parent rank]) ++ children rank ranks

/-- PULSE (R502): without a frame, the millisecond at which every mustered context sends one to each tree
neighbour; with one, its arrival, which changes nothing beyond its acknowledgement. -/
def execPulse (f : Option Frame) (s : State) : Host.Outcome State Fault Refusal :=
  match f with
  | some f => .next (s.musterFrame f mPulse fun s _ => s.markRx f.src f.psn)
  | none =>
    if !s.ready then .next s
    else
      .next (s.pod.musters.foldl (fun s e =>
        let ctx := e.1
        if e.2.stage = .running ∧ s.musters ctx ∧ !s.ctxFailed ctx ∧ (Table.find s.ctxs ctx).isSome then
          let r := s.rankOf ctx
          (neighbours r.1 r.2).foldl (fun s k => s.musterSend ctx k mPulse reasonOk e.2.epoch r.1 0 []) s
        else s) s)

/-! ### ACK, REFUSE and PEER_LOST -/

/-- A GO of a context has not been acknowledged, to any node or to one. -/
def State.goOpen (s : State) (ctx : Nat) (node : Option Nat) : Bool :=
  let go := fun (b : Body) => b.ctx == ctx && b.owner == FrameOf.muster mGo
  s.pod.peers.any fun e =>
    (match node with
      | some n => e.1 == n
      | none => true) && ((e.2.pool.any fun x => go x.body) || e.2.backlog.any go)

/-- R499: rank 0's MUSTER completes once every GO has been acknowledged. -/
def State.goDone (s : State) : State :=
  s.pod.musters.foldl (fun s e =>
    if e.2.stage = .go ∧ !s.goOpen e.1 none ∧ !s.ctxFailed e.1 then (s.musterEnd e.1).musterStat e.1 1 reasonOk 0
    else s) s

/-- ACK (R463 to R467), with what it completes: bells, collectives (R494) and musters (R499). -/
def execAck (f : Frame) (s : State) : Host.Outcome State Fault Refusal :=
  .next (s.arrive f tAck fun s1 => s1.plain f fun s1 => (s1.takeAck f).collRunAll.goDone)

/-- REFUSE (R473, R500): the context that issued the message fails; rank 0 first tells the others of a refused GO. -/
def execRefuse (f : Frame) (s : State) : Host.Outcome State Fault Refusal :=
  .next (s.arrive f tRefuse fun s1 => s1.plain f fun s1 =>
    match (s1.peer f.src).pool.find? fun x => x.psn == f.psn with
    | none => s1
    | some x =>
      let ctx := x.body.ctx
      let s2 :=
        if x.body.owner = .muster mGo ∧ (s1.muster ctx).stage = .go ∧ !s1.ctxFailed ctx then
          let rank := ((s1.otherRanks ctx).find? fun r => s1.rankNode ctx r == f.src).getD 0
          (s1.sendAborts ctx reasonGoRefused rank).musterStat ctx 2 reasonGoRefused rank
        else s1
      s2.ctxFail ctx Code.peerRefused (portInfo f.port) none)

/-! ### Lost peers (R474) -/

/-- A member of a collective's group is on a node. -/
def State.onNode (s : State) (c : Coll) (g node : Nat) : Bool := s.rankNode c.ctx (c.ranks.getD g 0) == node

/-- Contexts with a message to or from a peer in progress. -/
def State.peerCtxs (s : State) (n : Nat) : List Nat :=
  let p := s.peer n
  let out := p.pool.map (fun x => x.body.ctx) ++ p.backlog.map (fun b => b.ctx) ++
    (s.pod.bells.filter fun b => b.peer == n).map (fun b => b.body.ctx)
  let inn := (s.pod.gets.filter fun g => g.peer == n).map (fun g => g.ctx) ++
    (s.pod.held.filter fun h => h.peer == n).map (fun h => h.ctx)
  -- a collective that awaits a value, or has part of one, of a member on the node
  let colls := s.pod.colls.filter fun c => (List.range c.segs.length).any fun i =>
    !c.done.contains i && (c.vals.any (fun v => v.seg == i && v.src != c.me && !c.whole v && s.onNode c v.src n) ||
      (c.awaits i).any fun x => s.onNode c x.2 n)
  (out ++ inn ++ colls.map fun c => c.ctx).foldl setInsert []

/-- A peer that the loss rule may declare lost: a frame resent 16 times, or one unheld and unacknowledged. -/
def Peer.losable (p : Peer) : Bool := p.pool.any fun x => !x.held || decide (16 ≤ x.resends)

/-- R474: a peer is lost. -/
def State.losePeer (s : State) (n : Nat) : State :=
  let ctxs := s.peerCtxs n
  let info := portInfo (s.peer n).port
  let s1 : State := { s with pod := { s.pod with
    peers := Table.erase s.pod.peers n
    bells := s.pod.bells.filter fun b => b.peer != n
    held := s.pod.held.filter fun h => h.peer != n } }
  let s2 := (s1.setRf .podEvent .peerLost 1).setRf .podEvent .lastPeer n
  ctxs.foldl (fun s c => s.ctxFail c Code.peerLost info none) s2

/-- PEER_LOST (R474, R500). -/
def execPeerLost (peer : Nat) (s : State) : Host.Outcome State Fault Refusal :=
  match Table.find s.pod.peers peer with
  | none => .next s
  | some p =>
    if !s.ready || !p.losable then .next s
    else
      let s1 := s.pod.musters.foldl (fun s e =>
        if e.2.stage = .go ∧ s.goOpen e.1 (some peer) ∧ !s.ctxFailed e.1 then
          let rank := ((s.otherRanks e.1).find? fun r => s.rankNode e.1 r == peer).getD 0
          (s.sendAborts e.1 reasonPeerLost rank).musterStat e.1 2 reasonPeerLost rank
        else s) s
      .next (s1.losePeer peer)

end Sys2Proof.Machine
end

