-- ==== Sys2Proof/Machine/Xlt.lean ====
section
/-! DEFINITION. The translation unit's commands: walks, invalidations, frame owners and the resolution of translation
faults (09_ranges_translation.md R289, R297, R300 to R315). -/

namespace Sys2Proof

/-- The range cache that serves an agent (R293). -/
def XltAgent.cache : XltAgent → RcId
  | .rope c _ => .cluster c
  | .tensor c => .cluster c
  | .haul c => .cluster c
  | _ => .square

/-- The number by which a cache acknowledges. -/
def RcId.num : RcId → Nat
  | .cluster c => c
  | .square => 704

/-- The KIND of an agent (Table 9.6). -/
def XltAgent.kind : XltAgent → Nat
  | .rope _ _ => 0
  | .tensor _ => 1
  | .haul _ => 1
  | .cmdProc _ => 2
  | .coll _ => 3
  | .port _ => 3

/-- The UNIT of an agent (Table 9.6). -/
def XltAgent.unit : XltAgent → Nat
  | .rope _ slot => slot
  | .tensor _ => 0
  | .haul _ => 1
  | .cmdProc q => q
  | .coll e => e
  | .port p => 4 + p

/-- The logical cluster of an agent, if it has one. -/
def XltAgent.clusterOf : XltAgent → Option Nat
  | .rope c _ => some c
  | .tensor c => some c
  | .haul c => some c
  | _ => none

end Sys2Proof

namespace Sys2Proof.Machine

/-! ### Walks (R289 to R297) -/

/-- R297: an upset of the entry that a lookup hits: corrected, or the entry is invalidated. -/
def State.rcUpset (s : State) (id : RcId) (ctx va : Nat) (e : Ecc) : State :=
  let k := s.rcache id
  match e, k.lookup ctx va with
  | .corrected, some _ =>
    (match id with
      | .cluster c => s.satRf (.clRcStat c) .corrected 1
      | .square => s)
  | .uncorrectable, some x =>
    let s1 := s.setRcache id { k with entries := k.entries.filter fun y => y.2 != x }
    (match id with
      | .cluster c => s1.satRf (.clRcStat c) .parity 1
      | .square => s1)
  | _, _ => s

/-- The agent waits for a context and block. -/
def State.stallAgent (s : State) (a : XltAgent) (x : Nat × Nat) : State :=
  match a with
  | .rope c slot =>
    (match Table.find (s.cluster c).ropes slot with
      | some r => s.setRope c slot { r with stall := some x }
      | none => s)
  | .tensor c => s.setCluster c { s.cluster c with te := { (s.cluster c).te with stall := some x } }
  | .haul c => s.setCluster c { s.cluster c with haul := { (s.cluster c).haul with stall := some x } }
  | .cmdProc q => s.setQueue q { s.queue q with stall := some x }
  | .coll e => { s with pod := { s.pod with colls := s.pod.colls.map fun (c : Coll) =>
      if c.engine = e ∧ c.ctx = x.1 then { c with stall := some x } else c } }
  | .port _ => s

/-- The permissions that an ACCESS code names. One that reads and writes is an atomic, which never acts on the
aperture (R285). -/
def needOf (code : Nat) : Need := ⟨bit code 0, bit code 1, bit code 2, !(bit code 0 && bit code 1)⟩

/-- An agent waits on a translation fault, or holds one in its fault register (R312). -/
def State.agentStalled (s : State) (a : XltAgent) : Bool :=
  (s.xlt.held.any fun h => h.agent == a) ||
    (match a with
      | .rope c slot => ((Table.find (s.cluster c).ropes slot).any fun r => r.stall.isSome)
      | .tensor c => (s.cluster c).te.stall.isSome
      | .haul c => (s.cluster c).haul.stall.isSome
      | .cmdProc q => (s.queue q).stall.isSome
      | .coll e => s.pod.colls.any fun (k : Coll) => k.engine == e && k.stall.isSome
      | .port _ => false)

/-- R284: the context that an agent's requests carry: its party's, its queue's, its collective's, or one that the
transport assigns to a message. -/
def State.carries (s : State) (a : XltAgent) (ctx : Nat) : Bool :=
  match a with
  | .rope c slot => (Table.find (s.cluster c).ropes slot).any fun r => (s.cluster c).ropeCtxId r == ctx
  | .tensor c => (s.cluster c).te.queue.any fun o => o.ctx == ctx
  | .haul c => (s.cluster c).haul.queue.any fun o => o.ctx == ctx
  | .cmdProc q => s.rf (.hqSqStatus q) .state != qDisabled && s.rf (.hqSqCtrl q) .ctx == ctx
  | .coll e => s.pod.colls.any fun (k : Coll) => k.engine == e && k.ctx == ctx
  | .port _ => s.bound ctx

/-- WALK (R289, R293 to R297): an agent translates an address: a hit, or a walk that fills its range cache, or a
fault, for which the agent waits. An agent that waits already, or that carries another context, walks nothing. -/
def execWalk (a : XltAgent) (ctx va need : Nat) (upset : Ecc) (s : State) : Host.Outcome State Fault Refusal :=
  if !s.ready || decide (63 ≤ ctx) || decide (2 ^ 56 ≤ va) || !s.carries a ctx || s.agentStalled a then .next s
  else
    match (s.rcUpset a.cache ctx va upset).translate a.cache ctx va (needOf need) with
    | (s1, .fault c e) => .next ((s1.xltFault ⟨a, need % 8, c, ctx, va, e⟩).stallAgent a (ctx, blockOf va))
    | (s1, _) => .next s1

/-! ### Invalidations (R304 to R309) -/

/-- An invalidation is in progress. -/
def State.invBusy (s : State) : Bool := s.rbit .xltInvCtrl .busy

/-- R304, R306: start an invalidation; `cmd` is the queue command that waits for it. -/
def State.startInv (s : State) (ctx : Nat) (all : Bool) (start len : Nat) (cmd : Option (Nat × Nat)) : State :=
  { s.setRf .xltInvCtrl .busy 1 with xlt := { s.xlt with inv := some ⟨ctx, all, start, len, [], cmd⟩ } }

/-- INVALIDATION: a write of XLT_INV_CTRL. -/
def State.invWrite (s : State) (v : Word) : State :=
  if s.invBusy then s.satRf .xltStatus .invRefused 1
  else
    let s1 := (s.setRf .xltInvCtrl .all (fld v 61 1)).setRf .xltInvCtrl .ctx (fld v 32 6)
    if bit v.toNat 63 then
      s1.startInv (fld v 32 6) (bit v.toNat 61) (s.rf .xltInvStart .start * 65536) (s.rf .xltInvLen .len * 65536) none
    else s1

/-- INVALIDATION by the host or a Square core, which alone reach the XLT block (12 Table 12.4). -/
def execInvalidation (m : Master) (v : Word) (s : State) : Host.Outcome State Fault Refusal :=
  if !s.ready || !Block.xlt.reached m then .next s else .next (s.invWrite v)

/-- A span of addresses meets an invalidation; with LEN 0 and ALL 0 nothing does (Table 9.9). -/
def Invalidation.meets (i : Invalidation) (ctx a n : Nat) : Bool :=
  i.ctx == ctx && (i.all || (decide (0 < i.len) && decide (a < i.start + i.len) && decide (i.start < a + n)))

/-- R306: the L1 lines of the span are cleaned, then invalidated. -/
def State.drainL1 (s : State) (c : Nat) (i : Invalidation) : State :=
  let hit := (s.cluster c).l1.filter fun l => i.meets l.ctx (128 * l.line) 128
  let dirty := hit.filter fun l => l.dirty != 0
  let s1 := (dirty.foldl (fun s l => s.l1Clean c l) s).countCl c 6 i.ctx dirty.length
  s1.setCluster c { s1.cluster c with l1 := (s1.cluster c).l1.filter fun l => !i.meets l.ctx (128 * l.line) 128 }

/-- DRAIN (R306): a range cache invalidates, its agents drain, and it acknowledges; with the last acknowledgement
BUSY clears and DONE_SEQ rises. -/
def execDrain (id : RcId) (s : State) : Host.Outcome State Fault Refusal :=
  match s.xlt.inv with
  | none => .next s
  | some i =>
    if !s.ready || i.acked.contains id.num || decide (705 ≤ id.num) then .next s
    else
      let k := s.rcache id
      let s1 := s.setRcache id { k with entries := k.entries.filter fun e => !i.meets e.2.ctx e.2.start e.2.len }
      let s2 := match id with
        | .cluster c => s1.drainL1 c i
        | .square => s1
      let acked := setInsert i.acked id.num
      if acked.length < 705 then .next { s2 with xlt := { s2.xlt with inv := some { i with acked := acked } } }
      else
        let s3 := ({ s2 with xlt := { s2.xlt with inv := none } }.setRf .xltInvCtrl .busy 0).wrapRf .xltInvCtrl .doneSeq 1
        match i.cmd with
        | some (q, n) => .next (s3.endCmd q n stOk 0 0)
        | none => .next s3

/-! ### Frame owners (R303) -/

/-- APPLY_OWNER: a write of XLT_OWN_CTRL. -/
def State.ownWrite (s : State) (v : Word) : State :=
  if s.rbit .xltOwnCtrl .busy then s.satRf .xltStatus .ownRefused 1
  else
    let s1 := ((s.setRf .xltOwnCtrl .owner (fld v 48 6)).setRf .xltOwnCtrl .count (fld v 19 19)).setRf .xltOwnCtrl .first
      (fld v 0 19)
    if bit v.toNat 63 then
      { s1.setRf .xltOwnCtrl .busy 1 with
        xlt := { s1.xlt with ownPending := some (fld v 0 19, fld v 19 19, fld v 48 6) } }
    else s1

def execApplyOwner (m : Master) (v : Word) (s : State) : Host.Outcome State Fault Refusal :=
  if !s.ready || !Block.xlt.reached m then .next s else .next (s.ownWrite v)

/-- APPLY_OWNER_DONE: the owners are in force in all 20 copies; frames beyond 491,519 are skipped. -/
def execApplyOwnerDone (s : State) : Host.Outcome State Fault Refusal :=
  match s.xlt.ownPending with
  | none => .next s
  | some (first, count, o) =>
    if !s.ready then .next s
    else
      let n := min count (491520 - first)
      let owners := if n = 0 then s.xlt.owners else (first, n, o) :: s.xlt.owners
      .next ({ s with xlt := { s.xlt with owners := owners, ownPending := none } }.setRf .xltOwnCtrl .busy 0)

/-! ### Resolving faults (R312, R313) -/

/-- What an error record says of an agent. -/
def State.agentInfo (s : State) (a : XltAgent) : ErrInfo :=
  match a.clusterOf with
  | some c => s.clusterInfo c a.kind a.unit 0 0 0
  | none => { die := 4, agent := a.kind, unit := a.unit }

/-- R313: RETRY or FATAL of an open slot. -/
def State.resolve (s : State) (slot : Nat) (fatal : Bool) : State :=
  match Table.find s.xlt.recs slot with
  | none => s
  | some r =>
    let s1 : State := { s with xlt := { s.xlt with recs := Table.erase s.xlt.recs slot } }
    if fatal then
      (s1.refuseHeld r.ctx (blockOf r.va)).ctxFail r.ctx Code.xltFatal { s.agentInfo r.agent with addr := r.va, addrKind := 1, detail := r.seq } none
    else ((s1.resumeAgents r.ctx (blockOf r.va)).retryFrames r.ctx (blockOf r.va)).collRunAll

/-- RETRY: a write of FLT_XF_RESOLVE with ACTION 0. -/
def execRetry (_m : Master) (v : Word) (s : State) : Host.Outcome State Fault Refusal :=
  if !s.ready || bit v.toNat 63 then .next s else .next (s.resolve (fld v 0 8) false)

/-- FATAL: a write of FLT_XF_RESOLVE with ACTION 1. -/
def execFatal (_m : Master) (v : Word) (s : State) : Host.Outcome State Fault Refusal :=
  if !s.ready || !bit v.toNat 63 then .next s else .next (s.resolve (fld v 0 8) true)

/-- The held fault whose agent comes next after the agent admitted last. -/
def Xlt.nextHeld (x : Xlt) : Option HeldFault :=
  let least := fun (l : List HeldFault) => l.foldl (fun (b : Option HeldFault) h =>
    match b with
    | none => some h
    | some m => if agentNumber h.agent < agentNumber m.agent then some h else some m) none
  match least (x.held.filter fun h => decide (x.lastAdmitted < agentNumber h.agent)) with
  | some h => some h
  | none => least x.held

/-- The next frame that a port holds whose fault is in no record and in no register: its access is made again. -/
def State.portNext (s : State) (a : XltAgent) : State :=
  match a with
  | .port p =>
    (match s.pod.held.find? fun h => h.port == p &&
        !(s.xlt.recs.any fun r => r.2.ctx == h.ctx && blockOf r.2.va == h.block) with
      | some h => s.retryFrames h.ctx h.block
      | none => s)
  | _ => s

/-- HELD_FAULT_ADMIT (R312). -/
def execHeldFaultAdmit (s : State) : Host.Outcome State Fault Refusal :=
  match s.xlt.nextHeld with
  | none => .next s
  | some h =>
    if !s.ready || decide (256 ≤ s.xlt.recs.length) then .next s
    else
      match s.admitFault h with
      | none => .next s
      | some s1 => .next (({ s1 with xlt := { s1.xlt with
          held := s1.xlt.held.erase h, lastAdmitted := agentNumber h.agent } } : State).portNext h.agent)

end Sys2Proof.Machine
end

