-- ==== Sys2Proof/Machine/Queue.lean ====
section
/-! DEFINITION. Submission queues and completion rings: their registers, doorbells, fetch and seal, and completion
records (13_command_queues.md R399 to R409, R421 to R429). -/

namespace Sys2Proof.Machine

/-! ### Writes to the queue registers (R399 to R401, R405, R423, R427, R429) -/

/-- The host made a write. -/
def isHost (m : Master) : Bool := m == .host

/-- A dropped or refused write, in HQ_QDROP. -/
def State.qdrop (s : State) (m : Master) (kind n : Nat) (ring : Bool) : State :=
  let s1 := ((s.satRf .hqQdrop .drops 1).setRf .hqQdrop .lastQueue n).setRf .hqQdrop .lastRing (bval ring)
  (s1.setRf .hqQdrop .lastHost (bval (isHost m))).setRf .hqQdrop .lastKind kind

/-- The STATE of a queue. -/
def State.sqState (s : State) (n : Nat) : Nat := s.rf (.hqSqStatus n) .state

/-- An enabled queue or ring belongs to the other master (R401). -/
def State.sqForeign (s : State) (m : Master) (n : Nat) : Bool :=
  s.rbit (.hqSqCtrl n) .enable && s.rbit (.hqSqCtrl n) .owner != isHost m

def State.cqForeign (s : State) (m : Master) (n : Nat) : Bool :=
  s.rbit (.hqCqCtrl n) .enable && s.rbit (.hqCqCtrl n) .owner != isHost m

/-- The VA of a queue's or a ring's first record. -/
def State.sqVa (s : State) (n : Nat) : Nat := s.rf (.hqSqBase n) .base * 4096
def State.cqVa (s : State) (n : Nat) : Nat := s.rf (.hqCqBase n) .base * 4096

/-- A write of HQ_SQn_BASE: dropped from the non-owner, ignored while ENABLE = 1 (Table 13.9). -/
def State.sqBaseWrite (s : State) (m : Master) (n : Nat) (v : Word) : State :=
  if s.sqForeign m n then s.qdrop m 1 n false
  else if s.rbit (.hqSqCtrl n) .enable then s
  else (s.setRf (.hqSqBase n) .base (fld v 12 44)).setRf (.hqSqBase n) .sizeLog2 (fld v 0 4)

/-- R400: a ring of `len` bytes lies whole in its owner's memory: the host's in the aperture, a core's in device
memory. -/
def ringPlaced (m : Master) (va len : Nat) : Bool :=
  if isHost m then decide (apertureBase ≤ va) && decide (va + len ≤ 2 ^ 56) else decide (va + len ≤ apertureBase)

/-- R399, R400, R419, R548: an enable of queue `n` with a context and a ring is accepted. -/
def State.sqEnableOk (s : State) (m : Master) (n ctx cq : Nat) : Bool :=
  let size := s.rf (.hqSqBase n) .sizeLog2
  s.ready && decide (4 ≤ size) && decide (size ≤ 12) && (Table.find s.ctxs ctx).isSome && decide (ctx < 63) &&
    !s.ctxFailed ctx && ringPlaced m (s.sqVa n) (64 * 2 ^ size) && s.rbit (.hqCqCtrl cq) .enable &&
    s.rbit (.hqCqCtrl cq) .owner == isHost m

/-- Every queue of a context is DISABLED. -/
def State.queuesOff (s : State) (ctx : Nat) : Bool :=
  (List.range 256).all fun n => s.sqState n == qDisabled || s.rf (.hqSqCtrl n) .ctx != ctx

/-- R420: each CTX_DESTROY whose context has no queue left completes, and the context is no longer live. -/
def State.destroyDone (s : State) : State :=
  s.queues.foldl (fun s e => e.2.cmds.foldl (fun s c =>
    let ctx := bits (c.word 1) 0 6
    if c.opcode = 0x0C ∧ c.state = .running ∧ s.queuesOff ctx then
      { (s.endCmd e.1 c.index stOk 0 0) with ctxs := Table.erase s.ctxs ctx }
    else s) s) s

/-- R429: a DRAINING queue with no command left enters DISABLED and its counts return to 0. -/
def State.drained (s : State) (n : Nat) : State :=
  if s.sqState n = qDraining ∧ (s.queue n).cmds = [] then
    let s1 := (s.setQueue n .empty).setReg (.hqSqStatus n) 0
    ((s1.setReg (.hqSqDone n) 0).setRf (.hqSqCtrl n) .owner 0).destroyDone
  else s

/-- R429: how a command of a queue that is being disabled stands: one that waits ends with ABORTED, and so does a
MUSTER whose node waits for READY (16 R501); every other started one runs to its end. `gone` says that the context
is being destroyed (R420): its parties have then ended, so its launches complete, and DESIGN CHOICE (log 139) what
else runs or is stalled ends with ABORTED. -/
def Cmd.onDisable (c : Cmd) (gone waitsReady : Bool) : Cmd :=
  let aborted := { c with state := CmdState.finished stAborted 0 0 }
  match c.state with
  | .waiting k => if gone || decide (1 ≤ k) then aborted else c
  | .running =>
    if gone then
      (if c.opcode = 0x03 then { c with state := .finished stOk (BitVec.ofNat 64 (bits (c.word 3) 0 32)) 0 } else aborted)
    else if c.opcode = opMuster && waitsReady then aborted else c
  | _ => c

/-- R429: the queue stops fetching and drains; a held record ends with ABORTED, and unstarted ones are dropped. -/
def State.sqDisable (s : State) (n : Nat) (gone : Bool) : State :=
  let q := s.queue n
  let ctx := s.rf (.hqSqCtrl n) .ctx
  let waitsReady := (s.muster ctx).stage == MusterStage.started && (s.rankOf ctx).1 != 0
  let cmds := (q.cmds.filter fun c => c.state != .fetched).map fun c => c.onDisable gone waitsReady
  let held := match q.heldRec with
    | some (_, r) => [(⟨s.rf (.hqSqStatus n) .fetched, r, .finished stAborted 0 0⟩ : Cmd)]
    | none => []
  let freed := gone && q.stall.any fun x => x.1 == ctx
  let s1 := s.setQueue n { q with cmds := cmds ++ held, heldRec := none, stall := if freed then none else q.stall }
  let musters := q.cmds.any fun c => c.state == .running && c.opcode == opMuster
  let s2 := if musters && (gone || waitsReady) then s1.setMuster ctx .none else s1
  let s3 := ((s2.setRf (.hqSqCtrl n) .enable 0).setRf (.hqSqStatus n) .state qDraining).setRf (.hqSqStatus n) .sealWait 0
  (s3.showWait n).drained n

/-- A write of HQ_SQn_CTRL. -/
def State.sqCtrlWrite (s : State) (m : Master) (n : Nat) (v : Word) : State :=
  let on := bit v.toNat 63
  let ctx := fld v 48 6
  let cq := fld v 40 6
  if s.sqForeign m n then s.qdrop m 1 n false
  else if s.sqState n = qDisabled then
    if !on then (s.setRf (.hqSqCtrl n) .ctx ctx).setRf (.hqSqCtrl n) .cq cq
    else if !s.sqEnableOk m n ctx cq then s.qdrop m 3 n false
    else
      let s1 := ((s.setRf (.hqSqCtrl n) .ctx ctx).setRf (.hqSqCtrl n) .cq cq).setRf (.hqSqCtrl n) .enable 1
      let s2 := (s1.setRf (.hqSqCtrl n) .owner (bval (isHost m))).setReg (.hqSqStatus n) 0
      ((s2.setReg (.hqSqDone n) 0).setQueue n .empty).setRf (.hqSqStatus n) .state qRun
  else if s.sqState n = qDraining then (if on then s.qdrop m 3 n false else s)
  else if !on then s.sqDisable n false
  else if bit v.toNat 62 && s.sqState n == qStopped then s.setRf (.hqSqStatus n) .state qRun
  else s

/-- A write of HQ_SQn_STATUS: SEAL_WAITS is W1C. -/
def State.sqStatusWrite (s : State) (m : Master) (n : Nat) (v : Word) : State :=
  if s.sqForeign m n then s.qdrop m 1 n false
  else if bit v.toNat 32 then s.setRf (.hqSqStatus n) .sealWaits 0 else s

/-- A write of HQ_CQm_BASE. -/
def State.cqBaseWrite (s : State) (m : Master) (n : Nat) (v : Word) : State :=
  if s.cqForeign m n then s.qdrop m 1 n true
  else if s.rbit (.hqCqCtrl n) .enable then s
  else (s.setRf (.hqCqBase n) .base (fld v 12 44)).setRf (.hqCqBase n) .sizeLog2 (fld v 0 4)

/-- An enabled queue names the ring. -/
def State.cqUsed (s : State) (n : Nat) : Bool :=
  (List.range 256).any fun q => s.sqState q != qDisabled && s.rf (.hqSqCtrl q) .cq == n

/-- The fields of HQ_CQm_CTRL beside ENABLE and OWNER take a write. -/
def State.cqFields (s : State) (n : Nat) (v : Word) : State :=
  let s1 := (s.setRf (.hqCqCtrl n) .irq (fld v 62 1)).setRf (.hqCqCtrl n) .vector (fld v 32 11)
  if bit v.toNat 16 then s1.setRf (.hqCqCtrl n) .fullWaits 0 else s1

/-- A write of HQ_CQm_CTRL. -/
def State.cqCtrlWrite (s : State) (m : Master) (n : Nat) (v : Word) : State :=
  let on := bit v.toNat 63
  let was := s.rbit (.hqCqCtrl n) .enable
  let size := s.rf (.hqCqBase n) .sizeLog2
  if s.cqForeign m n then s.qdrop m 1 n true
  else if on && !was then
    if !s.ready || decide (size < 4) || decide (14 < size) || !ringPlaced m (s.cqVa n) (32 * 2 ^ size) then
      s.qdrop m 3 n true
    else
      let s1 := ((s.cqFields n v).setRf (.hqCqCtrl n) .enable 1).setRf (.hqCqCtrl n) .owner (bval (isHost m))
      (s1.setReg (.hqCqHead n) 0).setReg (.hqCqTail n) 0
  else if was && !on then
    if s.cqUsed n then s.qdrop m 1 n true
    else ((s.cqFields n v).setRf (.hqCqCtrl n) .enable 0).setRf (.hqCqCtrl n) .owner 0
  else s.cqFields n v

/-- Records in a completion ring that its reader has not taken. -/
def State.cqUnread (s : State) (n : Nat) : Nat :=
  (s.rf (.hqCqTail n) .tail + 2 ^ 32 - s.rf (.hqCqHead n) .head) % 2 ^ 32

/-- A write of HQ_CQm_HEAD: one that would pass TAIL is dropped, whether the ring is enabled or not (R423). -/
def State.cqHeadWrite (s : State) (m : Master) (n : Nat) (v : Word) : State :=
  let h := fld v 0 32
  let head := s.rf (.hqCqHead n) .head
  if s.cqForeign m n then s.qdrop m 1 n true
  else if s.cqUnread n < (h + 2 ^ 32 - head) % 2 ^ 32 then s.qdrop m 1 n true
  else s.setRf (.hqCqHead n) .head h

/-- R405: a write of HQ_DOORBELL. -/
def State.doorbell (s : State) (m : Master) (v : Word) : State :=
  let n := fld v 32 8
  let p := fld v 0 32
  let q := s.queue n
  let f := s.rf (.hqSqStatus n) .fetched
  let d := (p + 2 ^ 32 - f) % 2 ^ 32
  if !s.rbit (.hqSqCtrl n) .enable || s.sqForeign m n then s.qdrop m 0 n false
  else if p = q.producer then s
  else if d ≤ 2 ^ s.rf (.hqSqBase n) .sizeLog2 ∧ (q.producer + 2 ^ 32 - f) % 2 ^ 32 ≤ d then
    s.setQueue n { q with producer := p }
  else s.qdrop m 2 n false

/-- The HQ block takes writes: no package-fatal error has stopped it (19 R557). -/
def State.hqOpen (s : State) : Bool := !s.fatal && s.board.rails

/-- A master that reaches the HQ block (12 Table 12.4). -/
def hqMaster (m : Master) : Bool := m != .reeve

def execDoorbell (m : Master) (v : Word) (s : State) : Host.Outcome State Fault Refusal :=
  if s.hqOpen && hqMaster m then .next (s.doorbell m v) else .next s

/-- QUEUE_ENABLE: a write of HQ_SQn_CTRL with ENABLE = 1; the non-owner's to an enabled queue is dropped and
logged. -/
def execQueueEnable (m : Master) (n : Nat) (v : Word) (s : State) : Host.Outcome State Fault Refusal :=
  if s.hqOpen && hqMaster m && decide (n < 256) && bit v.toNat 63 then
    .next (s.sqCtrlWrite m n v)
  else .next s

/-- QUEUE_DISABLE: a write of HQ_SQn_CTRL with ENABLE = 0. -/
def execQueueDisable (m : Master) (n : Nat) (v : Word) (s : State) : Host.Outcome State Fault Refusal :=
  if s.hqOpen && hqMaster m && decide (n < 256) && !bit v.toNat 63 then
    .next (s.sqCtrlWrite m n v)
  else .next s

/-- RESUME: a write of HQ_SQn_CTRL with ENABLE and RESUME. -/
def execResume (m : Master) (n : Nat) (v : Word) (s : State) : Host.Outcome State Fault Refusal :=
  if s.hqOpen && hqMaster m && decide (n < 256) && bit v.toNat 63 && bit v.toNat 62 then
    .next (s.sqCtrlWrite m n v)
  else .next s

/-- RING_ENABLE: a write of HQ_CQm_CTRL with ENABLE = 1. -/
def execRingEnable (m : Master) (n : Nat) (v : Word) (s : State) : Host.Outcome State Fault Refusal :=
  if s.hqOpen && hqMaster m && decide (n < 64) && bit v.toNat 63 then .next (s.cqCtrlWrite m n v) else .next s

/-- RING_DISABLE: a write of HQ_CQm_CTRL with ENABLE = 0. -/
def execRingDisable (m : Master) (n : Nat) (v : Word) (s : State) : Host.Outcome State Fault Refusal :=
  if s.hqOpen && hqMaster m && decide (n < 64) && !bit v.toNat 63 then .next (s.cqCtrlWrite m n v) else .next s

def execHeadAdvance (m : Master) (n : Nat) (v : Word) (s : State) : Host.Outcome State Fault Refusal :=
  if s.hqOpen && hqMaster m && decide (n < 64) then .next (s.cqHeadWrite m n v) else .next s

/-! ### Accesses of a command processor (09 R278, R279; 19 Table 19.3) -/

/-- What an error record says of a command processor. -/
def cmdInfo (n : Nat) : ErrInfo := { die := 4, agent := 2, unit := n }

/-- A command processor stalls on a translation fault of a queue, in a context. -/
def State.cmdStall (s : State) (n ctx : Nat) (need : Need) (cause entry va : Nat) : State :=
  let s1 := s.xltFault ⟨.cmdProc n, need.code, cause, ctx, va, entry⟩
  s1.setQueue n { s1.queue n with stall := some (ctx, blockOf va) }

/-- An access of command `c` did not succeed: it stalls, its context fails, or it fails with POISON. -/
def State.cmdStop (s : State) (n ctx : Nat) (c : Cmd) (need : Need) (x : UAccess) : State :=
  match x with
  | .ok => s
  | .fault cause e va => (s.setCmd n c.index (.waiting 0)).cmdStall n ctx need cause e va
  | .refused l =>
    (s.setCmd n c.index .running).ctxFail ctx Code.frameOwner { cmdInfo n with addr := 128 * l, addrKind := 2 } none
  | .poison va => s.countConsumed.endCmd n c.index stPoison 0 va

/-! ### Fetch and seal (R403 to R406) -/

/-- How the seal check of R403 ends. -/
inductive Seal where
  | run | hold | holdCrc
  deriving DecidableEq, Repr

/-- R403. -/
def sealCheck (i : Nat) (r : BitVec 512) : Seal :=
  let seq := (i + 1) % 2 ^ 32
  if bits r.toNat 448 32 ≠ seq ∨ bits r.toNat 16 16 ≠ seq % 65536 then .hold
  else if bits r.toNat 480 32 ≠ crc32c (leBytes 56 r.toNat) then .holdCrc
  else .run

/-- What reading a slot gives: the record, or none where its read failed (it counts as hold_crc). -/
inductive SlotRead where
  | record (r : BitVec 512)
  | bad
  | stall
  deriving DecidableEq, Repr

/-- Read the slot of a queue's next record: a coherent read in context 0, or a control read of host memory (R406),
for which APERTURE of the queue's own context, which its processor carries (09 R285, Table 9.2; log 77), must permit
reads. -/
def State.readSlot (s : State) (n : Nat) (host : HostAnswer) : State × SlotRead :=
  let va := s.sqVa n + 64 * (s.rf (.hqSqStatus n) .fetched % 2 ^ s.rf (.hqSqBase n) .sizeLog2)
  let ctx := s.rf (.hqSqCtrl n) .ctx
  if s.rbit (.hqSqCtrl n) .owner then
    match s.translate .square ctx va needRead with
    | (s1, .host a) =>
      if !s.rbit .hqLinkStatus .up || host.failed.any (fun x => x / 64 == a / 64) then
        ((s1.hostRead a 64 true).apertureFail (cmdInfo n) 0 a, .bad)
      else
        let l := hostLine host (a / 128 * 128)
        (s1.hostRead a 64 true, .record (BitVec.ofNat 512 (lineNat l (a % 128) 64)))
    | (s1, .fault c e) => (s1.cmdStall n ctx needRead c e va, .stall)
    | (s1, .mem _) => (s1, .bad)
  else
    match s.unitRead 0 va 64 needReadDev with
    | (s1, .ok, bs) => (s1, .record (BitVec.ofNat 512 (leNat bs)))
    | (s1, .poison _, _) => (s1.countConsumed, .bad)
    | (s1, .fault c e a, _) => (s1.cmdStall n 0 needReadDev c e a, .stall)
    | (s1, _, _) => (s1, .bad)

/-- One record is read and checked: it is fetched, or held. A failed read leaves what was read unknown: the model
keeps a record of zeros for it. -/
def State.fetchOne (s : State) (n : Nat) (host : HostAnswer) : State :=
  let i := s.rf (.hqSqStatus n) .fetched
  let hold := fun (s : State) (crc : Bool) (r : BitVec 512) =>
    ((s.setQueue n { s.queue n with heldRec := some (crc, r) }).setRf (.hqSqStatus n) .sealWait 1).satRf
      (.hqSqStatus n) .sealWaits 1
  match s.readSlot n host with
  | (s1, .stall) => s1
  | (s1, .bad) => hold s1 true 0
  | (s1, .record r) =>
    match sealCheck i r with
    | .hold => hold s1 false r
    | .holdCrc => hold s1 true r
    | .run =>
      let q := s1.queue n
      ((s1.setQueue n { q with cmds := q.cmds ++ [⟨i, r, .fetched⟩], heldRec := none }).setRf
        (.hqSqStatus n) .sealWait 0).wrapRf (.hqSqStatus n) .fetched 1

/-- The processor of a queue may read its next slot. -/
def State.mayFetch (s : State) (n : Nat) : Bool :=
  s.ready && decide (n < 256) && (s.sqState n == qRun || s.sqState n == qStopped) &&
    s.rf (.hqSqStatus n) .fetched != (s.queue n).producer && (s.queue n).stall.isNone

/-- FETCH (R406): one record; a read of several slots is several steps. -/
def execFetch (n : Nat) (host : HostAnswer) (s : State) : Host.Outcome State Fault Refusal :=
  if s.mayFetch n && (s.queue n).heldRec.isNone then .next (s.fetchOne n host) else .next s

/-- SEAL_REREAD (R404). -/
def execSealReread (n : Nat) (host : HostAnswer) (s : State) : Host.Outcome State Fault Refusal :=
  if s.mayFetch n && (s.queue n).heldRec.isSome then .next (s.fetchOne n host) else .next s

/-- SEAL_CRC (R404): the held record fails its CRC for 1 ms: it counts as fetched, and fails at its place in the
order of commands. -/
def execSealCrc (n : Nat) (s : State) : Host.Outcome State Fault Refusal :=
  let q := s.queue n
  match q.heldRec with
  | some (true, r) =>
    if !s.mayFetch n || q.cmds.any (fun c => c.state == .fetched) then .next s
    else
      let i := s.rf (.hqSqStatus n) .fetched
      let s1 := ((s.setQueue n { q with cmds := q.cmds ++ [⟨i, r, .running⟩], heldRec := none }).setRf
        (.hqSqStatus n) .sealWait 0).wrapRf (.hqSqStatus n) .fetched 1
      .next (s1.endCmd n i stSealCrc 0 0)
  | _ => .next s

/-! ### The start of commands (R407, R412, R418, R496) -/

/-- A command of an opcode that Table 13.3 or Table 16.2 does not list. -/
def badOpcode (op : Nat) : Bool := op == 0 || (decide (0x0C < op) && decide (op < 0x10)) || decide (0x16 < op)

/-- R496: a command that does not wait for its context's muster. -/
def freeOfMuster (op : Nat) : Bool := op == opMuster || op == 0x01 || op == 0x02

/-- The command of a queue that may start (R407), or go on after a stall or the end of an invalidation, if the test
selects it. -/
def State.nextCmd (s : State) (n : Nat) (sel : Cmd → Bool) : Option Cmd :=
  let q := s.queue n
  if !s.ready || decide (256 ≤ n) || q.stall.isSome then none
  else
    match q.cmds.find? fun c => c.state == .waiting 0 || (c.state == .waiting waitInv && !s.invBusy) with
    | some c => if sel c then some c else none
    | none =>
      match q.cmds.find? fun c => c.state == .fetched with
      | none => none
      | some c =>
        if s.sqState n = qRun ∧ (bit c.flags 0 ∨ q.cmds.head? = some c) ∧ sel c ∧
            (freeOfMuster c.opcode ∨ !s.unmustered (s.rf (.hqSqCtrl n) .ctx)) then some c
        else none

/-- The first operand word with a bit outside its mask (R412). -/
def Cmd.reserved (c : Cmd) (masks : List Nat) : Option Nat :=
  [1, 2, 3, 4, 5, 6].find? fun i => (c.word i &&& masks.getD (i - 1) 0) != c.word i

/-- The bits `lo + w - 1` to `lo` of an operand word. -/
def span (lo w : Nat) : Nat := (2 ^ w - 1) * 2 ^ lo

/-- Every bit of an operand word. -/
def allBits : Nat := 2 ^ 64 - 1

/-- The context of a queue. -/
def State.queueCtx (s : State) (n : Nat) : Nat := s.rf (.hqSqCtrl n) .ctx

/-- The source that a queue's commands are traced from (13 R402). -/
def queueSrc (n : Nat) : TraceFrom := cmdSrc (n % 16)

/-- A command that starts, and does not go on after a stall, produces CMD_START (20 Table 20.2). -/
def State.traceStart (s : State) (n : Nat) (c : Cmd) : State :=
  if c.state = .fetched then s.traceNow (queueSrc n) n (s.queueCtx n) kCmdStart c.opcode c.seq else s

/-- The processor of a queue need not wait for room for CMD_START. -/
def State.mayStart (s : State) (n : Nat) (c : Cmd) : Bool :=
  c.state != .fetched || s.mayTrace (queueSrc n) (s.queueCtx n) kCmdStart

/-- The lower of two word indices, where there are any. -/
def firstWord (a b : Option Nat) : Option Nat :=
  match a, b with
  | some x, some y => some (min x y)
  | some x, none => some x
  | none, y => y

/-- The operand words of every command that has no range to check. -/
def anyWords (_ : Cmd) : Option Nat := none

/-- Run a command of a queue: the checks of R412 and R418, then its body, which gets the queue's context. `range`
gives the first operand word outside its listed range; DETAIL names the first word that is reserved or out of range
(Table 13.5). -/
def State.runCmd (s : State) (n op : Nat) (sel : Cmd → Bool) (priv : Bool) (masks : List Nat) (range : Cmd → Option Nat)
    (body : State → Cmd → Nat → State) : Host.Outcome State Fault Refusal :=
  match s.nextCmd n (fun c => c.opcode == op && sel c) with
  | none => .next s
  | some c =>
    if !s.mayStart n c then .next s
    else
      let s1 := s.traceStart n c
      if c.flags / 4 ≠ 0 then .next (s1.endCmd n c.index stBadCmd 0 0)
      else if priv ∧ s.queueCtx n ≠ 0 then .next (s1.endCmd n c.index stPriv 0 0)
      else
        match firstWord (c.reserved masks) (range c) with
        | some i => .next (s1.endCmd n c.index stBadCmd 0 i)
        | none => .next (body s1 c (s.queueCtx n))

/-- Every command of an opcode. -/
def anyCmd (_ : Cmd) : Bool := true

/-! ### Completion (R421 to R425) -/

/-- The 256 bits of a completion record (Table 13.4). -/
def recordBits (phase n : Nat) (c : Cmd) (status : Nat) (result detail : Word) : Nat :=
  phase * 2 ^ 255 + n * 2 ^ 232 + c.opcode * 2 ^ 224 + status * 2 ^ 208 + c.tag * 2 ^ 192 + c.seq * 2 ^ 160 +
    c.user * 2 ^ 128 + result.toNat * 2 ^ 64 + detail.toNat

/-- The command is removed: COMPLETED rises. -/
def State.retire (s : State) (n idx : Nat) : State :=
  let q := s.queue n
  let s1 := (s.setQueue n { q with cmds := q.cmds.filter fun c => c.index != idx }).wrapRf (.hqSqDone n) .completed 1
  ((s1.countPkg 11 (n % 16) (s.queueCtx n) 1).showWait n).drained n

/-- The record of a command that has ended is written, or held while its ring is full. -/
def State.complete (s : State) (n : Nat) (c : Cmd) (status : Nat) (result detail : Word) : State :=
  let m := s.rf (.hqSqCtrl n) .cq
  let size := 2 ^ s.rf (.hqCqBase m) .sizeLog2
  let j := s.rf (.hqCqTail m) .tail
  if bit c.flags 1 && status == stOk then s.retire n c.index
  else if s.cqUnread m = size then
    if c.state = .full status result detail then s
    else (s.setCmd n c.index (.full status result detail)).satRf (.hqCqCtrl m) .fullWaits 1
  else
    let bs := leBytes 32 (recordBits (1 - j / size % 2) n c status result detail)
    let va := s.cqVa m + 32 * (j % size)
    if s.rbit (.hqCqCtrl m) .owner then
      match s.translate .square (s.queueCtx n) va needWrite with
      | (_, .host a) =>
        let s1 := (s.hostWrite a (bs.map some)).wrapRf (.hqCqTail m) .tail 1
        (if s.rbit (.hqCqCtrl m) .irq then s1.msix (s.rf (.hqCqCtrl m) .vector) else s1).retire n c.index
      | (s1, .fault cause e) => s1.cmdStall n (s.queueCtx n) needWrite cause e va
      | (_, .mem _) => s
    else
      match s.unitWrite 0 va bs needWriteDev with
      | (s1, .fault cause e a) => s1.cmdStall n 0 needWriteDev cause e a
      | (s1, _) => (s1.wrapRf (.hqCqTail m) .tail 1).retire n c.index

/-- COMMAND_COMPLETE (R421 to R427): the command of a queue with a sequence number, which has ended. A command of an
opcode that is not listed, or of an unlisted ledger operation, starts here and fails with BAD_CMD. -/
def execCommandComplete (n seq : Nat) (s : State) : Host.Outcome State Fault Refusal :=
  if !s.ready || decide (256 ≤ n) || (s.queue n).stall.isSome then .next s
  else
    match s.nextCmd n (fun c => decide ((c.index + 1) % 2 ^ 32 = seq) &&
        (badOpcode c.opcode || (c.opcode == 0x08 && c.word 2 % 4 == 3))) with
    | some c =>
      if !s.mayStart n c then .next s
      else .next ((s.traceStart n c).endCmd n c.index stBadCmd 0
        (if c.opcode ≠ 0x08 ∨ c.flags / 4 ≠ 0 then 0 else if c.word 1 % 128 ≠ 0 ∨ apertureBase ≤ c.word 1 then 1 else 2))
    | none =>
      match (s.queue n).cmds.find? fun c => decide ((c.index + 1) % 2 ^ 32 = seq) with
      | none => .next s
      | some c =>
        match c.state with
        | .finished st r d =>
          if !s.mayTrace (queueSrc n) (s.queueCtx n) kCmdDone then .next s
          else
            let s1 := s.complete n c st r d
            .next (if (s1.queue n).stall.isSome then s1
              else s1.traceNow (queueSrc n) n (s.queueCtx n) kCmdDone (st * 2 ^ 16 + c.opcode) c.seq)
        | .full st r d => .next (s.complete n c st r d)
        | _ => .next s

end Sys2Proof.Machine
end

