-- ==== Sys2Proof/Machine/Engine.lean ====
section
/-! DEFINITION. How the tensor engine's store formatter and the Haul engine reach memory: the reads of one operation,
then its writes and non-returning atomics in the order it makes them (07_memory_model_bells.md R233;
08_tensor_descriptors_haul.md R252, R277 to R279; 09_ranges_translation.md R310; 19_faults_and_errors.md Table 19.3).
An operation that a translation fault stops keeps the values it has read and the number of accesses it has performed,
and goes on from there (log 48). -/

namespace Sys2Proof.Machine

/-- Why an engine operation stops. -/
inductive Stop where
  | fault (code addr kind : Nat)
  | poison (va : Nat)
  | refused (line : Nat)
  | stall (cause entry va : Nat) (need : Need)
  deriving DecidableEq, Repr

/-- A non-returning atomic of an operation: `n` bytes at an address, and the value they become. -/
structure Atomic where
  ls : Bool
  addr : Nat
  n : Nat
  f : Nat → Nat

/-- An access that an operation makes after its reads: bytes of local store, enabled bytes of one line of device
memory, an atomic, or a count of dropped elements into CL_HAUL_DROPS. -/
inductive Act where
  | near (addr : Nat) (bs : List Byte)
  | far (line : Nat) (d : Line) (m : BitVec 128)
  | atomic (a : Atomic)
  | drops (n : Nat)

/-- An operation's accesses: the state with what has been done so far, the values still to be answered from an earlier
attempt (`log`) and those read up to now, latest first (`seen`), lines read, lines translated for writing and for
atomics, the recently read and written sectors with their counts (R277), the accesses gathered, latest first, how many
of them are performed, a fault that other faults precede (06 R220), and the stop. -/
structure Sess where
  st : State
  c : Nat
  ctx : Nat
  party : Nat
  host : HostAnswer
  log : List Nat
  seen : List Nat
  ln : Table (Line × BitVec 4)
  xl : Table Xlat
  recentR : List Nat
  recentW : List Nat
  reads : Nat
  writes : Nat
  acts : List Act
  written : Nat
  later : Option Stop
  stop : Option Stop

/-- An operation of a cluster about to access memory, having read `log` and performed `written` accesses. -/
def State.session (s : State) (c ctx party : Nat) (host : HostAnswer) (log : List Nat) (written : Nat) : Sess :=
  ⟨s, c, ctx, party, host, log, [], [], [], [], [], 0, 0, [], written, none, none⟩

/-- The local store of the session's party. -/
def Sess.store (k : Sess) : Table Byte :=
  match Table.find (k.st.cluster k.c).parties k.party with
  | some p => p.ls
  | none => []

/-- Stop, unless already stopped. -/
def Sess.halt (k : Sess) (x : Stop) : Sess := if k.stop.isSome then k else { k with stop := some x }

/-- Stop with a fault unless a condition holds. -/
def Sess.need (k : Sess) (ok : Bool) (code : Nat) : Sess := if ok then k else k.halt (.fault code 0 0)

/-- Put a fault off behind those that precede it; whether one was. -/
def Sess.putOff (k : Sess) : Sess × Bool :=
  match k.stop with
  | some (.stall _ _ _ _) => (k, false)
  | some x => ({ k with stop := none, later := if k.later.isSome then k.later else some x }, true)
  | none => (k, false)

/-- The fault put off, now that none precedes it. -/
def Sess.takeOff (k : Sess) : Sess :=
  match k.later with
  | some x => k.halt x
  | none => k

/-- R277: note an access to sectors, keeping the 64 most recent distinct ones; how many are new. -/
def touch (recent : List Nat) (first last : Nat) : List Nat × Nat :=
  let both := if first = last then [first] else [first, last]
  both.foldl (fun r x => ((x :: r.1.filter (· ≠ x)).take 64, if r.1.contains x then r.2 else r.2 + 1)) (recent, 0)

/-- The sector keys of an access: local store and device memory apart. -/
def sectorKey (ls : Bool) (a : Nat) : Nat := 2 * (a / 32) + bval ls

/-- Make a line's bytes available for reading at an address. -/
def Sess.line (k : Sess) (va : Nat) : Sess :=
  if k.stop.isSome || (Table.find k.ln (va / 128)).isSome then k
  else if 2 ^ 56 ≤ va then k.halt (.fault Code.addrForm va 1)
  else
    match k.st.translate (.cluster k.c) k.ctx va needRead with
    | (s1, .fault c e) => { k with st := s1, stop := some (.stall c e va needRead) }
    | (s1, .mem pa) =>
      let r := s1.engineRead k.c k.ctx (va / 128) (pa / 128)
      if r.2.2.2 then { k with st := r.1, ln := Table.insert k.ln (va / 128) (r.2.1, r.2.2.1) }
      else { k with st := s1, stop := some (.refused (pa / 128)) }
    | (s1, .host a) =>
      let base := a / 128 * 128
      let v := if s1.rbit .hqLinkStatus .up then (hostLine k.host base, hostFailed k.host base) else (0, 15)
      let s0 := s1.hostRead base 128
      let s2 := if v.2 = 0 then s0 else s0.apertureFail (s0.clusterInfo k.c 1 0 0 0 0) k.ctx base
      { k with st := s2, ln := Table.insert k.ln (va / 128) v }

/-- Count a read of sectors (R277). -/
def Sess.touchR (k : Sess) (ls : Bool) (a n : Nat) : Sess :=
  let r := touch k.recentR (sectorKey ls a) (sectorKey ls (a + n - 1))
  { k with recentR := r.1, reads := k.reads + r.2 }

/-- Count a write of sectors (R277). -/
def Sess.touchW (k : Sess) (ls : Bool) (a n : Nat) : Sess :=
  let r := touch k.recentW (sectorKey ls a) (sectorKey ls (a + n - 1))
  { k with recentW := r.1, writes := k.writes + r.2 }

/-- The address of the first poisoned sector among the bytes read. -/
def poisonAt (lines : List (Nat × Line × BitVec 4)) (va n : Nat) : Nat :=
  (((List.range ((va % 32 + n + 31) / 32)).map fun i => va / 32 * 32 + 32 * i).find? fun a =>
    (fetched lines a 1).2).getD va

/-- Read `n` bytes of device memory; a poisoned sector stops the operation (R546). A value read before a translation
fault stopped the operation is not read again. -/
def Sess.readDev (k : Sess) (va n : Nat) : Sess × Nat :=
  match k.stop, k.log with
  | some _, _ => (k, 0)
  | none, v :: t => ({ k with log := t, seen := v :: k.seen }, v)
  | none, [] =>
    let k1 := (lineStarts va n).foldl Sess.line k
    if k1.stop.isSome then (k1, 0)
    else
      let lines := k1.ln.map fun e => (e.1, e.2.1, e.2.2)
      let v := fetched lines va n
      if v.2 then (k1.halt (.poison (poisonAt lines va n)), 0) else ({ k1 with seen := v.1 :: k1.seen }, v.1)

/-- Read `n` bytes of the party's local store. -/
def Sess.readLs (k : Sess) (off n : Nat) : Sess × Nat :=
  match k.stop, k.log with
  | some _, _ => (k, 0)
  | none, v :: t => ({ k with log := t, seen := v :: k.seen }, v)
  | none, [] =>
    let ls := k.store
    let v := leNat ((List.range n).map fun i => Table.get 0 ls (off + i))
    ({ k with seen := v :: k.seen }, v)

/-- Read `n` bytes of either space, its sectors counted. -/
def Sess.read (k : Sess) (ls : Bool) (a n : Nat) : Sess × Nat :=
  let r := if ls then k.readLs a n else k.readDev a n
  if r.1.stop.isSome then r else (r.1.touchR ls a n, r.2)

/-- Add one line's enabled bytes to the accesses, in the access before it where that writes the same line. -/
def actLine (l : List Act) (line : Nat) (d : Line) (m : BitVec 128) : List Act :=
  match l with
  | .far n d0 m0 :: t => if n = line then .far n (mergeLine d0 d m) (m0 ||| m) :: t else .far line d m :: l
  | _ => .far line d m :: l

/-- Gather a write of bytes. -/
def Sess.write (k : Sess) (ls : Bool) (a : Nat) (bs : List Byte) : Sess :=
  if k.stop.isSome then k
  else
    let k1 := k.touchW ls a bs.length
    if ls then { k1 with acts := .near a bs :: k1.acts }
    else { k1 with acts := (splitLines 4 a bs).foldl (fun l p => actLine l p.1 p.2.1 p.2.2) k1.acts }

/-- Gather a non-returning atomic. -/
def Sess.atomic (k : Sess) (ls : Bool) (a n : Nat) (f : Nat → Nat) : Sess :=
  if k.stop.isSome then k else { k with acts := .atomic ⟨ls, a, n, f⟩ :: k.acts }

/-- Gather a reduction's atomic: its element is a prior value read and a value written (R277). -/
def Sess.reduceAt (k : Sess) (ls : Bool) (a n : Nat) (f : Nat → Nat) : Sess :=
  if k.stop.isSome then k else ((k.touchR ls a n).touchW ls a n).atomic ls a n f

/-- Translate an address that is written, or acted on atomically; each line once. -/
def Sess.xlat (k : Sess) (atomic : Bool) (a : Nat) : Sess × Xlat :=
  let key := 2 * (a / 128) + bval atomic
  let need := if atomic then needAtomic else needWrite
  match Table.find k.xl key with
  | some x => (k, x)
  | none =>
    if 2 ^ 56 ≤ a then (k.halt (.fault Code.addrForm a 1), .fault 0 0)
    else
      match k.st.translate (.cluster k.c) k.ctx a need with
      | (s1, .fault c e) => ({ k with st := s1, stop := some (.stall c e a need) }, .fault c e)
      | (s1, x) => ({ k with st := s1, xl := Table.insert k.xl key x }, x)

/-- The first enabled byte of a line. -/
def firstEnabled (m : BitVec 128) : Nat := ((List.range 128).find? fun i => m.getLsbD i).getD 0

/-- Change the session's party. -/
def Sess.modParty (k : Sess) (f : Party → Party) : Sess :=
  match Table.find (k.st.cluster k.c).parties k.party with
  | some p => { k with st := k.st.setParty k.c k.party (f p) }
  | none => k

/-- Perform one line's write: at the home after the L1's own dirty bytes, or posted to the host. -/
def Sess.writeLine (k : Sess) (line : Nat) (d : Line) (m : BitVec 128) : Sess :=
  let r := k.xlat false (128 * line + firstEnabled m)
  match r.2 with
  | .mem pa =>
    match r.1.st.engineWrite k.c k.ctx line (pa / 128) d m with
    | (s1, true) => { r.1 with st := s1 }
    | (s1, false) => { r.1 with st := s1, stop := some (.refused (pa / 128)) }
  | .host a => { r.1 with st := r.1.st.hostWrite (a / 128 * 128) (enabledBytes d m) }
  | .fault _ _ => r.1

/-- Translate the lines of an atomic: the first byte of each with the physical line. -/
def Sess.atomicLines (k : Sess) (a n : Nat) : Sess × List (Nat × Nat) :=
  (lineStarts a n).foldl (fun (r : Sess × List (Nat × Nat)) x =>
    if r.1.stop.isSome then r
    else
      match r.1.xlat true x with
      | (k1, .mem pa) => (k1, r.2 ++ [(x / 128, pa / 128)])
      | (k1, _) => (k1, r.2)) (k, [])

/-- Perform one atomic of device memory at its home, an element that crosses lines at the homes of both; one on a
poisoned sector is not applied. -/
def Sess.farAtomic (k : Sess) (a : Atomic) : Sess :=
  let r := k.atomicLines a.addr a.n
  if r.1.stop.isSome then r.1
  else
    let s1 := r.2.foldl (fun s e => ((s.l1Push k.c k.ctx e.1).homeFetch k.ctx e.2).1) r.1.st
    let got := r.2.map fun e => (e, s1.homeRead k.ctx e.2)
    match got.find? fun g => !g.2.2.2 with
    | some g => { r.1 with st := s1, stop := some (.refused g.1.2) }
    | none =>
      let lines := got.map fun g => (g.1.1, g.2.1, g.2.2.1)
      let v := fetched lines a.addr a.n
      if v.2 then { r.1 with st := s1, stop := some (.poison (poisonAt lines a.addr a.n)) }
      else
        let new := splitLines 4 a.addr (leBytes a.n (a.f v.1 % 2 ^ (8 * a.n)))
        { r.1 with st := new.foldl (fun s p =>
            match r.2.find? fun e => e.1 == p.1 with
            | some e => (s.homeWrite k.ctx e.2 p.2.1 p.2.2).1
            | none => s) s1 }

/-- Perform one access, unless the operation has stopped. -/
def Sess.perform (k : Sess) (x : Act) : Sess :=
  if k.stop.isSome then k
  else
    let k1 := match x with
      | .near a bs => k.modParty fun p => p.lsWrite a bs
      | .far l d m => k.writeLine l d m
      | .atomic a =>
        if a.ls then k.modParty fun p => p.lsWrite a.addr (leBytes a.n (a.f (p.lsRead a.addr a.n))) else k.farAtomic a
      | .drops n => { k with st := k.st.satRf (.clHaulDrops k.c) .drops n }
    if k1.stop.isSome then k1 else { k1 with written := k1.written + 1 }

/-- Perform, in order, the accesses gathered that are not performed yet (R279). -/
def Sess.commit (k : Sess) : Sess :=
  if k.stop.isSome then k else (k.acts.reverse.drop k.written).foldl Sess.perform k

/-- R252: read the 128 bytes of a descriptor; one in the host aperture raises DESC_FORM. -/
def Sess.desc (k : Sess) (va : Nat) : Sess × Nat :=
  if k.stop.isSome then (k, 0)
  else if apertureBase ≤ va ∧ va < 2 ^ 56 then (k.halt (.fault Code.descForm va 1), 0)
  else k.readDev va 128

end Sys2Proof.Machine
end

