-- ==== Sys2Proof/Machine/Tensor.lean ====
section
/-! DEFINITION. Tensor instructions at issue, and the work of TMMA, TCOMB and TACC.LDP (04_tensor_engine.md R106 to
R122, R128; 06_instruction_set.md R207 to R210, R220). -/

namespace Sys2Proof.Machine

/-! ### Operand pairs (Table 4.1, 02 Table 2.4) -/

/-- An operand pair of Table 4.1: accumulator, wide window (FP32 inputs), ac per group. -/
def tensorPair (a b : Nat) : Option (AccFmt × Bool × Nat) :=
  if a = 10 ∧ b = 10 then some (.fp32, false, 8)
  else if 4 ≤ a ∧ a ≤ 10 ∧ 4 ≤ b ∧ b ≤ 10 then some (.fp32, false, 16)
  else if a = 11 ∧ b = 11 then some (.int32, false, 16)
  else if (a = 2 ∧ b = 2) ∨ (a = 3 ∧ b = 3) then some (.fp32, false, 32)
  else if a = 1 ∧ b = 1 then some (.fp32, true, 256)
  else if a = 0 ∧ b = 0 then some (.fp64, false, 512)
  else none

/-- Rows of a tile (Table 4.1). -/
def tileRows : Nat := 64

/-- Columns of a tile. -/
def AccFmt.cols : AccFmt → Nat
  | .fp64 => 64
  | _ => 128

/-- Elements of a tile. -/
def AccFmt.elems (a : AccFmt) : Nat := tileRows * a.cols

/-! ### Panels (R108 to R111) -/

/-- A panel word's fields (Table 4.2). -/
def Panel.ofNat (x : Nat) : Panel :=
  { map := bits x 113 15, pageLog2 := bits x 110 3, trans := bit x 107, fmt := bits x 103 4
    scalePitch := bits x 84 12, scaleBase := bits x 64 15, pitch := bits x 32 12, base := bits x 0 15 }

/-- R108, R110: the panel word is well formed; `b` says that it is a B panel. -/
def panelOk (x : Nat) (b : Bool) : Bool :=
  let p := Panel.ofNat x
  decide (p.fmt < 12) && bits x 108 2 == 0 && bits x 96 7 == 0 && bits x 79 5 == 0 && bits x 44 20 == 0 &&
    bits x 15 17 == 0 && p.pitch != 0 && (b || (!p.trans && p.map == 0))

/-- R110: where stored row `i` begins, with the address of the map entry that names it, if any. -/
def Panel.row (p : Panel) (ls : Table Byte) (i : Nat) : Nat × Option Nat :=
  if p.map = 0 then (p.base * 128 + i * p.pitch * 128, none)
  else
    let n := 2 ^ (p.pageLog2 + 4)
    let e := p.map * 128 + 2 * (i / n)
    let first := (Table.get 0 ls e).toNat + 256 * (Table.get 0 ls (e + 1)).toNat
    (first * 128 + i % n * p.pitch * 128, some e)

/-- The stored rows of a group, and the elements of each that it reads: rows of A or columns of B along k, or one
row for each k of a transposed B. -/
def Panel.rowsOf (p : Panel) (lines k0 kn : Nat) : List Nat × Nat × Nat :=
  if p.trans then ((List.range kn).map (k0 + ·), 0, lines) else (List.range lines, k0, kn)

/-- R111: the first failing read of one panel for a group. -/
def Panel.checkGroup (p : Panel) (ls : Table Byte) (limit lines k0 kn : Nat) : Option Nat :=
  let r := p.rowsOf lines k0 kn
  let w := typeBits p.fmt
  let elems := r.1.findSome? fun i =>
    let a := p.row ls i
    match a.2 with
    | some e =>
      if limit < e + 2 ∨ limit < a.1 + (w * (r.2.1 + r.2.2) + 7) / 8 then some Code.pageMap else none
    | none => if limit < a.1 + (w * (r.2.1 + r.2.2) + 7) / 8 then some Code.operandBounds else none
  match elems with
  | some c => some c
  | none =>
    if typeMx p.fmt then
      (List.range lines).findSome? fun i =>
        if limit ≤ p.scaleBase * 128 + i * p.scalePitch * 32 + k0 / 32 then some Code.operandBounds else none
    else none

/-- The bits of an element of a stored row. -/
def storedBits (ls : Table Byte) (row w i : Nat) : Nat :=
  let b := w * i
  let bytes := (List.range ((b % 8 + w + 7) / 8)).map fun j => Table.get 0 ls (row + b / 8 + j)
  bits (leNat bytes) (b % 8) w

/-- The value of an element of a panel: line (row of A or column of B) and k. MX elements take their block's scale
(02 R57). -/
def Panel.value (p : Panel) (ls : Table Byte) (line k : Nat) : Fp :=
  let w := typeBits p.fmt
  let x := if p.trans then storedBits ls (p.row ls k).1 w line else storedBits ls (p.row ls line).1 w k
  if typeMx p.fmt then
    let sc := (Table.get 0 ls (p.scaleBase * 128 + line * p.scalePitch * 32 + k / 32)).toNat
    if sc = 255 then .nan else (typeFp p.fmt x).scale ((sc : Int) - 127)
  else typeFp p.fmt x

/-! ### Accumulation (02 R62 to R67, 03 R98) -/

/-- R64 or R70: the sum of a group's products. -/
def groupValue (a : AccFmt) (wide : Bool) (ps : List Fp) : Nat :=
  match a with
  | .int32 => ((ps.foldl (fun (x : Int) p => x + truncTo 0 p) 0) % ((2 ^ 32 : Nat) : Int)).toNat
  | f => groupSum f.fmt (groupWindow f wide) ps

/-- R98: the shadow unit's extended format, 106 significand bits and a 20-bit exponent. -/
def fpExt : Fmt := ⟨20, 105, 2 ^ 19 - 1, true, false, (2 ^ 20 - 1) * 2 ^ 105 - 1, (2 ^ 20 - 1) * 2 ^ 105 + 2 ^ 104, .toInf⟩

/-- The format the shadow unit works in. -/
def AccFmt.wideFmt : AccFmt → Fmt
  | .fp64 => fpExt
  | _ => Sys2Proof.Machine.fp64

/-- R98: one product into the running wide sum and the sum of magnitudes; an integer wide sum wraps as R70 says
of every sum. -/
def wideAdd (a : AccFmt) (x : Nat × Nat) (p : Fp) : Nat × Nat :=
  let f := a.wideFmt
  let s := f.round ((f.decode x.2).add p.abs)
  match a with
  | .int32 => ((((x.1 : Int) + truncTo 0 p) % ((2 ^ 32 : Nat) : Int)).toNat, s)
  | _ => (f.round ((f.decode x.1).add p), s)

/-- R67 on whole tiles: place a chunk's tile on the carry stack. -/
def tilePush (a : AccFmt) : Nat → List (Nat × List Nat) → List Nat → Nat → List (Nat × List Nat)
  | n + 1, (l, u) :: t, v, level =>
    if l = level then tilePush a n t (List.zipWith (accAdd a) u v) (level + 1) else (level, v) :: (l, u) :: t
  | _, st, v, level => (level, v) :: st

/-- R67: the flushed value of a tile; +0 where nothing was accumulated. -/
def Acc.value (x : Acc) : List Nat :=
  match x.stack with
  | [] => List.replicate x.accFmt.elems 0
  | (_, v) :: t => t.foldl (fun acc e => List.zipWith (accAdd x.accFmt) e.2 acc) v

/-- One group into an accumulation; `last` says that the group ends at K_END. -/
def Acc.addGroup (x : Acc) (wide : Bool) (as bs : List (List Fp)) (last : Bool) : Acc :=
  let ps := as.flatMap fun ra => bs.map fun rb => List.zipWith Fp.mul ra rb
  let gs := ps.map (groupValue x.accFmt wide)
  let cur := if x.groups = 0 then gs else List.zipWith (accAdd x.accFmt) x.cur gs
  let w0 := if x.wide = [] then ps.map fun _ => (0, 0) else x.wide
  let w := List.zipWith (fun y p => p.foldl (wideAdd x.accFmt) y) w0 ps
  if x.groups + 1 = 32 ∨ last then
    { x with groups := 0, cur := [], wide := w, stack := tilePush x.accFmt 64 x.stack cur 0 }
  else { x with groups := x.groups + 1, cur := cur, wide := w }

/-- The groups of a piece, as (first k, number of k). -/
def pieceGroups (kcount : Nat) : List (Nat × Nat) :=
  (List.range ((kcount + 31) / 32)).map fun g => (32 * g, min 32 (kcount - 32 * g))

/-- R111: the first failing read of a piece, in the loader's order. -/
def pieceFault (ls : Table Byte) (limit : Nat) (a b : Panel) (cols kcount : Nat) : Option Nat :=
  (pieceGroups kcount).findSome? fun g =>
    match a.checkGroup ls limit tileRows g.1 g.2 with
    | some c => some c
    | none => b.checkGroup ls limit cols g.1 g.2

/-- A TMMA's work on its accumulation. -/
def Acc.piece (x : Acc) (ls : Table Byte) (a b : Panel) (kcount : Nat) : Acc :=
  let wide := x.fmtA == 1
  let y := (pieceGroups kcount).foldl (fun (x : Acc) g =>
    let ks := (List.range g.2).map (g.1 + ·)
    let as := (List.range tileRows).map fun r => ks.map (a.value ls r)
    let bs := (List.range x.accFmt.cols).map fun c => ks.map (b.value ls c)
    x.addGroup wide as bs (decide (x.doneTo + g.1 + g.2 = x.tag.kEnd))) x
  { y with doneTo := x.doneTo + kcount }

/-! ### Handles and slots (R112 to R119) -/

/-- R67: the levels of a carry stack after a chunk is placed at `level`, and how many merges that takes. -/
def foldLevels : List Nat → Nat → List Nat × Nat
  | l :: t, level =>
    if l = level then
      let r := foldLevels t (level + 1)
      (r.1, r.2 + 1)
    else (level :: l :: t, 0)
  | [], level => ([level], 0)

/-- The ac that the array and the merge unit take for the groups of an accumulation (04 "The carry stack in practice"):
the array's clock, when the merge unit and the accumulation's second working slot come free, what the array has
waited, groups of the chunk in progress, and the stack's levels. -/
structure MergeClock where
  clock : Nat
  mergeAt : Nat
  freeAt : Nat
  waited : Nat
  groups : Nat
  levels : List Nat
  deriving DecidableEq, Repr

/-- One group of `tg` ac. At the end of a chunk the array waits for a working slot, and the merge unit takes 16 ac for
each level it folds. -/
def MergeClock.group (m : MergeClock) (tg : Nat) (last : Bool) : MergeClock :=
  let t := m.clock + tg
  if m.groups + 1 = 32 ∨ last then
    let w := m.freeAt - t
    let f := foldLevels m.levels 0
    let done := max (t + w) m.mergeAt + 16 * f.2
    ⟨t + w, done, done, m.waited + w, 0, f.1⟩
  else { m with clock := t, groups := m.groups + 1 }

/-- The clock after a piece of `kcount` values; `ends` says that it reaches K_END. -/
def MergeClock.piece (m : MergeClock) (tg kcount : Nat) (ends : Bool) : MergeClock :=
  let n := (kcount + 31) / 32
  (List.range n).foldl (fun m i => m.group tg (ends && i + 1 == n)) m

/-- R113: the slots an accumulation over `n` chunks reserves. -/
def slotsFor (n : Nat) : Nat := if n = 0 then 1 else if n = 1 then 1 else 2 + (Nat.log2 (n - 1) + 1)

/-- The accumulation that a party's handle names, if it is open. -/
def Cluster.handle (k : Cluster) (party h : Nat) : Option (Nat × Acc) :=
  match Table.find k.te.handles (16 * party + h) with
  | some n => (Table.find k.te.accs n).map fun a => (n, a)
  | none => none

/-- Slots that a party's accumulations hold now. -/
def Cluster.slotsHeld (k : Cluster) (party : Nat) : Nat :=
  k.te.accs.foldl (fun n e => if e.2.party == party then n + e.2.slots else n) 0

/-- The operation combines into an accumulation. -/
def TensorOpKind.combines (o : TensorOpKind) (n : Nat) : Bool :=
  match o with
  | .comb i _ _ => i == n
  | _ => false

/-- Slots whose release is not queued (R115): those of open accumulations, of which one that a queued TCOMB combines
into keeps the one slot of the combined tile (R119). -/
def Cluster.slotsKept (k : Cluster) (party : Nat) : Nat :=
  k.te.accs.foldl (fun n e =>
    if e.2.party == party && !e.2.closed then
      n + (if k.te.queue.any fun o => o.kind.combines e.1 then 1 else e.2.slots)
    else n) 0

/-- An operation holds an accumulation. -/
def TensorOpKind.uses (o : TensorOpKind) (n : Nat) : Bool :=
  match o with
  | .mma a _ _ _ _ => a == n
  | .store a _ _ _ _ _ _ _ => a == n
  | .comb i l h => i == n || l == n || h == n
  | .ldp a _ _ => a == n

/-- Change the tensor engine of a cluster. -/
def State.modTe (s : State) (c : Nat) (f : TensorEngine → TensorEngine) : State :=
  let k := s.cluster c
  s.setCluster c { k with te := f k.te }

/-- R119: an accumulation that is closed and that no queued operation holds is freed. -/
def TensorEngine.reap (t : TensorEngine) : TensorEngine :=
  { t with accs := t.accs.filter fun e => !e.2.closed || t.queue.any fun o => o.kind.uses e.1 }

/-- R116: close a handle: its number is free at once, its slots when queued work has read them. -/
def TensorEngine.close (t : TensorEngine) (party h n : Nat) : TensorEngine :=
  let accs := match Table.find t.accs n with
    | some a => Table.insert t.accs n { a with closed := true }
    | none => t.accs
  ({ t with accs := accs, handles := Table.erase t.handles (16 * party + h) }).reap

/-- The operation is a TACC.LDP load, which acts at issue and waits in no queue (R114). -/
def TensorOpKind.isLoad (o : TensorOpKind) : Bool :=
  match o with
  | .ldp _ _ _ => true
  | _ => false

/-- The oldest of the queued operations (R114). -/
def TensorEngine.head (t : TensorEngine) : Option TensorOp := t.queue.find? fun o => !o.kind.isLoad

/-- The operation that reaches its milestone next: the oldest load that no older operation of its token precedes
(06 R189; log 128), else the oldest of the queued ones (R114). -/
def TensorEngine.first (t : TensorEngine) : Option TensorOp :=
  let behind := fun (o : TensorOp) =>
    t.queue.any fun q => decide (q.id < o.id) && q.party == o.party && q.token == o.token
  match t.queue.find? fun o => o.kind.isLoad && !behind o with
  | some o => some o
  | none => t.head

/-- Open a handle on a new accumulation. -/
def TensorEngine.openHandle (t : TensorEngine) (party h : Nat) (a : Acc) : TensorEngine :=
  let n := (Table.firstFree t.accs 0 64).getD 0
  { t with accs := Table.insert t.accs n a, handles := Table.insert t.handles (16 * party + h) n }

/-- Replace an accumulation. -/
def TensorEngine.setAcc (t : TensorEngine) (n : Nat) (a : Acc) : TensorEngine :=
  { t with accs := Table.insert t.accs n a }

/-! ### Issue -/

/-- The checks of a tensor instruction: the fields its row of 06 Table 6.15 uses. -/
def tensorChecks (f : VFmt) (sa sb sc : Bool) (modMask : Nat) (regs : Bool) : Checks :=
  { legal := f.clean { dst := true, sa := sa, sb := sb, sc := sc, modMask := modMask } &&
      decide (f.dst.toNat < 16) && regs
    range := fun _ => true
    ropeLevel := true }

/-- A uniform pair's field is even (06 R184). -/
def pairLegal (f : BitVec 8) : Bool := uLegal f.toNat && f.toNat % 2 == 0

/-- Queue an operation under a token and go on. -/
def State.queueTensor (s : State) (k : IssueCtx) (o : TensorOp) : State :=
  let p := k.party.takeToken o.token .tensor
  let s1 := s.setParty k.c k.rope.party p
  (s1.modTe k.c fun t => { t with queue := t.queue ++ [{ o with id := t.nextId }], nextId := t.nextId + 1 }).finish k
    k.rope

/-- A new operation of an issuing rope. -/
def IssueCtx.tensorOp (k : IssueCtx) (kind : TensorOpKind) (handle tok : Nat) : TensorOp :=
  ⟨kind, handle, k.rope.party, k.slot, k.ctx, k.rope.pc, tok, 0, [], 0⟩

/-- The faults at issue that come before Table 4.7's: HANDLE_RANGE (R209), TOKEN_MIX (R189). -/
def IssueCtx.tensorFirst (k : IssueCtx) (h : Nat) (tok : Option Nat) : Option Nat :=
  if k.party.par.handles ≤ h then some Code.handleRange
  else
    match tok with
    | some t => if k.party.tokenMix t .tensor then some Code.tokenMix else none
    | none => none

/-- The token would reach 256 outstanding operations: the instruction waits at issue (R188). -/
def IssueCtx.tokenFull (k : IssueCtx) (t : Nat) : Bool := (k.party.token t).outstanding == 255

/-- TACC.OPEN (R114, R115, R118). -/
def execTaccOpen (i : Issue) (f : VFmt) (s : State) : Host.Outcome State Fault Refusal :=
  issueWait i f.guard (tensorChecks f true true true 255 (uLegal f.sa.toNat && uLegal f.sb.toNat && uLegal f.sc.toNat)) s
    fun s k =>
      let h := f.dst.toNat
      let fa := bits f.mod.toNat 0 4
      let fb := bits f.mod.toNat 4 4
      let kt := (k.rope.ureg f.sa.toNat).toNat
      let ks := (k.rope.ureg f.sb.toNat).toNat
      let ke := (k.rope.ureg f.sc.toNat).toNat
      match k.tensorFirst h none, tensorPair fa fb with
      | some c, _ => (s.fail k c, true)
      | none, none => (s.fail k Code.formatMix, true)
      | none, some (af, _, _) =>
        let tag : Tag := ⟨decide (kt = 0), af.code, kt, ke, ks⟩
        let cl := s.cluster k.c
        if 2 ^ 34 < kt then (s.fail k Code.kRange, true)
        else if !tag.legal then (s.fail k Code.splitkAlign, true)
        else if (cl.handle k.rope.party h).isSome then (s.fail k Code.accState, true)
        else
          let need := slotsFor (chunks ke - ks / 1024)
          if k.party.par.slots < cl.slotsKept k.rope.party + need then (s.fail k Code.accSlots, true)
          else if k.party.par.slots < cl.slotsHeld k.rope.party + need then (s, false)
          else
            let a : Acc := ⟨k.rope.party, k.ctx, fa, fb, af, ks, ks, none, tag, false, false, need, false, 0, [], [], [], 0⟩
            ((s.modTe k.c fun t => t.openHandle k.rope.party h a).finish k k.rope, true)

/-- TMMA (R117). -/
def execTmma (i : Issue) (f : VFmt) (s : State) : Host.Outcome State Fault Refusal :=
  issueWait i f.guard (tensorChecks f true true true 15 (pairLegal f.sa && pairLegal f.sb && pairLegal f.sc)) s
    fun s k =>
      let h := f.dst.toNat
      let tok := f.mod.toNat
      let wa := k.rope.upair f.sa.toNat
      let wb := k.rope.upair f.sb.toNat
      let a := Panel.ofNat wa
      let b := Panel.ofNat wb
      let kc := (k.rope.ureg f.sc.toNat).toNat
      let og := (k.rope.ureg (f.sc.toNat + 1)).toNat
      let origin := (og % 2 ^ 32, og / 2 ^ 32)
      let hd := (s.cluster k.c).handle k.rope.party h
      -- a reserved code is no format: PANEL_FORM names it (R108; log 44)
      let differs := fun (p : Panel) (f : Nat) => decide (p.fmt < 12) && p.fmt != f
      let mixed := (decide (a.fmt < 12) && decide (b.fmt < 12) && (tensorPair a.fmt b.fmt).isNone) || (match hd with
        | some (_, x) => !x.loaded && (differs a x.fmtA || differs b x.fmtB)
        | none => false)
      match k.tensorFirst h (some tok) with
      | some c => (s.fail k c, true)
      | none =>
        if mixed then (s.fail k Code.formatMix, true)
        else if !(panelOk wa false && panelOk wb true) then (s.fail k Code.panelForm, true)
        else
          match hd with
          | none => (s.fail k Code.accState, true)
          | some (n, x) =>
            let moved := match x.origin with
              | some o => o != origin
              | none => false
            let upTo := x.queuedTo + kc
            if x.loaded || moved then (s.fail k Code.accState, true)
            else if x.queuedTo = x.tag.kEnd ∨ x.tag.kEnd < upTo ∨ (kc % 1024 ≠ 0 ∧ upTo ≠ x.tag.kEnd) then
              (s.fail k Code.mmaPiece, true)
            else if k.tokenFull tok then (s, false)
            else
              let x1 := { x with queuedTo := upTo, origin := some origin
                                 tag := { x.tag with valid := x.tag.valid || decide (upTo = x.tag.kEnd) } }
              let seq := Table.get 0 (s.cluster k.c).te.ops k.ctx
              let s1 := s.modTe k.c fun t => { t.setAcc n x1 with ops := Table.set 0 t.ops k.ctx (seq + 1) }
              (s1.queueTensor k (k.tensorOp (.mma n a b kc seq) h tok), true)

/-- TCOMB (R116, R125, R598, 02 R76): it waits at issue for a load into either handle. The origin that h has kept, be it
set by a TMMA of h or taken over at an earlier TCOMB, stays (DESIGN CHOICE, log 129). -/
def execTcomb (i : Issue) (f : VFmt) (s : State) : Host.Outcome State Fault Refusal :=
  issueWait i f.guard (tensorChecks f true false false 15 (decide (f.sa.toNat < 16))) s
    fun s k =>
      let h := f.dst.toNat
      let g := f.sa.toNat
      let tok := f.mod.toNat
      let cl := s.cluster k.c
      match k.tensorFirst (max h g) (some tok) with
      | some c => (s.fail k c, true)
      | none =>
        match cl.handle k.rope.party h, cl.handle k.rope.party g with
        | some (nh, x), some (ng, y) =>
          if h = g then (s.fail k Code.accState, true)
          else if x.loading || y.loading then (s, false)
          else
            let low := decide (x.tag.kStart ≤ y.tag.kStart)
            match (if low then x.tag.combine y.tag else y.tag.combine x.tag) with
            | none => (s.fail k Code.splitkAlign, true)
            | some tag =>
              if k.tokenFull tok then (s, false)
              else
                let x1 := { x with tag := tag, queuedTo := tag.kEnd, origin := if x.origin.isSome then x.origin else y.origin }
                let o := k.tensorOp (.comb nh (if low then nh else ng) (if low then ng else nh)) h tok
                let s1 := (s.modTe k.c fun t => t.setAcc nh x1).queueTensor k o
                (s1.modTe k.c fun t => t.close k.rope.party g ng, true)
        | _, _ => (s.fail k Code.accState, true)

/-- TACC.REL (R114, R116). -/
def execTaccRel (i : Issue) (f : VFmt) (s : State) : Host.Outcome State Fault Refusal :=
  issue i f.guard (tensorChecks f false false false 0 true) s
    fun s k =>
      let h := f.dst.toNat
      match k.tensorFirst h none with
      | some c => s.fail k c
      | none =>
        match (s.cluster k.c).handle k.rope.party h with
        | none => s.fail k Code.accState
        | some (n, _) => (s.modTe k.c fun t => t.close k.rope.party h n).finish k k.rope

/-! ### Descriptors at issue (08 Table 8.7, R252) -/

/-- Stall an instruction at issue on a translation fault of the descriptor that the tensor engine reads; what it has
read stays read (R252). -/
def Sess.stallIssue (x : Sess) (k : IssueCtx) (cause entry va : Nat) (n : Need) : State :=
  let s1 := x.st.xltFault ⟨.tensor k.c, n.code, cause, k.ctx, va, entry⟩
  match Table.find (s1.cluster k.c).ropes k.slot with
  | some r => s1.setRope k.c k.slot { r with stall := some (k.ctx, blockOf va), issueLog := x.seen.reverse }
  | none => s1

/-- How a stop at issue ends the instruction, and whether it has issued. -/
def Sess.stopIssue (x : Sess) (k : IssueCtx) : State × Bool :=
  match x.stop with
  | some (.fault c a kind) => (x.st.failAt k c a kind, true)
  | some (.poison va) => (x.st.countConsumed.engineFault k.c 0 k.ctx Code.poison va 1, true)
  | some (.refused l) => (x.st.frameFault k.ctx l, true)
  | some (.stall c e va n) => (x.stallIssue k c e va n, false)
  | none => (x.st, true)

/-- The session of an instruction that reads descriptors at issue. -/
def IssueCtx.session (k : IssueCtx) (s : State) : Sess :=
  s.session k.c k.ctx k.rope.party ⟨[], []⟩ k.rope.issueLog 0

/-- Read a descriptor, and its reserved-field check with it. A fault of the read itself is put off: the faults of
Table 8.7 and Table 4.7 that need no word of it come first (06 R220). -/
def Sess.readDesc (x : Sess) (va : Nat) : Sess × Option (Desc × Bool) :=
  let r := x.desc va
  match r.1.stop with
  | none => (r.1, some (Desc.ofNat r.2, descReserved r.2))
  | some (.fault c a n) => if c = Code.descForm then (x.halt (.fault c a n), none) else (r.1.putOff.1, none)
  | some _ => (r.1.putOff.1, none)

/-- Some condition holds of a descriptor that has been read. -/
def onDesc (d : Option (Desc × Bool)) (f : Desc → Bool → Bool) : Bool :=
  match d with
  | some e => f e.1 e.2
  | none => false

/-- TACC.LDP (R114, R115, R125): it opens the handle at issue and waits there for a slot. The tag and the partial are
read by the engine, in no queue. -/
def execTaccLdp (i : Issue) (f : VFmt) (s : State) : Host.Outcome State Fault Refusal :=
  issueWait i f.guard (tensorChecks f true true false 15 (uLegal f.sa.toNat && uLegal f.sb.toNat)) s
    fun s k =>
      let h := f.dst.toNat
      let tok := f.mod.toNat
      let va := (k.rope.ureg f.sa.toNat).toNat
      let tagVa := (k.rope.ureg f.sb.toNat).toNat
      let cl := s.cluster k.c
      let u := s.place k.ctx k.c k.cx
      let isOpen := (cl.handle k.rope.party h).isSome
      let never := decide (k.party.par.slots < cl.slotsKept k.rope.party + 1)
      match k.tensorFirst h (some tok) with
      | some c => (s.fail k c, true)
      | none =>
        if va % 128 ≠ 0 ∨ tagVa % 16 ≠ 0 then (s.fail k Code.descAlign, true)
        else if !isOpen && !never && (decide (k.party.par.slots < cl.slotsHeld k.rope.party + 1) || k.tokenFull tok) then
          (s, false)
        else
          let r := (k.session s).readDesc va
          let x := r.1
          if x.stop.isSome then x.stopIssue k
          else if onDesc r.2 fun d res => res || !d.formOk k.cx.axes || decide (2 < d.rank) then
            (x.st.fail k Code.descForm, true)
          else if onDesc r.2 fun d _ => !d.mxShapeOk then (x.st.fail k Code.mxShape, true)
          else if onDesc r.2 fun d _ => spanForm (d.footprint u) then (x.st.fail k Code.addrForm, true)
          else if onDesc r.2 fun d _ => spanOutside k.party.lsBytes (d.footprint u) then (x.st.fail k Code.lsBounds, true)
          else if isOpen then (x.st.fail k Code.accState, true)
          else if never then (x.st.fail k Code.accSlots, true)
          else
            match r.2 with
            | none => x.takeOff.stopIssue k
            | some (d, _) =>
              let af : AccFmt := if d.type = 0 then .fp64 else if d.type = 12 then .int32 else .fp32
              let a : Acc := ⟨k.rope.party, k.ctx, 0, 0, af, 0, 0, none, ⟨false, af.code, 0, 0, 0⟩, true, true, 1,
                false, 0, [], [], [], 0⟩
              let s1 := x.st.modTe k.c fun t => t.openHandle k.rope.party h a
              let n := match (s1.cluster k.c).handle k.rope.party h with
                | some (n, _) => n
                | none => 0
              (s1.queueTensor k (k.tensorOp (.ldp n d tagVa) h tok), true)

end Sys2Proof.Machine
end

