-- ==== Sys2Proof/Machine/StoreFmt.lean ====
section
/-! DEFINITION. The store formatter: TSTORE's checks at issue and its work, block scales, ledger updates, and the
milestones of the tensor engine (04_tensor_engine.md R120 to R133, R598, R599;
03_scaling_ledger_shadow_checks.md R84 to R98; 02_numerics_reference_order.md R59, R69, R76 to R82). -/

namespace Sys2Proof.Machine

/-! ### Recipes and block scales (03 Table 3.1, R86) -/

/-- A recipe entry. -/
structure Recipe where
  mode : Nat
  watch : Bool
  margin : Nat
  hold : Nat
  fixed : Nat
  deriving DecidableEq, Repr

/-- Recipe modes. -/
def rPlain : Nat := 0
def rFixed : Nat := 1
def rJit : Nat := 2
def rLedger : Nat := 3

/-- A recipe entry from its 32 bits. -/
def Recipe.ofNat (x : Nat) : Recipe := ⟨bits x 30 2, bit x 29, bits x 24 2, bits x 16 5, bits x 0 8⟩

/-- Entry `i` of a context's recipe table. -/
def Ctx.recipeOf (x : Ctx) (i : Nat) : Recipe := Recipe.ofNat (x.recipe.getD i 0)

/-- Table 3.2, by element type. -/
def emaxOf (t : Nat) : Nat :=
  match t with
  | 6 => 8
  | 7 => 15
  | 8 => 4
  | _ => 2

/-- An FP32 bit pattern is NaN or infinite. -/
def fp32NonFinite (x : Nat) : Bool := bits x 23 8 == 255

/-- R86: the largest biased exponent of a block's finite values. -/
def blockAmax (xs : List Nat) : Nat :=
  xs.foldl (fun a x => if fp32NonFinite x then a else max a (bits x 23 8)) 0

/-- R86: the scale of a block. -/
def blockScale (r : Recipe) (entryScale emax : Nat) (xs : List Nat) : Nat :=
  if r.mode = rFixed then r.fixed
  else if r.mode = rLedger then entryScale
  else min (blockAmax xs + r.margin - emax) 254

/-- R59: a block of FP32 values converted under a scale: the scale written, the element codes, the count of
flagged saturations, and whether the block became NaN. -/
def mxBlock (f : Fmt) (s : Nat) (xs : List Nat) : Nat × List Nat × Nat × Bool :=
  if xs.any fun x => fp32NonFinite x && bits x 0 23 != 0 then (255, xs.map fun _ => 0, 0, true)
  else
    let cs := xs.map fun x => f.roundS ((fp32.decode x).scale (127 - (s : Int))) false
    (s, cs.map Prod.fst, (cs.filter Prod.snd).length, false)

/-! ### Conversions into a destination (R599, 02 Table 2.3) -/

/-- The bits of a value in a float or integer destination type, and whether the conversion saturated, flagged. -/
def encodeInto (t : Nat) (v : Fp) : Nat × Bool :=
  match typeFmt t with
  | some f => f.roundS v false
  | none =>
    let w := typeBits t
    let hi : Int := ((2 ^ (w - 1) : Nat) : Int) - 1
    ((Fp.toIntSat false (-hi - 1) hi v % ((2 ^ w : Nat) : Int)).toNat, false)

/-- Which saturations Table 2.3 flags: those into the 8-bit and narrower floats. -/
def flagsSat (t : Nat) : Bool := decide (4 ≤ t) && decide (t ≤ 10)

/-- The exact value of an accumulator element. -/
def AccFmt.toFp (a : AccFmt) (x : Nat) : Fp :=
  match a with
  | .int32 => Fp.ofInt (signed 32 x)
  | f => f.fmt.decode x

/-- The value is an integer. -/
def Fp.exactInt : Fp → Option Int
  | .fin n m e =>
    let mag : Option Nat := if 0 ≤ e then some (m <<< e.toNat)
      else if m % 2 ^ (-e).toNat = 0 then some (m >>> (-e).toNat) else none
    mag.map fun k => if n then -(k : Int) else k
  | _ => none

/-! ### Tiles through descriptors (08 R267) -/

/-- Local coordinates of tile element (r, c) at an origin (M, N). -/
def tileCoord (trans : Bool) (o : Nat × Nat) (r c : Nat) : List Int :=
  if trans then [((o.1 + r : Nat) : Int), ((o.2 + c : Nat) : Int), 0, 0, 0, 0]
  else [((o.2 + c : Nat) : Int), ((o.1 + r : Nat) : Int), 0, 0, 0, 0]

/-- Tile elements in row order, as (row, column). -/
def tileElems (cols : Nat) : List (Nat × Nat) :=
  (List.range tileRows).flatMap fun r => (List.range cols).map fun c => (r, c)

/-- The exact value of an element's bits, with the scale of its block for MX types (02 R57). -/
def Desc.valueOf (d : Desc) (x scale : Nat) : Fp :=
  if d.type = 14 then
    let v := signed 256 x
    .fin (decide (v < 0)) v.natAbs d.q
  else if typeMx d.type then
    if scale = 255 then .nan else (typeFp d.type x).scale ((scale : Int) - 127)
  else typeFp d.type x

/-- Read one element's bits and, for MX types, its block's scale; FILL out of bounds (R261). -/
def Sess.element (x : Sess) (d : Desc) (u : Place) (i : List Int) : Sess × Nat × Nat :=
  match d.bitAddr u i with
  | none => (x, d.fillBits, d.fillScale)
  | some a =>
    let w := typeBits d.type
    let r := x.read d.ls (a / 8) ((a % 8 + w + 7) / 8)
    let v := bits r.2 (a % 8) w
    if typeMx d.type then
      let t := r.1.read d.ls (d.scaleAddr u i) 1
      (t.1, v, t.2)
    else (r.1, v, 0)

/-- Read a tile's values through a descriptor. -/
def Sess.readTile (x : Sess) (d : Desc) (u : Place) (trans : Bool) (o : Nat × Nat) (cols : Nat) : Sess × List Fp :=
  (tileElems cols).foldl (fun (r : Sess × List Fp) e =>
    let v := r.1.element d u (tileCoord trans o e.1 e.2)
    (v.1, r.2 ++ [d.valueOf v.2.1 v.2.2])) (x, [])

/-- R262: add a drop count at DROP_VA and to CL_HAUL_DROPS. -/
def Sess.drops (x : Sess) (d : Desc) (n : Nat) : Sess :=
  if n = 0 || x.stop.isSome then x
  else
    let x1 := { x with acts := .drops n :: x.acts }
    if d.dropVa = 0 then x1 else x1.atomic false d.dropVa 8 (fun v => v + n)

/-- A ledger's address; a ledger is aligned to 128 bytes (R89). -/
def Desc.ledger (d : Desc) : Nat := d.ledgerVa / 128 * 128

/-- R90: the update of a block's ledger entry. -/
def ledgerUpdate (amax : Nat) (ovf nan : Bool) (e : Nat) : Nat :=
  let a := max (bits e 16 8) amax
  let e1 := setBits (setBits e 16 8 a) 29 1 1
  let e2 := if ovf then setBits e1 31 1 1 else e1
  if nan then setBits e2 30 1 1 else e2

/-- R90: the header counts of a store; a count of 0 makes no access. -/
def Sess.ledgerCounts (x : Sess) (d : Desc) (watch : Bool) (sat nf : Nat) : Sess :=
  if d.ledgerVa = 0 then x
  else
    let x1 := if sat = 0 then x else x.atomic false (d.ledger + 0x10) 8 (fun v => v + sat)
    if !watch || nf == 0 then x1 else x1.atomic false (d.ledger + 0x18) 8 (fun v => v + nf)

/-- The value is NaN or infinite. -/
def Fp.nonFinite : Fp → Bool
  | .fin _ _ _ => false
  | _ => true

/-- Write a tile through a non-MX descriptor; `conv` gives an element's code, whether it saturated, flagged, and
whether it counts as non-finite, from its linear index and value. -/
def Sess.writePlain {α : Type} (x : Sess) (d : Desc) (u : Place) (r : Recipe) (trans ledger : Bool) (o : Nat × Nat)
    (cols : Nat) (conv : Nat → α → Nat × Bool × Bool) (vals : List α) : Sess :=
  let w := typeBits d.type / 8
  let z := ((tileElems cols).zip vals).foldl (fun (z : Sess × Nat × Nat × Nat) e =>
    let i := tileCoord trans o e.1.1 e.1.2
    match d.bitAddr u i with
    | none => (z.1, z.2.1 + 1, z.2.2.1, z.2.2.2)
    | some a =>
      let c := conv (d.linear u i) e.2
      (z.1.write d.ls (a / 8) (leBytes w c.1), z.2.1, z.2.2.1 + bval c.2.1, z.2.2.2 + bval c.2.2)) (x, 0, 0, 0)
  let y := if ledger then z.1.ledgerCounts d r.watch z.2.2.1 z.2.2.2 else z.1
  y.drops d z.2.1

/-- The blocks of a tile along dimension 0, as the coordinates of their elements' tile positions. -/
def tileBlocks (trans : Bool) (cols : Nat) : List (List (Nat × Nat)) :=
  if trans then (List.range cols).flatMap fun c => (List.range (tileRows / 32)).map fun b =>
    (List.range 32).map fun j => (32 * b + j, c)
  else (List.range tileRows).flatMap fun r => (List.range (cols / 32)).map fun b =>
    (List.range 32).map fun j => (r, 32 * b + j)

/-- Element codes packed low first (R109). -/
def packBits (w : Nat) (l : List Nat) : Nat := l.foldr (fun c a => c % 2 ^ w + a * 2 ^ w) 0

/-- Write values of a tile through an MX descriptor, block by block (R59, R86, R90). -/
def Sess.writeMx (x : Sess) (d : Desc) (u : Place) (r : Recipe) (trans : Bool) (o : Nat × Nat) (cols : Nat)
    (vals : List Fp) : Sess :=
  let w := typeBits d.type
  let f := (typeFmt d.type).getD e4m3
  let z := (tileBlocks trans cols).foldl (fun (z : Sess × Nat × Nat × Nat) b =>
    match b with
    | [] => z
    | (r0, c0) :: _ =>
      let i := tileCoord trans o r0 c0
      match d.bitAddr u i with
      | none => (z.1, z.2.1 + 32, z.2.2.1, z.2.2.2)
      | some a =>
        let xs := b.map fun e => fp32.round (vals.getD (e.1 * cols + e.2) (.fin false 0 0))
        let blk := d.linear u i / 32
        let en := if r.mode = rLedger then z.1.readDev (d.ledger + 0x80 + 4 * blk) 4 else (z.1, 0)
        let m := mxBlock f (blockScale r (en.2 % 256) (emaxOf d.type) xs) xs
        let y := (en.1.write d.ls (a / 8) (leBytes (4 * w) (packBits w m.2.1))).write d.ls (d.scaleAddr u i)
          [BitVec.ofNat 8 m.1]
        let y1 := if d.ledgerVa = 0 then y
          else y.atomic false (d.ledger + 0x80 + 4 * blk) 4
            (ledgerUpdate (blockAmax xs) (decide (0 < m.2.2.1)) m.2.2.2)
        (y1, z.2.1, z.2.2.1 + m.2.2.1, z.2.2.2 + (xs.filter fp32NonFinite).length)) (x, 0, 0, 0)
  (z.1.ledgerCounts d r.watch z.2.2.1 z.2.2.2).drops d z.2.1

/-- Write a tile's values through a descriptor, converted under R599. NONFINITE of R90, which speaks of FP32 values,
counts the non-finite values of a tile in any format (DESIGN CHOICE, log 130). -/
def Sess.writeTile (x : Sess) (d : Desc) (u : Place) (cx : Ctx) (trans : Bool) (o : Nat × Nat) (cols : Nat)
    (vals : List Fp) : Sess :=
  let r := cx.recipeOf d.recipe
  if typeMx d.type then x.writeMx d u r trans o cols vals
  else
    x.writePlain d u r trans true o cols (fun _ v =>
      let c := encodeInto d.type v
      (c.1, c.2 && flagsSat d.type, v.nonFinite)) vals

/-! ### TSTORE at issue -/

/-- R85, R599: the recipe mode suits the destination type. -/
def recipeOk (cx : Ctx) (d : Desc) : Bool :=
  let r := cx.recipeOf d.recipe
  d.type != 14 && (typeMx d.type == (r.mode != rPlain)) && !(r.mode == rFixed && r.fixed == 255)

/-- R91: LEDGER_RANGE of a destination: a missing ledger, or more blocks than entries. Reads ENTRIES. -/
def Sess.ledgerOk (x : Sess) (cx : Ctx) (d : Desc) : Sess × Bool :=
  let r := cx.recipeOf d.recipe
  if (r.mode == rLedger || r.watch) && d.ledgerVa == 0 then (x, false)
  else if !typeMx d.type || d.ledgerVa == 0 then (x, true)
  else
    let e := x.readDev (d.ledger + 4) 4
    (e.1, decide (d.extent.foldl (· * ·) 1 / 32 ≤ e.2) || e.1.stop.isSome)

/-- R266: C identical to D in base, type, extents, strides and sharding. -/
def Desc.same (a b : Desc) : Bool :=
  a.base == b.base && a.type == b.type && a.extent == b.extent && a.stride == b.stride && a.splitM1 == b.splitM1 &&
    a.axes == b.axes && a.ls == b.ls

/-- The tile covers [0, K_TOTAL) (R77). -/
def Tag.complete (t : Tag) : Bool := t.valid && t.kStart == 0 && t.kEnd == t.kTotal

/-- The descriptor type of an accumulator format (R125). -/
def AccFmt.descType : AccFmt → Nat
  | .fp32 => 1
  | .fp64 => 0
  | .int32 => 12

/-- The faults of 08 Table 8.7 that a TSTORE meets at issue after the form of its descriptors, in table order, from
the descriptors that could be read. -/
def storeDescFault (u : Place) (bytes mode : Nat) (d rc : Option (Desc × Bool)) : Option Nat :=
  let foot := fun (e : Option (Desc × Bool)) => match e with
    | some x => x.1.footprint u
    | none => []
  let fd := foot d
  let fr := foot rc
  let aliased := onDesc d (fun x _ => !x.nested) || (mode == 1 && onDesc rc fun x _ => !x.nested)
  let same := match d, rc with
    | some x, some r => mode == 0 && r.1.same x.1
    | _, _ => false
  if aliased then some Code.descAlias
  else if meet fd fr && !same then some Code.descOverlap
  else if spanForm fd || spanForm fr then some Code.addrForm
  else if spanOutside bytes fd || spanOutside bytes fr then some Code.lsBounds
  else none

/-- The faults of Table 4.7 that a TSTORE meets at issue before LEDGER_RANGE, in table order, from the descriptors that
could be read. -/
def storeModeFault (cx : Ctx) (x : Acc) (mode : Nat) (sr trans : Bool) (d rc : Option (Desc × Bool)) : Option Nat :=
  let o := x.origin.getD (0, 0)
  let badD := onDesc d fun d _ => !recipeOk cx d || (mode == 2 && !decide (d.type ≤ 2)) || (sr && d.type != 2)
  let badR := mode == 1 && onDesc rc fun r _ => !recipeOk cx r || r.type != 1
  if mode ≠ 3 ∧ !x.tag.complete then some Code.splitkAlign
  else if mode ≠ 3 ∧ (badD || badR) then some Code.recipeMode
  else if onDesc d fun d _ => typeMx d.type && (if trans && mode != 3 then o.1 else o.2) % 32 != 0 then
    some Code.mxTileAlign
  else none

/-- R91 for the descriptors a TSTORE writes through; a fault of a ledger read waits behind LEDGER_RANGE (06 R220). -/
def Sess.ledgersOk (x : Sess) (cx : Ctx) (ds : List (Option (Desc × Bool))) : Sess × Bool :=
  ds.foldl (fun (r : Sess × Bool) d =>
    match d with
    | some (e, _) =>
      let l := r.1.ledgerOk cx e
      (l.1.putOff.1, r.2 && l.2)
    | none => r) (x, true)

/-- TSTORE (R114, R123 to R126; 06 R208): its descriptors are read and every check made at issue; it closes the
handle and queues the work. -/
def execTstore (i : Issue) (f : VFmt) (s : State) : Host.Outcome State Fault Refusal :=
  let m := f.mod.toNat
  let mode := bits m 0 2
  let addc := bit m 2
  let sr := bit m 3
  issueWait i f.guard (tensorChecks f true true true 0x3DF
      (uLegal f.sa.toNat && uLegal f.sb.toNat && uLegal f.sc.toNat && (!addc || mode == 0) && (!sr || mode == 2))) s
    fun s k =>
      let h := f.dst.toNat
      let trans := bit m 4
      let tok := bits m 6 4
      let vd := (k.rope.ureg f.sa.toNat).toNat
      let vr := (k.rope.ureg f.sb.toNat).toNat
      let step := (k.rope.ureg f.sc.toNat).toNat
      let second := mode == 1 || addc
      let u := s.place k.ctx k.c k.cx
      let hd := (s.cluster k.c).handle k.rope.party h
      let waits := match hd with
        | some (_, x) => x.loading || k.tokenFull tok
        | none => false
      match k.tensorFirst h (some tok) with
      | some c => (s.fail k c, true)
      | none =>
        if vd % 128 ≠ 0 ∨ (second ∧ vr % 128 ≠ 0) ∨ (mode = 3 ∧ step % 16 ≠ 0) then (s.fail k Code.descAlign, true)
        else if waits then (s, false)
        else
          let r1 := (k.session s).readDesc vd
          let r2 := if second then r1.1.readDesc vr else (r1.1, none)
          let x := r2.1
          let bad := fun (e : Desc) (res : Bool) => res || !e.formOk k.cx.axes || decide (2 < e.rank)
          let shape := fun (e : Desc) (_ : Bool) => !e.mxShapeOk
          if x.stop.isSome then x.stopIssue k
          else if onDesc r1.2 bad || onDesc r2.2 bad then (x.st.fail k Code.descForm, true)
          else if onDesc r1.2 shape || onDesc r2.2 shape then (x.st.fail k Code.mxShape, true)
          else
            match storeDescFault u k.party.lsBytes mode r1.2 r2.2, hd with
            | some c, _ => (x.st.fail k c, true)
            | none, none => (x.st.fail k Code.accState, true)
            | none, some (n, a) =>
              match storeModeFault k.cx a mode sr trans r1.2 r2.2 with
              | some c => (x.st.fail k c, true)
              | none =>
                let l := if mode = 3 then (x, true) else x.ledgersOk k.cx (r1.2 :: if mode = 1 then [r2.2] else [])
                if l.1.stop.isSome then l.1.stopIssue k
                else if !l.2 then (l.1.st.fail k Code.ledgerRange, true)
                else if mode = 3 ∧ onDesc r1.2 (fun d _ => d.type != a.accFmt.descType) then
                  (l.1.st.fail k Code.partialForm, true)
                else
                  match r1.2, l.1.takeOff.stop with
                  | some (d, _), none =>
                    let o := k.tensorOp (.store n mode addc sr trans d (r2.2.map Prod.fst) step) h tok
                    let s1 := l.1.st.queueTensor k o
                    (s1.modTe k.c fun t => t.close k.rope.party h n, true)
                  | _, _ => l.1.takeOff.stopIssue k

/-! ### TSTORE's work (R123) -/

/-- R69: a prior value added to an accumulator value; `c` enters exactly and the sum is rounded once, also where the
accumulator format cannot hold `c` (DESIGN CHOICE, log 51). An INT32 accumulator takes a prior value that is no integer
as a free value of the two operands, and wraps the sum of one beyond its range. -/
def addPrior (a : AccFmt) (c v : Fp) : Fp :=
  match a with
  | .int32 =>
    let q := v.exactInt.getD 0
    match c.exactInt with
    | some p => Fp.ofInt (signed 32 ((p + q) % ((2 ^ 32 : Nat) : Int)).toNat)
    | none =>
      let x := c.key
      Fp.ofInt (signed 32 (Config.int32Prior x.1 x.2.1 x.2.2 q).toNat)
  | f => f.fmt.decode (f.fmt.round (c.add v))

/-- TSTORE's reads, conversions and gathered writes. RESID and ACCUM add the tile's exact value to the prior one and
round the exact sum once in the format of R, or of D, whatever the tile's own format (DESIGN CHOICE, log 130). -/
def Sess.storeTile (x : Sess) (a : Acc) (cx : Ctx) (u : Place) (mode : Nat) (addc sr trans : Bool) (d : Desc)
    (rc : Option Desc) (step : Nat) : Sess :=
  let o := a.origin.getD (0, 0)
  let cols := a.accFmt.cols
  let raw := a.value
  let v0 := raw.map a.accFmt.toFp
  match mode, rc with
  | 3, _ =>
    let y := x.writePlain d u (cx.recipeOf d.recipe) false false o cols (fun _ c => (c, false, false)) raw
    y.write false step (leBytes 16 a.tag.toNat)
  | 1, some r =>
    let rs := x.readTile r u trans o cols
    let ys := List.zipWith (fun p v => fp32.decode (fp32.round (Fp.add p v))) rs.2 v0
    (rs.1.writeTile r u cx trans o cols ys).writeTile d u cx trans o cols ys
  | 2, _ =>
    let ds := x.readTile d u trans o cols
    let f := (typeFmt d.type).getD fp32
    if sr then
      ds.1.writePlain d u (cx.recipeOf d.recipe) trans true o cols
        (fun e (v : Fp) => (srBf16 v (philoxR cx.seed d.tensorId (step % 2 ^ 32) e), false, v.nonFinite))
        (List.zipWith Fp.add ds.2 v0)
    else if d.type = 2 then
      -- R80, R90: the exact sum rounds once into BF16, and NONFINITE counts it before that
      ds.1.writeTile d u cx trans o cols (List.zipWith Fp.add ds.2 v0)
    else
      ds.1.writeTile d u cx trans o cols (List.zipWith (fun p v => f.decode (f.round (Fp.add p v))) ds.2 v0)
  | _, some c =>
    if addc then
      let cs := x.readTile c u trans o cols
      let vs := if a.tag.kTotal = 0 then cs.2 else List.zipWith (addPrior a.accFmt) cs.2 v0
      cs.1.writeTile d u cx trans o cols vs
    else x.writeTile d u cx trans o cols v0
  | _, none => x.writeTile d u cx trans o cols v0

/-! ### TACC.LDP's work (R125) -/

/-- The loaded tile's codes and its tag. -/
def Sess.loadTile (x : Sess) (a : Acc) (u : Place) (d : Desc) (tagVa : Nat) : Sess × Acc :=
  let t := x.readDev tagVa 16
  let tag := Tag.ofNat t.2
  if t.1.stop.isSome then (t.1, a)
  else if tag.accFmt = 3 ∨ d.type ≠ (match tag.accFmt with
      | 0 => 1
      | 1 => 0
      | _ => 12) then (t.1.halt (.fault Code.partialForm 0 0), a)
  else
    let r := (tileElems a.accFmt.cols).foldl (fun (r : Sess × List Nat) e =>
      let v := r.1.element d u (tileCoord false (0, 0) e.1 e.2)
      (v.1, r.2 ++ [v.2.1])) (t.1, [])
    (r.1, { a with tag := tag, loading := false, stack := [(0, r.2)] })

/-! ### Milestones (R120, R128, R133) -/

/-- R133: an error of the accumulator SRAM; none where the cluster halts. -/
def State.teEcc (s : State) (c : Nat) (e : Ecc) : State × Bool :=
  match e with
  | .none => (s, true)
  | .corrected => (((s.satRf (.clTeEcc c) .corrected 1).errRecord (s.clusterInfo c 1 0 0 0 0) Code.clusterCe 0 63).1, true)
  | .uncorrectable => ((s.setRf (.clTeEcc c) .uncorr 1).clusterFail c Code.accUncorr, false)

/-- Take an operation that is still in flight off the engine, and free what it held. -/
def TensorEngine.pop (t : TensorEngine) (o : TensorOp) : TensorEngine :=
  { t with queue := t.queue.filter fun q => q.id != o.id }.reap

/-- The opcode of a queued operation (06 Table 6.15). -/
def TensorOpKind.opcode : TensorOpKind → Nat
  | .mma _ _ _ _ _ => 0x81
  | .store _ _ _ _ _ _ _ _ => 0x82
  | .ldp _ _ _ => 0x83
  | .comb _ _ _ => 0x84

/-- An operation has reached its milestone: off the queue, and its token signalled. -/
def State.tensorDone (s : State) (c : Nat) (o : TensorOp) : State :=
  ((s.modTe c fun t => t.pop o).traceNow (tensorSrc c) 0 o.ctx kTensorDone (o.kind.opcode * 256 + o.token)
    o.handle).signalToken c o.party o.token

/-- How a stop ends a queued tensor operation. -/
def Sess.stopTensor (x : Sess) (c : Nat) (o : TensorOp) : State :=
  match x.stop with
  | some (.fault code a kind) => x.st.ropeFault c o.slot o.ctx o.pc code a kind
  | some (.poison va) => x.st.countConsumed.engineFault c 0 o.ctx Code.poison va 1
  | some (.refused l) => x.st.frameFault o.ctx l
  | some (.stall cause e va n) =>
    (x.st.xltFault ⟨.tensor c, n.code, cause, o.ctx, va, e⟩).modTe c fun t => { t with
      stall := some (o.ctx, blockOf va)
      queue := t.queue.map fun q =>
        if q.id = o.id then { q with log := x.seen.reverse, written := x.written } else q }
  | none => x.st

/-- R97: the tile that completes now is sampled. -/
def State.sampled (s : State) (c ctx : Nat) : Bool :=
  (Table.get 0 (s.cluster c).te.tiles ctx + c) % 2 ^ s.rf (.fltShadowCtl ctx) .nLog2 == 0

/-- Flip bits of one element of a finished tile: an error that SECDED does not see (03 R98). -/
def Acc.corrupt (x : Acc) (e : Option (Nat × Word)) : Acc :=
  match e, x.stack with
  | some (n, w), (l, v) :: t =>
    { x with stack := (l, listSet v n ((v.getD n 0) ^^^ (w.toNat % 2 ^ (8 * x.accFmt.bytes)))) :: t }
  | _, _ => x

/-- R97, R98: a tile has reached K_END: the tile counter rises, and a sampled tile goes to the shadow unit. -/
def State.tileDone (s : State) (c : Nat) (o : TensorOp) (x : Acc) (seq : Nat) : State :=
  let t := Table.get 0 (s.cluster c).te.tiles o.ctx
  let s1 := s.modTe c fun e => { e with tiles := Table.set 0 e.tiles o.ctx ((t + 1) % 2 ^ 32) }
  if s.sampled c o.ctx then
    let g := x.origin.getD (0, 0)
    let job : ShadowJob := ⟨o.ctx, x.accFmt, x.tag.kStart, x.tag.kEnd, g.1, g.2, seq, t, x.value, x.wide⟩
    (s1.modTe c fun e => { e with shadow := some job }).countCl c 15 o.ctx 1
  else s1

/-- The array time of a piece (R128). -/
def arrayTime (x : Acc) (kcount : Nat) : Nat :=
  match tensorPair x.fmtA x.fmtB with
  | some (_, _, tg) => (kcount + 31) / 32 * tg
  | none => 0

/-- The ac that a piece takes (04 Table 4.8): MERGE_WAIT counts what the array waits for the merge unit, and
SHADOW_WAIT what it has waited for the shadow unit, each in units of 16 ac. -/
def State.arrayWaits (s : State) (c : Nat) (x : Acc) (kcount : Nat) (ends : Bool) : State × Nat :=
  let te := (s.cluster c).te
  let tg := match tensorPair x.fmtA x.fmtB with
    | some (_, _, n) => n
    | none => 0
  let m := (MergeClock.mk (max te.arrayAt s.acCount) te.mergeAt x.freeAt 0 x.groups (x.stack.map Prod.fst)).piece tg
    kcount ends
  let w := te.mergeRest + m.waited
  let v := match te.shadowAt with
    | some t => te.shadowRest + (s.acCount - t)
    | none => te.shadowRest
  let s1 := (s.satRf (.clTeStat c) .mergeWait (w / 16)).satRf (.clTeStat c) .shadowWait (v / 16)
  (s1.modTe c fun t => { t with arrayAt := m.clock, mergeAt := m.mergeAt, mergeRest := w % 16
                                shadowAt := none, shadowRest := v % 16 }, m.freeAt)

/-- The operation does its work. -/
def State.tensorRun (s : State) (c : Nat) (o : TensorOp) (p : Party) (cx : Ctx) (host : HostAnswer)
    (silent : Option (Nat × Word)) : State :=
  let te := (s.cluster c).te
  let x := s.session c o.ctx o.party host o.log o.written
  let u := s.place o.ctx c cx
  match o.kind with
  | .mma n a b kc seq =>
    match Table.find te.accs n with
    | none => s
    | some acc =>
      let ends := decide (acc.doneTo + kc = acc.tag.kEnd) && decide (0 < kc)
      if 256 < arrayTime acc kc ∧ !te.permit then
        s.modTe c fun t => { t with asked := some (t.asked.getD s.acCount) }
      else if ends && s.sampled c o.ctx && te.shadow.isSome then
        s.modTe c fun t => { t with shadowAt := some (t.shadowAt.getD s.acCount) }
      else
        match pieceFault p.ls p.lsBytes a b acc.accFmt.cols kc with
        | some code => s.ropeFault c o.slot o.ctx o.pc code 0 0
        | none =>
          let w := s.arrayWaits c acc kc ends
          let acc1 := { acc.piece p.ls a b kc with freeAt := w.2 }
          let acc2 := if ends then acc1.corrupt silent else acc1
          let s1 := (w.1.modTe c fun t => { t.setAcc n acc2 with idleAc := 0 }).countCl c 7 o.ctx (arrayTime acc kc)
          let s2 := if ends then s1.tileDone c o acc2 seq else s1
          s2.tensorDone c o
  | .comb into lo hi =>
    match Table.find te.accs into, Table.find te.accs lo, Table.find te.accs hi with
    | some a, some p, some q =>
      let v := List.zipWith (accAdd a.accFmt) p.value q.value
      (s.modTe c fun t => t.setAcc into { a with stack := [(0, v)], doneTo := a.tag.kEnd, slots := 1 }).tensorDone c o
    | _, _, _ => s
  | .store n mode addc sr tr d rc step =>
    match Table.find te.accs n with
    | none => s
    | some acc =>
      let y := x.storeTile acc cx u mode addc sr tr d rc step
      let z := if y.stop.isSome then y else y.commit
      if z.stop.isSome then z.stopTensor c o else z.st.tensorDone c o
  | .ldp n d tagVa =>
    match Table.find te.accs n with
    | none => s
    | some acc =>
      let y := x.loadTile acc u d tagVa
      if y.1.stop.isSome then y.1.stopTensor c o
      else (y.1.st.modTe c fun t => t.setAcc n y.2).tensorDone c o

/-- TENSOR_MILESTONE (R114, R120): a load, or the oldest queued operation, runs to its milestone. It waits for a permit, for
the shadow unit (03 R103) and for a translation fault. -/
def execTensorMilestone (c : Nat) (host : HostAnswer) (ecc : Ecc) (silent : Option (Nat × Word)) (s : State) :
    Host.Outcome State Fault Refusal :=
  if !s.ready || s.clusterHalted c then .next s
  else
    let te := (s.cluster c).te
    match te.first with
    | none => .next s
    | some o =>
      match Table.find (s.cluster c).parties o.party, Table.find s.ctxs o.ctx with
      | some p, some cx =>
        if te.stall.isSome || !s.mayTrace (tensorSrc c) o.ctx kTensorDone then .next s
        else
          let e := s.teEcc c ecc
          if e.2 then .next (e.1.tensorRun c o p cx host silent) else .next e.1
      | _, _ => .next s

/-- PERMIT_GRANT (R129): a die's pool grants the oldest request, the lowest cluster among equals, unless it has
granted 16 within the last 64 ac. -/
def execPermitGrant (die : Nat) (s : State) : Host.Outcome State Fault Refusal :=
  let recent := (Table.get [] s.grants die).filter fun t => decide (s.acCount < t + 64)
  let asks := s.clusters.filterMap fun e =>
    if e.1 / 176 = die then e.2.te.asked.map fun t => (t, e.1) else none
  let best := asks.foldl (fun (b : Option (Nat × Nat)) a =>
    match b with
    | none => some a
    | some m => if a.1 < m.1 then some a else some m) none
  match best with
  | none => .next s
  | some (asked, c) =>
    if !s.ready || decide (16 ≤ recent.length) then .next s
    else
      let s1 := s.modTe c fun t => { t with permit := true, asked := none, idleAc := 0 }
      let s2 : State := { s1 with grants := Table.set [] s1.grants die (recent ++ [s.acCount]) }
      let wait := s.acCount - asked
      let s3 := if wait = 0 then s2 else s2.satRf (.pwrPoolStat die) .waits 1
      .next ((s3.wrapRf (.pwrPoolStat die) .grants 1).setRf (.pwrPoolStat die) .maxWait
        (max (s3.rf (.pwrPoolStat die) .maxWait) (min wait 704)))

/-- PERMIT_LOSS (R128): after 16 ac of array idleness. -/
def execPermitLoss (c : Nat) (s : State) : Host.Outcome State Fault Refusal :=
  let te := (s.cluster c).te
  if te.permit && decide (16 ≤ te.idleAc) then .next (s.modTe c fun t => { t with permit := false, idleAc := 0 })
  else .next s

end Sys2Proof.Machine
end

