-- ==== Sys2Proof/Machine/Shadow.lean ====
section
/-! DEFINITION. The shadow unit's check of a sampled tile and its record (03_scaling_ledger_shadow_checks.md R98 to
R105, Tables 3.7 and 3.9). -/

namespace Sys2Proof.Machine

/-- What an element's check gives: its class (0 agree, 1 soft, 2 hard), the difference d and the sum S of
magnitudes, and whether the values disagree in being finite. -/
structure ElemCheck where
  cls : Nat
  d : Fp
  s : Fp
  nonfin : Bool
  exp : Nat

/-- Floor of log2 of d / S, for non-zero finite values. -/
def ratioLog (d s : Fp) : Int :=
  let k := d.floorLog2 - s.floorLog2
  if d.cmp (s.scale k) < 0 then k - 1 else k

/-- R99, Table 3.7 and DEV_EXP of Table 3.9: the check of one element; `f` is the floor F. -/
def checkElem (a : AccFmt) (tol hard : Nat) (f : Fp) (y : Nat) (w : Nat × Nat) : ElemCheck :=
  let v := a.toFp y
  let yw := match a with
    | .int32 => Fp.ofInt (signed 32 w.1)
    | _ => a.wideFmt.decode w.1
  let s := a.wideFmt.decode w.2
  if v.nonFinite || yw.nonFinite then
    let same := v == yw
    ⟨if same then 0 else 2, .fin false 0 0, s, !same, 0x7FFF⟩
  else
    let d := (v.add yw.neg).abs
    let cls :=
      match a with
      | .int32 => if d.isZero then 0 else 2
      | _ =>
        if d.cmp ((s.scale (-(tol : Int))).add f) ≤ 0 then 0
        else if d.cmp ((s.scale (-(hard : Int))).add f) ≤ 0 then 1 else 2
    let e := if d.isZero then 0x8000 else if s.isZero || s.nonFinite then 0x7FFF
      else (ratioLog d s % ((2 ^ 16 : Nat) : Int)).toNat
    ⟨cls, d, s, false, e⟩

/-- `a` lies above `b` in d / S: a disagreement in being finite, or d over a zero S, above every ratio. -/
def ElemCheck.above (a b : ElemCheck) : Bool :=
  let top := fun (x : ElemCheck) => x.nonfin || (!x.d.isZero && x.s.isZero)
  if top b then false
  else if top a then true
  else if a.d.isZero then false
  else b.d.isZero || decide (0 < (a.d.mul b.s).cmp (b.d.mul a.s))

/-- The worst class of a tile, and its worst element's index and check (R104). DESIGN CHOICE (log 133): of
several elements with the largest d / S, or several that lie above every ratio, the first in row order is the
worst. -/
def checkTile (j : ShadowJob) (tol hard : Nat) : Nat × Nat × ElemCheck :=
  let u : Int := match j.accFmt with
    | .fp64 => -1074
    | _ => -149
  let f : Fp := .fin false ((j.kEnd - j.kStart + 31) / 32) u
  let cs := (j.y.zip j.wide).map fun p => checkElem j.accFmt tol hard f p.1 p.2
  let first : ElemCheck := cs.headD ⟨0, .fin false 0 0, .fin false 0 0, false, 0x8000⟩
  (cs.zip (List.range cs.length)).foldl (fun (r : Nat × Nat × ElemCheck) e =>
    let cls := max r.1 e.1.cls
    if e.1.above r.2.2 then (cls, e.2, e.1) else (cls, r.2.1, r.2.2)) (0, 0, first)

/-- The 512 bits of a shadow record (Table 3.9). -/
def State.shadowBits (s : State) (c : Nat) (j : ShadowJob) (r : Nat × Nat × ElemCheck) : Nat :=
  let n := r.2.1
  let w := (j.wide.getD n (0, 0)).1
  let yw := match j.accFmt with
    | .int32 => Fp.ofInt (signed 32 w)
    | _ => j.accFmt.wideFmt.decode w
  s.time % 2 ^ 64 * 2 ^ 448 + fp64.round yw * 2 ^ 384 + j.y.getD n 0 * 2 ^ 320 + r.2.2.exp * 2 ^ 304 +
    n % j.accFmt.cols * 2 ^ 288 + n / j.accFmt.cols * 2 ^ 272 + j.kEnd * 2 ^ 237 + j.kStart * 2 ^ 202 +
    j.accFmt.code * 2 ^ 200 + j.tileN * 2 ^ 160 + j.tileM * 2 ^ 128 + j.opSeq % 2 ^ 32 * 2 ^ 96 +
    j.tileSeq % 2 ^ 32 * 2 ^ 64 + j.ctx * 2 ^ 58 + bval (r.1 == 2) * 2 ^ 57 + bval r.2.2.nonfin * 2 ^ 56 + c * 2 ^ 46 +
    s.physOf c * 2 ^ 38 + c / 176 * 2 ^ 36

/-- SHADOW_CHECK (R98 to R101): the tile in the shadow unit is classified. A soft or hard tile is counted and
recorded; a hard tile is a hardware fault of the cluster. -/
def execShadowCheck (c : Nat) (s : State) : Host.Outcome State Fault Refusal :=
  if !s.ready || s.clusterHalted c then .next s
  else
    match (s.cluster c).te.shadow with
    | none => .next s
    | some j =>
      let s1 := s.modTe c fun t => { t with shadow := none }
      match Table.find s.ctxs j.ctx with
      | none => .next s1
      | some cx =>
        let tol := match j.accFmt with
          | .fp64 => cx.tolExp64
          | _ => cx.tolExp32
        let r := checkTile j tol cx.hardExp
        if r.1 = 0 then .next s1
        else
          let s2 := s1.satRf (.fltShadowCnt j.ctx) (if r.1 = 1 then .soft else .hard) 1
          let s3 := (s2.ringPut .fltShadowRing .fltShadowPtr (leBytes 64 (s2.shadowBits c j r))).1
          .next (if r.1 = 1 then s3 else s3.clusterFail c Code.shadowHard [j.ctx])

end Sys2Proof.Machine
end

