-- ==== Sys2Proof/Machine/Commands.lean ====
section
/-! DEFINITION. The commands of Table 13.3 but HINT_HEAVY, and the start of collectives and musters
(13_command_queues.md R410 to R420; 03_scaling_ledger_shadow_checks.md R92; 16_collectives_muster.md). -/

namespace Sys2Proof.Machine

/-! ### NOP, WINDOW_FENCE, LAUNCH, bells -/

def execNopCmd (n : Nat) (s : State) : Host.Outcome State Fault Refusal :=
  s.runCmd n 0x01 anyCmd false [] anyWords fun s c _ => s.endCmd n c.index stOk 0 0

/-- R410: the bytes settled in a window have reached a count. -/
def State.windowReached (s : State) (w c : Nat) : Bool :=
  decide (((s.reg (.hqWinArrived w)).toNat + 2 ^ 64 - c) % 2 ^ 64 < 2 ^ 63)

/-- R385: a Window Fence on a window has completed: its bytes may be written again. -/
def State.fenceDone (s : State) (w : Nat) : State :=
  { s with pcie := { s.pcie with written := s.pcie.written.filter fun e => e.1 / 2 ^ 29 != w } }

/-- Fences that wait on window `w` and whose count is reached complete. -/
def State.windowWake (s : State) (w : Nat) : State :=
  s.queues.foldl (fun s e => e.2.cmds.foldl (fun s c =>
    if c.state = .waiting waitWindow ∧ c.word 1 = w ∧ s.windowReached w (c.word 2) then
      (s.fenceDone w).endCmd e.1 c.index stOk (c.word 2) 0
    else s) s) s

def execWindowFence (n : Nat) (s : State) : Host.Outcome State Fault Refusal :=
  s.runCmd n 0x02 anyCmd false [3, allBits] anyWords fun s c _ =>
    if s.windowReached (c.word 1) (c.word 2) then (s.fenceDone (c.word 1)).endCmd n c.index stOk (c.word 2) 0
    else s.setCmd n c.index (.waiting waitWindow)

/-- The launch parameters of a LAUNCH record. -/
def Cmd.launchParams (c : Cmd) (ctx : Nat) : LaunchParams :=
  { ctx := ctx, code := BitVec.ofNat 64 (c.word 1), arg := BitVec.ofNat 64 (c.word 2), parties := bits (c.word 3) 0 32
    first := bits (c.word 3) 32 10, clusters := bits (c.word 3) 48 10, ropes := bits (c.word 4) 0 6
    vregs := bits (c.word 4) 8 8, split := bits (c.word 4) 16 2, lsKib := bits (c.word 4) 20 12
    slots := bits (c.word 4) 32 6, handles := bits (c.word 4) 40 5 }

/-- R413: the parties take their places, in ascending order, on cluster FIRST + (p mod CLUSTERS). -/
def State.placeParties (s : State) (id : Nat) (p : LaunchParams) : State :=
  (List.range p.clustersUsed).foldl (fun s j =>
    let c := p.first + j
    let mine := (List.range (p.onCluster c)).map fun i => (id, j + i * p.clusters)
    s.setCluster c { s.cluster c with waiting := (s.cluster c).waiting ++ mine }) s

def execLaunch (n : Nat) (s : State) : Host.Outcome State Fault Refusal :=
  s.runCmd n 0x03 anyCmd false [allBits, allBits, span 0 42 + span 48 10,
      span 0 6 + span 8 8 + span 16 2 + span 20 12 + span 32 6 + span 40 5]
      (fun c => if bits (c.word 3) 0 32 = 0 then some 3 else none) fun s c ctx =>
    let p := c.launchParams ctx
    if p.clusters = 0 ∨ 704 < p.first + p.clusters ∨ !p.shapeOk then s.endCmd n c.index stPartyShape 0 0
    else
      let s1 := s.setCmd n c.index .running
      match (List.range p.clustersUsed).find? fun j => s.clusterHalted (p.first + j) with
      | some j => s1.ctxFail ctx Code.clusterHalted { cmdInfo n with logical := p.first + j } none
      | none =>
        let id := s1.nextLaunch
        let s2 : State := { s1 with launches := Table.insert s1.launches id ⟨p, n, c.index, [], 0⟩, nextLaunch := id + 1 }
        s2.placeParties id p

/-- R414: a queue of context 0 may use every bell. -/
def State.cmdBellOk (s : State) (ctx b : Nat) : Bool := ctx == 0 || s.bellOk ctx b

/-- R243, R414: a command's operation on a bell is refused. -/
def State.cmdBellRefuse (s : State) (n idx b : Nat) : State := (s.lastBell b).endCmd n idx stBellOwner 0 b

/-- The BELL_WAIT commands of a queue that hold a registered wait. -/
def State.bellWaits (s : State) (n : Nat) : Nat :=
  ((s.queue n).cmds.filter fun c => c.state == .waiting waitBell).length

/-- BELL_WAIT (R414); with the queue's 16 registered waits in use it waits at its start (07 R250). -/
def execBellWaitCmd (n : Nat) (s : State) : Host.Outcome State Fault Refusal :=
  s.runCmd n 0x04 (fun _ => decide (s.bellWaits n < 16)) false [span 0 14, allBits] anyWords fun s c ctx =>
    let b := c.word 1
    if !s.cmdBellOk ctx b then s.cmdBellRefuse n c.index b
    else
      let s1 := s.countPkg 12 0 ctx 1
      if c.word 2 ≤ (s.bell b).toNat then s1.endCmd n c.index stOk (c.word 2) 0
      else s1.setCmd n c.index (.waiting waitBell)

def execBellSignal (n : Nat) (s : State) : Host.Outcome State Fault Refusal :=
  s.runCmd n 0x05 anyCmd false [span 0 14, allBits] anyWords fun s c ctx =>
    let b := c.word 1
    if !s.cmdBellOk ctx b then s.cmdBellRefuse n c.index b
    else (s.bellAdd b (BitVec.ofNat 64 (c.word 2)) ctx).endCmd n c.index stOk 0 0

/-! ### PUBLISH and TABLE_LOAD (R416, R418) -/

/-- Two spans share a byte. -/
def overlap (a n b m : Nat) : Bool := decide (a < b + m) && decide (b < a + n)

/-- The first operand word of a PUBLISH that is out of range; an overlap is put at W2. -/
def publishBad (src dst len : Nat) : Option Nat :=
  if src % 32 ≠ 0 ∨ apertureBase ≤ src then some 1
  else if dst % 32 ≠ 0 ∨ 2 ^ 56 ≤ dst then some 2
  else if len % 32 ≠ 0 ∨ len < 32 ∨ 2 ^ 32 < len then some 3
  else if apertureBase < src + len then some 1
  else if 2 ^ 56 < dst + len ∨ (dst < apertureBase ∧ apertureBase < dst + len) then some 2
  else if overlap src len dst len then some 2
  else none

/-- PUBLISH: the bytes before a poisoned sector are written, no later ones. The bytes an access of the aperture
writes are posted. -/
def execPublish (n : Nat) (_host : HostAnswer) (s : State) : Host.Outcome State Fault Refusal :=
  s.runCmd n 0x07 anyCmd false [allBits, allBits, allBits] (fun c => publishBad (c.word 1) (c.word 2) (c.word 3)) fun s c ctx =>
    let src := c.word 1
    let dst := c.word 2
    let len := c.word 3
    let put := fun (s : State) (bs : List Byte) (done : State → State) =>
      match s.unitWrite ctx dst bs with
      | (s1, .ok) => done s1
      | (s1, x) => s1.cmdStop n ctx c needWrite x
    match s.unitRead ctx src len needReadDev with
    | (s1, .ok, bs) => put s1 bs fun s => s.endCmd n c.index stOk len 0
    | (s1, .poison va, _) =>
      let r := s1.unitRead ctx src (va - src) needReadDev
      put r.1 r.2.2 fun s => s.cmdStop n ctx c needReadDev (.poison va)
    | (s1, x, _) => s1.cmdStop n ctx c needReadDev x

/-- The first operand word of a TABLE_LOAD that is out of range. -/
def tableLoadBad (src dst len : Nat) : Option Nat :=
  if src % 32 ≠ 0 ∨ src < apertureBase ∨ 2 ^ 56 ≤ src then some 1
  else if dst % 32 ≠ 0 then some 2
  else if len % 32 ≠ 0 ∨ len < 32 ∨ 2 ^ 21 < len ∨ 0xF000000000 < dst + len then some 3
  else if 2 ^ 56 < src + len then some 1
  else none

/-- Write bytes at a device physical address, in context 0. -/
def State.physWrite (s : State) (pa : Nat) (bs : List Byte) : State :=
  (splitLines (bs.length / 128 + 2) pa bs).foldl (fun s p => (s.homeWrite 0 p.1 p.2.1 p.2.2).1) s

/-- The bytes the host's memory answers. -/
def hostBytes (h : HostAnswer) (a n : Nat) : List Byte :=
  (List.range n).map fun i => ((h.cells.find? fun c => c.1 == a + i).map Prod.snd).getD 0

/-- TABLE_LOAD: control reads of the aperture in context 0, written at physical addresses. -/
def execTableLoad (n : Nat) (host : HostAnswer) (s : State) : Host.Outcome State Fault Refusal :=
  s.runCmd n 0x0A anyCmd true [allBits, allBits, allBits] (fun c => tableLoadBad (c.word 1) (c.word 2) (c.word 3)) fun s c ctx =>
    let src := c.word 1
    let dst := c.word 2
    let len := c.word 3
    match s.translate .square ctx src needRead with
    | (s1, .fault cause e) => s1.cmdStop n ctx c needRead (.fault cause e src)
    | (s1, _) =>
      let a := src - apertureBase
      let s2 := s1.hostRead a len true
      let bad := fun k => !s.rbit .hqLinkStatus .up || host.failed.any fun x => x / 32 == a / 32 + k
      match (List.range (len / 32)).find? bad with
      | none => (s2.physWrite dst (hostBytes host a len)).endCmd n c.index stOk len 0
      | some k =>
        ((s2.physWrite dst (hostBytes host a (32 * k))).apertureFail (cmdInfo n) 0 (a + 32 * k)).cmdStop n ctx c needRead
          (.poison (src + 32 * k))

/-! ### LEDGER (R92, R417) -/

/-- A ledger header's word of `n` bytes. -/
def hdrNat (h : List Byte) (off n : Nat) : Nat := leNat ((h.drop off).take n)

/-- The ledger code of an element type (03 Table 3.4) as a type code of 08 Table 8.2. -/
def elemType (elem : Nat) : Nat := elem + 5

/-- The counts of a close. -/
structure CloseCounts where
  ovf : Nat
  nan : Nat
  raised : Nat
  lowered : Nat
  deriving DecidableEq, Repr

/-- R92: the close of one entry; `adapt` says that scales may change. Answers the entry, and whether its scale was
raised and lowered. What a scale of 0 becomes when it is lowered the spec does not say: it is a free value of the
entry and its recipe (log 43). -/
def closeEntry (r : Recipe) (emax : Nat) (adapt : Bool) (x : Nat) : Nat × Bool × Bool :=
  let ovf := bit x 31
  let hold := bits x 24 5
  let raises := bits x 8 8
  let scale := bits x 0 8
  let t : Int := (bits x 16 8 : Int) - emax + r.margin
  let out := fun (hold raises scale : Nat) => hold * 2 ^ 24 + raises * 2 ^ 8 + scale
  if !adapt || !bit x 29 then (out hold raises scale, false, false)
  else if ovf then
    if scale < 254 then (out r.hold (min (raises + 1) 255) (scale + 1), true, false)
    else (out r.hold raises scale, false, false)
  else if (scale : Int) < t then (out r.hold (min (raises + 1) 255) (min t 254).toNat, true, false)
  else if 0 < hold then (out (hold - 1) raises scale, false, false)
  else if t < (scale : Int) then
    (out hold raises (if scale = 0 then (Config.loweredScale emax r.margin x).toNat else scale - 1), false, true)
  else (out hold raises scale, false, false)

/-- R92: the close of a list of entries, and its counts. -/
def closeEntries (r : Recipe) (emax : Nat) (adapt : Bool) : List Nat → List Nat × CloseCounts
  | [] => ([], ⟨0, 0, 0, 0⟩)
  | x :: t =>
    let y := closeEntry r emax adapt x
    let z := closeEntries r emax adapt t
    (y.1 :: z.1, ⟨z.2.ovf + bval (bit x 31), z.2.nan + bval (bit x 30), z.2.raised + bval y.2.1, z.2.lowered + bval y.2.2⟩)

/-- R92: the header after a close. -/
def closeHeader (h : List Byte) (k : CloseCounts) : List Byte :=
  leBytes 4 (hdrNat h 0 4 + 1) ++ (h.drop 4).take 12 ++ leBytes 16 0 ++ (h.drop 0x10).take 16 ++ leBytes 4 k.ovf ++
    leBytes 4 k.nan ++ leBytes 4 k.raised ++ leBytes 4 k.lowered ++ h.drop 0x40

/-- The 4-byte entries of a byte list. -/
def entriesOf (bs : List Byte) : List Nat := unpackElems 4 (bs.length / 4) bs

/-- W1 names a ledger or a context record: its VA is not 128-byte aligned, or lies in the aperture. -/
def ledgerVaBad (c : Cmd) : Option Nat := if c.word 1 % 128 ≠ 0 ∨ apertureBase ≤ c.word 1 then some 1 else none

/-- The first word of an INIT that is out of range (R417). -/
def initBad (c : Cmd) : Option Nat :=
  firstWord (ledgerVaBad c) (if 5 < bits (c.word 2) 16 3 ∨ bits (c.word 2) 24 8 = 0xFF then some 2 else none)

/-- The first word of a CLOSE or DISCARD that is out of range (R417). -/
def closeBad (c : Cmd) : Option Nat := firstWord (ledgerVaBad c) (if c.word 2 / 4 ≠ 0 then some 2 else none)

/-- A ledger operation of a record that W2 bits 1:0 select. -/
def ledgerSel (op : Nat) (c : Cmd) : Bool := c.word 2 % 4 == op

/-- R92: the close of the ledger at W1, by CLOSE or DISCARD. -/
def State.ledgerClose (s : State) (n ctx : Nat) (c : Cmd) (discard : Bool) : State :=
  let va := c.word 1
  match s.unitRead ctx va 128 needReadDev with
  | (s1, .ok, h) =>
    let recipe := hdrNat h 8 1
    let elem := hdrNat h 9 1
    if 15 < recipe ∨ 5 < elem then s1.endCmd n c.index stBadCmd 0 1
    else
      match s1.unitRead ctx (va + 128) (4 * hdrNat h 4 4) needReadDev with
      | (s2, .ok, es) =>
        let r := ((Table.find s.ctxs ctx).map fun x => x.recipeOf recipe).getD (Recipe.ofNat 0)
        let adapt := !discard && r.mode == rLedger && elem != 0
        let z := closeEntries r (emaxOf (elemType elem)) adapt (entriesOf es)
        match s2.unitWrite ctx va (closeHeader h z.2 ++ z.1.flatMap (leBytes 4)) needWriteDev with
        | (s3, .ok) => s3.endCmd n c.index stOk 0 0
        | (s3, x) => s3.cmdStop n ctx c needWriteDev x
      | (s2, x, _) => s2.cmdStop n ctx c needReadDev x
  | (s1, x, _) => s1.cmdStop n ctx c needReadDev x

/-- INIT: the header with STEP 0 and every entry with the initial scale. -/
def execInit (n : Nat) (s : State) : Host.Outcome State Fault Refusal :=
  s.runCmd n 0x08 (ledgerSel 0) false [allBits, span 0 2 + span 8 4 + span 16 3 + span 24 40] initBad fun s c ctx =>
    let va := c.word 1
    let entries := bits (c.word 2) 32 32
    let elem := bits (c.word 2) 16 3
    let scale := bits (c.word 2) 24 8
    let h := leBytes 4 0 ++ leBytes 4 entries ++ leBytes 1 (bits (c.word 2) 8 4) ++ leBytes 1 elem ++ leBytes 118 0
    match s.unitWrite ctx va (h ++ (List.replicate entries (leBytes 4 scale)).flatten) needWriteDev with
    | (s1, .ok) => s1.endCmd n c.index stOk 0 0
    | (s1, x) => s1.cmdStop n ctx c needWriteDev x

def execClose (n : Nat) (s : State) : Host.Outcome State Fault Refusal :=
  s.runCmd n 0x08 (ledgerSel 1) false [allBits, allBits] closeBad fun s c ctx => s.ledgerClose n ctx c false

def execDiscard (n : Nat) (s : State) : Host.Outcome State Fault Refusal :=
  s.runCmd n 0x08 (ledgerSel 2) false [allBits, allBits] closeBad fun s c ctx => s.ledgerClose n ctx c true

/-! ### XLT_INV (R418) -/

def execXltInv (n : Nat) (s : State) : Host.Outcome State Fault Refusal :=
  s.runCmd n 0x09 anyCmd true [span 0 6 + span 8 1, span 16 39, span 16 40]
      (fun c => if bits (c.word 1) 0 6 = 63 then some 1 else none) fun s c _ =>
    let ctx := bits (c.word 1) 0 6
    if s.invBusy then s.setCmd n c.index (.waiting waitInv)
    else (s.setCmd n c.index .running).startInv ctx (bit (c.word 1) 8) (c.word 2) (c.word 3) (some (n, c.index))

/-! ### Contexts (R419, R420, R595) -/

/-- Field of a context record of Table 13.17. -/
def recNat (r : List Byte) (off n : Nat) : Nat := leNat ((r.drop off).take n)

/-- The 32-bit words of a context record. -/
def recWords (r : List Byte) (off n : Nat) : List Nat := (List.range n).map fun i => recNat r (off + 4 * i) 4

/-- A recipe entry of Table 3.1 that a context record may hold (R419). -/
def recipeEntryOk (x : Nat) : Bool :=
  bits x 26 3 == 0 && bits x 21 3 == 0 && bits x 8 8 == 0 && !(bits x 30 2 == 1 && bits x 0 8 == 0xFF)

/-- R419: a context record but its CTX; `nodes` is the node count of R257. -/
def ctxRecordOk (r : List Byte) (nodes : Nat) : Bool :=
  let t32 := recNat r 2 1
  let t64 := recNat r 3 1
  let hard := recNat r 4 1
  let axes := recWords r 0x10 8
  let prod := fun (l : List Nat) => l.foldl (· * ·) 1
  recNat r 1 1 / 2 == 0 && recNat r 6 2 == 0 && recNat r 0x70 16 == 0 &&
    decide (8 ≤ hard) && decide (hard ≤ t32) && decide (t32 ≤ 60) && decide (hard ≤ t64) && decide (t64 ≤ 60) &&
    decide (4 ≤ recNat r 5 1) && decide (recNat r 5 1 ≤ 16) &&
    axes.all (fun e => decide (1 ≤ e) && decide (e ≤ 65536)) &&
    prod (axes.take 4) == nodes && 704 % prod (axes.drop 4) == 0 && (recWords r 0x30 16).all recipeEntryOk

/-- The context that a record creates. -/
def ctxOf (r : List Byte) (strict : Bool) : Ctx :=
  ⟨strict, recNat r 2 1, recNat r 3 1, recNat r 4 1, recNat r 8 8, recWords r 0x10 8, recWords r 0x30 16⟩

/-- R419: context `n` comes to life from a checked record. -/
def State.createCtx (s : State) (n : Nat) (r : List Byte) (strict : Bool) : State :=
  let s1 := ((s.setReg (.fltCtxState n) 0).setReg (.fltCtxAddr n) 0).setReg (.fltShadowCnt n) 0
  let s2 := s1.setRf (.fltShadowCtl n) .nLog2 (recNat r 5 1)
  let s3 := s2.mapClusters fun _ k =>
    { k with te := { k.te with tiles := Table.erase k.te.tiles n, ops := Table.erase k.te.ops n } }
  let pod := { s3.pod with
    musters := Table.erase s3.pod.musters n
    cseq := s3.pod.cseq.filter fun e => e.1 / 4 != n
    collQueue := s3.pod.collQueue.filter fun e => e.1 / 4 != n }
  { s3 with pod := pod, ctxs := Table.insert s3.ctxs n (ctxOf r strict) }

/-- The node count of a context's mesh (R257). -/
def State.nodesOf (s : State) (ctx : Nat) : Nat := if s.bound ctx then (s.rankOf ctx).2 else 1

def execCtxCreate (n : Nat) (_host : HostAnswer) (s : State) : Host.Outcome State Fault Refusal :=
  s.runCmd n 0x0B anyCmd true [allBits] ledgerVaBad fun s c ctx =>
    match s.unitRead ctx (c.word 1) 128 needReadDev with
    | (s1, .ok, r) =>
      let x := recNat r 0 1
      if x = 0 ∨ 63 ≤ x ∨ (Table.find s.ctxs x).isSome ∨ !ctxRecordOk r (s.nodesOf x) then s1.endCmd n c.index stBadCmd 0 1
      else (s1.createCtx x r (bit (recNat r 1 1) 0)).endCmd n c.index stOk x 0
    | (s1, x, _) => s1.cmdStop n ctx c needReadDev x

/-- CTX_DESTROY (R420): the context's work ends and its queues are disabled; the command completes with the last of
them. -/
def execCtxDestroy (n : Nat) (s : State) : Host.Outcome State Fault Refusal :=
  s.runCmd n 0x0C anyCmd true [span 0 6] anyWords fun s c _ =>
    let x := bits (c.word 1) 0 6
    if x = 0 ∨ x = 63 ∨ (Table.find s.ctxs x).isNone then s.endCmd n c.index stBadCmd 0 1
    else
      let s0 := s.setCmd n c.index .running
      let s1 := (s0.clusters.foldl (fun s e =>
        if e.2.parties.any fun p => p.2.par.ctx == x then s.releaseAt e.1 x 3 else s) s0).endCtxWork x
      let s2 := s1.mapClusters fun _ k => { k with te := { k.te with shadow := match k.te.shadow with
        | some j => if j.ctx = x then none else some j
        | none => none } }
      let s3 := (List.range 256).foldl (fun s q =>
        if s.sqState q ≠ qDisabled ∧ s.queueCtx q = x then s.sqDisable q true else s) s2
      s3.destroyDone

/-! ### Collectives and MUSTER (16 R483, R496) -/

/-- A collective command starts, or waits until its engine has finished the context's earlier one. -/
def State.runColl (s : State) (n op : Nat) : Host.Outcome State Fault Refusal :=
  s.runCmd n op anyCmd false [allBits, allBits, allBits, allBits, allBits, allBits] anyWords fun s c ctx =>
    match Table.find s.ctxs ctx with
    | some cx => (s.collStart n ctx cx c).1
    | none => s

def execAllReduce (n : Nat) (s : State) : Host.Outcome State Fault Refusal := s.runColl n opAllReduce
def execReduceScatter (n : Nat) (s : State) : Host.Outcome State Fault Refusal := s.runColl n opReduceScatter
def execAllGather (n : Nat) (s : State) : Host.Outcome State Fault Refusal := s.runColl n opAllGather
def execBroadcast (n : Nat) (s : State) : Host.Outcome State Fault Refusal := s.runColl n opBroadcast
def execReduce (n : Nat) (s : State) : Host.Outcome State Fault Refusal := s.runColl n opReduce
def execBarrier (n : Nat) (s : State) : Host.Outcome State Fault Refusal := s.runColl n opBarrier

/-- MUSTER (R496): at its start in a context without other nodes; else it begins, with its digest read. -/
def execMuster (n : Nat) (s : State) : Host.Outcome State Fault Refusal :=
  s.runCmd n opMuster anyCmd false [allBits, span 0 32] anyWords fun s c ctx =>
    let epoch := bits (c.word 2) 0 32
    if !s.musters ctx then s.endCmd n c.index stOk epoch 0
    else if (s.muster ctx).stage ≠ .unmustered then s.endCmd n c.index stBadCmd 0 0
    else if apertureBase ≤ c.word 1 then s.endCmd n c.index stBadCmd 0 1
    else
      match s.unitRead ctx (c.word 1) 64 needReadDev with
      | (s1, .ok, d) => s1.musterStart n ctx c d
      | (s1, x, _) => s1.cmdStop n ctx c needReadDev x

end Sys2Proof.Machine
end

