-- ==== Sys2Proof/Machine/Memory.lean ====
section
/-! DEFINITION. The HBM4 memory subsystem: placement, the sector check code, reads that meet upsets, scrubbing, refresh,
temperature and link errors (11_hbm_memory.md). -/

namespace Sys2Proof.Machine

/-! ### The sector check code (R356 to R359) -/

/-- Multiplication in GF(16) by x^4 + x + 1. -/
def gfMul (a b : Nat) : Nat :=
  let step := fun (acc : Nat × Nat) (i : Nat) =>
    (if b.testBit i then acc.1 ^^^ acc.2 else acc.1,
     let d := acc.2 * 2
     if 16 ≤ d then d ^^^ 19 else d)
  ((List.range 4).foldl step (0, a)).1

/-- The inverse in GF(16): the 14th power. -/
def gfInv (a : Nat) : Nat := (List.range 13).foldl (fun x _ => gfMul x a) a

def gfDiv (a b : Nat) : Nat := gfMul a (gfInv b)

/-- ω of R357. -/
def gfOmega : Nat := 8

/-- f of R357. -/
def quadric (a b : Nat) : Nat := gfMul a a ^^^ gfMul a b ^^^ gfMul gfOmega (gfMul b b)

/-- The pair (a, b) of a symbol but 64 (R357). -/
def symbolPair (n : Nat) : Nat × Nat :=
  match n with
  | 65 => (0, 0)
  | 66 => (1, 0)
  | 67 => (0, 1)
  | n => let i := if n < 14 then n + 2 else n + 3
         (i % 16, i / 16)

/-- The column of a symbol. -/
def column (n : Nat) : List Nat :=
  if n = 64 then [0, 1, 0, 0]
  else
    let p := symbolPair n
    [1, quadric p.1 p.2, p.1, p.2]

/-- The sum over symbols of value times column; the symbols are the 4-bit digits of a number of `n` digits. -/
def symbolSum (n x : Nat) : List Nat :=
  (List.range n).foldl (fun d i =>
    let v := bits x (4 * i) 4
    if v = 0 then d else List.zipWith (fun y h => y ^^^ gfMul v h) d (column i)) [0, 0, 0, 0]

/-- R358: the check bits of a sector. -/
def encodeSector (x : Nat) : Nat :=
  match symbolSum 64 x with
  | [d0, d1, d2, d3] => (d1 ^^^ d2 ^^^ gfMul gfOmega d3) + (d0 ^^^ d2 ^^^ d3) * 16 + d2 * 256 + d3 * 4096
  | _ => 0

/-- R363: the check bits of a poisoned sector differ by this. -/
def poisonCheck : Nat := 0x1100

/-- How a read decodes (R359). -/
inductive Decoded where
  | clean
  | poisoned
  | corrected (symbol e : Nat)
  | uncorrectable
  deriving DecidableEq, Repr

/-- R359. -/
def decodeSyndrome : List Nat → Decoded
  | [s0, s1, s2, s3] =>
    if s0 = 0 ∧ s1 = 0 ∧ s2 = 0 ∧ s3 = 0 then .clean
    else if s0 = 0 ∧ s1 = 9 ∧ s2 = 1 ∧ s3 = 1 then .poisoned
    else if s0 = 0 then (if s2 = 0 ∧ s3 = 0 then .corrected 64 s1 else .uncorrectable)
    else
      let a := gfDiv s2 s0
      let b := gfDiv s3 s0
      if gfDiv s1 s0 ≠ quadric a b then .uncorrectable
      else
        match (List.range 68).find? fun n => n != 64 && symbolPair n == (a, b) with
        | some n => .corrected n s0
        | none => .uncorrectable
  | _ => .uncorrectable

/-- The 68 symbols of a stored sector: 256 data bits and 16 check bits. -/
def storedWord (x : Nat) (poisoned : Bool) : Nat := x + (encodeSector x ^^^ (if poisoned then poisonCheck else 0)) * 2 ^ 256

/-- What an error record says of a sector. -/
def memInfo (st k : Nat) : ErrInfo := { addr := 32 * k, addrKind := 2, die := st / 5, stack := st }

/-- Replace the stack's own bytes and poison of a sector. -/
def State.setHbm (s : State) (k x : Nat) (poisoned : Bool) : State :=
  let l := s.sideOf (k / 4)
  let b := BitVec.ofNat 4 (2 ^ (k % 4))
  if l.valid.getLsbD (k % 4) then
    s.setSide (k / 4) { l with hbm := mergeLine l.hbm (BitVec.ofNat 1024 (x <<< (256 * (k % 4)))) (sectorBytes b)
                               poison := if poisoned then l.poison ||| b else l.poison &&& ~~~b }
  else { s with mem := s.mem.setSector k x poisoned }

/-- R359 to R363: a read of a sector from its stack in which `flips` meets the stored bits. -/
def State.hbmRead (s : State) (k : Nat) (flips : BitVec 272) (ctx : Nat) : State :=
  let p := stackPlace s.localK (32 * k)
  let st := p.1
  let h := s.hbmCopy k
  let w := storedWord h.1 h.2 ^^^ flips.toNat
  let x := bits w 0 256
  let s1 := s.hbmBurst k
  match decodeSyndrome (symbolSum 68 w) with
  | .clean => s1.setHbm k x false
  | .poisoned => (s1.setHbm k x true).poisonRead k
  | .corrected n e =>
    let y := bits (w ^^^ e <<< (4 * n)) 0 256
    let s2 := ((s1.setHbm k y false).hbmStore k).satRf (.glbMemErr st) .ce 1
    ((s2.memLast st 0 n p.2).errRecord { memInfo st k with detail := n } Code.memCe 0 ctx).1
  | .uncorrectable =>
    let s2 := ((s1.setHbm k x true).hbmStore k).satRf (.glbMemErr st) .ue 1
    ((s2.memLast st 1 0 p.2).errRecord (memInfo st k) Code.memUe 1 ctx).1

/-- An access finds no copy of a sector in the memory-side role and reads it from its stack, where `flips` meets it;
the memory-side copy then holds it. -/
def State.sectorMeets (s : State) (k : Nat) (flips : BitVec 272) (ctx : Nat) : State :=
  ((s.sideDrop k).hbmRead k flips ctx).sideTake (k / 4) (BitVec.ofNat 4 (2 ^ (k % 4)))

/-- R366: the corrections that a stack's on-die ECC reports; they change no data. -/
def State.onDie (s : State) (line n : Nat) : State := s.satRf (.glbMemErr (s.homeOf line)) .odeCe n

/-! ### Commands -/

/-- The stack exists and its controller runs: it is trained, and no package-fatal error has stopped the package
(R368, R370; 18 Table 18.1). -/
def State.stackRuns (s : State) (st : Nat) : Bool :=
  s.board.rails && !s.fatal && decide (st < 20) && s.rbit (.glbMemStat st) .trained

/-- Lines of a stack. -/
def stackLines : Nat := 402653184

/-- Scrub passes completed on all 20 stacks. -/
def State.scrubPasses (s : State) : Nat :=
  ((List.range 20).map fun st => Table.get 0 s.hbm.scrubs st / stackLines).foldl min (Table.get 0 s.hbm.scrubs 0 / stackLines)

/-- SCRUB_READ (R367): the next line of a stack is read from the stack, whatever the caches hold; `flips` meets its
sectors. It waits for the line's transaction in progress. -/
def execScrubRead (st : Nat) (flips : List (Nat × BitVec 272)) (onDie : Nat) (s : State) :
    Host.Outcome State Fault Refusal :=
  let n := Table.get 0 s.hbm.scrubs st
  let line := stackUnplace s.localK st (128 * (n % stackLines)) / 128
  if !s.ready || !s.stackRuns st || !s.rbit .glbMemScrub .enable || (s.transOf line).isSome then .next s
  else
    let s1 := (List.range 4).foldl (fun s i => s.hbmRead (4 * line + i) (Table.get 0 flips i) 63) s
    let s2 := s1.onDie line onDie
    let s3 : State := { s2 with hbm := { s2.hbm with scrubs := Table.set 0 s2.hbm.scrubs st (n + 1) } }
    .next (s3.setRf .glbMemScrub .passes s3.scrubPasses)

/-- REFRESH (R369): a bank's next row; the bank's open row is closed. -/
def execRefresh (st bank : Nat) (s : State) : Host.Outcome State Fault Refusal :=
  let key := 3072 * st + bank
  if !s.stackRuns st || decide (3072 ≤ bank) then .next s
  else .next { s with hbm := { s.hbm with
    rows := Table.erase s.hbm.rows key
    refRow := Table.set 0 s.hbm.refRow key ((Table.get 0 s.hbm.refRow key + 1) % 16384) } }

/-- RFM (R369): a bank's count has reached the threshold that the stack reports. -/
def execRfm (st bank : Nat) (s : State) : Host.Outcome State Fault Refusal :=
  let key := 3072 * st + bank
  if !s.stackRuns st || decide (3072 ≤ bank) || decide (Table.get 0 s.hbm.acts key < Config.rfmThreshold st) then .next s
  else .next { s with hbm := { s.hbm with acts := Table.erase s.hbm.acts key } }

/-- A flag that is set above a threshold and left 3 °C below it (R370). -/
def hysteresis (was : Bool) (t threshold : Int) : Bool := decide (threshold < t) || (was && decide (threshold - 3 < t))

/-- HBM_TEMP_READ (R370). A temperature below 0 °C is stored in two's complement. -/
def execHbmTempRead (st : Nat) (celsius : Int) (s : State) : Host.Outcome State Fault Refusal :=
  if !s.stackRuns st then .next s
  else
    let ref := hysteresis (s.rbit (.glbMemStat st) .ref2x) celsius 85
    let hot := hysteresis (s.rbit (.glbMemStat st) .hot) celsius 95
    let s1 := s.setRf (.glbMemStat st) .temp (celsius % 256).toNat
    let s2 := (s1.setRf (.glbMemStat st) .ref2x (bval ref)).setRf (.glbMemStat st) .hot (bval hot)
    .next (if 105 < celsius then s2.packageFatal Code.hbmOvertemp st else s2)

/-- PARITY_RETRY (R368): a command or address parity error is retried once; a second one is fatal. -/
def execParityRetry (st sector : Nat) (again : Bool) (s : State) : Host.Outcome State Fault Refusal :=
  if !s.stackRuns st then .next s
  else
    let s1 := s.memLast st 3 0 (32 * sector % 2 ^ 36)
    .next (if again then s1.packageFatal Code.hbmLink st else s1)

end Sys2Proof.Machine
end

