-- ==== Sys2Proof/Machine/Coherence.lean ====
section
/-! DEFINITION. The commands of the coherent fabric: agents' own accesses and a core's, the home's taking of requests,
the delivery of messages, protection, and the Sweep engines (10_coherence_caches.md R320 to R349; 14 R431 to R437). -/

namespace Sys2Proof.Machine

/-! ### Room in the directory (R326) -/

/-- The entries of a line's directory set. -/
def State.dirPeers (s : State) (line : Nat) : List (Nat × DirEntry) :=
  s.coh.dir.filter fun e => s.homeOf e.1 == s.homeOf line && s.dirSet e.1 == s.dirSet line

/-- R326: the entry that the home evicts: a DS entry before others, the oldest of a kind; none whose line has a
transaction. -/
def State.dirVictim (s : State) (line : Nat) : Option (Nat × DirEntry) :=
  let oldest := fun (l : List (Nat × DirEntry)) => l.foldl (fun (b : Option (Nat × DirEntry)) e =>
    match b with
    | none => some e
    | some x => if e.2.age < x.2.age then some e else some x) none
  let idle := (s.dirPeers line).filter fun e => (s.transOf e.1).isNone
  match oldest (idle.filter fun e => e.2.st == .ds) with
  | some e => some e
  | none => oldest idle

/-- An eviction runs in the line's directory set. -/
def State.dirEvicting (s : State) (line : Nat) : Bool :=
  s.coh.trans.any fun e => e.2.kind == .evict && s.homeOf e.1 == s.homeOf line && s.dirSet e.1 == s.dirSet line

/-! ### Protection (R342 to R344) and frame ownership (09 R301, R302) -/

/-- The die of a cache: the Square, 4, for the system cache and the groups' caches. -/
def cacheDie (c : Nat) : Nat := min c 4

/-- What an error record says of a line in cache `c`: 0 to 3 a shared cache, 4 the system cache, 5 to 13 a group's. -/
def cacheInfo (c line sector : Nat) : ErrInfo := { addr := 128 * line + 32 * sector, addrKind := 2, die := cacheDie c }

/-- Count in a field of GLB_CACHE_ERRn; the groups' caches have no such register (Table 10.13). -/
def State.cacheCount (s : State) (c : Nat) (f : RF) : State := if c ≤ 4 then s.satRf (.glbCacheErr c) f 1 else s

/-- A data error in cache `c` is counted and recorded (R342). -/
def State.dataError (s : State) (c line ctx : Nat) (u : Upset) : State :=
  match u.cache with
  | .none => s
  | .corrected => ((s.cacheCount c .corrected).errRecord (cacheInfo c line u.sector) Code.cacheCe 0 ctx).1
  | .uncorrectable => ((s.cacheCount c .uncorr).errRecord (cacheInfo c line u.sector) Code.cacheUe 1 ctx).1

/-- The sector that an uncorrectable data error poisons. -/
def spoiled (u : Upset) : BitVec 4 := if u.cache = .uncorrectable then BitVec.ofNat 4 (2 ^ u.sector) else 0

/-- The upsets that meet an access of a line that agent `a` holds: a clean tag vote invalidates the way. -/
def State.cacheUpset (s : State) (a line ctx : Nat) (u : Upset) : State :=
  if u.tagDirty then s.packageFatal Code.cacheTag (cacheDie a)
  else if u.tagClean then (s.cacheCount a .tagParity).dropLine a line
  else
    let s1 := s.dataError a line ctx u
    match Table.find (s1.agent a).lines line with
    | some l => s1.setLine a line { l with poison := l.poison ||| spoiled u }
    | none => s1

/-- The memory-side way of a line is invalidated: what its cache held is lost, and the stack's own bytes stand. -/
def State.sideLose (s : State) (line : Nat) : State :=
  let l := s.sideOf line
  let m := (List.range 4).foldl (fun m i =>
    if l.valid.getLsbD i then m.setSector (4 * line + i) (lineNat l.hbm (32 * i) 32) (l.poison.getLsbD i) else m) s.mem
  { s.setSide line ⟨0, 0, 0, 0⟩ with mem := m }

/-- The upsets that meet an access at a line's home: in the memory-side copy, the directory entry and the stack. -/
def State.homeUpset (s : State) (line ctx : Nat) (u : Upset) : State :=
  let h := s.homeOf line
  let c := h / 5
  let s1 := if u.tagDirty then s.packageFatal Code.cacheTag c
    else if u.tagClean then (s.cacheCount c .tagParity).sideLose line
    else s
  let s2 := match u.dir with
    | .none => s1
    | .corrected => ((s1.satRf (.glbHomeStat h) .dirCorr 1).errRecord { die := c } Code.dirCe 0 63).1
    | .uncorrectable => s1.packageFatal Code.dirUncorr h
  let s3 := (u.flips.foldl (fun s f => s.sectorMeets (4 * line + f.1) f.2 ctx) s2).onDie line u.onDie
  let s4 := s3.dataError c line ctx u
  if u.cache = .uncorrectable then s4.sideStore line (spoiled u) (spoiled u) fun m =>
    m.setPoison line (spoiled u) 15 else s4

/-- R301, R302: the home refuses a request. -/
def State.homeRefuses (s : State) (ctx line : Nat) (u : Upset) : State × Bool :=
  if u.ownerParity then (s.satRf .xltStatus .ownParity 1, true) else (s, !s.ownerOk ctx line)

/-! ### The home: requests (R326, R333 to R337) -/

/-- The request asks for data. -/
def ReqKind.reads : ReqKind → Bool
  | .rdS => true
  | .rdX => true
  | .rdCur => true
  | _ => false

/-- A transaction with its directory room sends its snoops, or finishes at once. -/
def State.launchTrans (s : State) (line : Nat) (t : Trans) : State :=
  let ms := s.snoopsFor line t
  let t1 := { t with phase := .snoops, waiting := ms.map CMsg.snooped }
  if ms = [] then s.finishTrans line t1
  else ms.foldl (fun s m => s.cohSend m) (s.setTrans line t1)

/-- A transaction that waits for a directory entry goes on, or starts the eviction of one (R326). -/
def State.tryRoom (s : State) (line : Nat) (t : Trans) : State :=
  if !t.kind.fills || (Table.find s.coh.dir line).isSome || decide ((s.dirPeers line).length < 16) then s.launchTrans line t
  else if s.dirEvicting line then s
  else
    match s.dirVictim line with
    | none => s
    | some (v, _) => s.launchTrans v ⟨homeDest, .evict, 63, 0, 0, .snoops, [], [], 0, 0, none, false⟩

/-- The transaction of a request begins (R330); one that the home refuses ends at once (09 R301). -/
def State.beginTrans (s : State) (a line : Nat) (q : CReq) (u : Upset) : State :=
  let r := match q.kind with
    | .wbD => (s, false)
    | .wbC => (s, false)
    | _ => s.homeRefuses q.ctx line u
  if r.2 then
    let s1 := if q.kind.reads then r.1.cohSend (.data a line 0 15 false none) else r.1
    let s2 := if q.kind = .rdCur then s1 else s1.cohSend (.cmp a line none)
    s2.ctxFail q.ctx Code.frameOwner { die := cacheDie a, addr := 128 * line, addrKind := 2 } none
  else
    let t : Trans := ⟨a, q.kind, q.ctx, q.data, q.mask, .room, [], [], 0, 0, none, q.rsv⟩
    ((r.1.homeUpset line q.ctx u).setTrans line t).tryRoom line t

/-- An access that meets no upset. -/
def noUpset : Upset := ⟨false, [], 0, .none, 0, false, false, .none⟩

/-- Transactions that waited go on, and reserved requests start (R326, R337); each round takes one of them. -/
def State.settle : Nat → State → State
  | 0, s => s
  | n + 1, s =>
    match s.coh.rsv.find? fun r => (s.transOf r.1).isNone with
    | some (line, a) =>
      let s1 := s.mapCoh fun k => { k with rsv := k.rsv.erase (line, a) }
      (match s1.cohReq a line with
        | some q => (s1.beginTrans a line q noUpset).settle n
        | none => s1.settle n)
    | none =>
      match s.coh.trans.find? fun e => e.2.phase == .room &&
          (decide ((s.dirPeers e.1).length < 16) || (!s.dirEvicting e.1 && (s.dirVictim e.1).isSome)) with
      | some (line, t) => (s.tryRoom line t).settle n
      | none => s

/-- Rounds that suffice. -/
def State.settled (s : State) : State := s.settle (2 * (s.coh.rsv.length + s.coh.trans.length) + 2)

/-- A NACK of an agent's request (R336). -/
def State.sendNack (s : State) (a line : Nat) (q : CReq) : State :=
  let h := s.homeOf line
  ((s.satRf (.glbHomeStat h) .nacks 1).countPkg 3 h q.ctx 1).cohSend (.nack a line)

/-- The transactions of a home, but for its own evictions: in reserved entries, or in the others. -/
def State.entriesUsed (s : State) (h : Nat) (reserved : Bool) : Nat :=
  (s.coh.trans.filter fun e => s.homeOf e.1 == h && e.2.kind != .evict && e.2.rsv == reserved).length

/-- A request reaches its home (R336, R337): 448 entries stand free for any request, and 64 for reservations, waiting
or running. -/
def State.homeTake (s : State) (a line : Nat) (u : Upset) : State :=
  match s.cohReq a line with
  | none => s
  | some q =>
    let h := s.homeOf line
    let s1 := s.countPkg 2 h q.ctx 1
    let reserved := (s.coh.rsv.filter fun r => s.homeOf r.1 == h).length + s.entriesUsed h true
    let free := (s.transOf line).isNone && (s.coh.rsv.all fun r => r.1 != line)
    if q.rsv then
      if 64 ≤ reserved then s1.sendNack a line q
      else
        let s2 := s1.satRf (.glbHomeStat h) .rsvGrants 1
        if free then (s2.beginTrans a line q u).settled
        else s2.mapCoh fun k => { k with rsv := k.rsv ++ [(line, a)] }
    else if !free || decide (448 ≤ s.entriesUsed h false) then s1.sendNack a line q
    else (s1.beginTrans a line q u).settled

/-- A shared cache or the system cache misses a line (event CACHE_MISS of 20_observation_and_test.md Table 20.4; log 27). -/
def State.countCacheMiss (s : State) (a : Nat) (kind : ReqKind) : State :=
  if a ≤ 4 ∧ (kind = .rdS ∨ kind = .rdX) then s.countPkg 6 a 63 1 else s

/-- A request as an agent first sends it. -/
def CReq.new (kind : ReqKind) (ctx : Nat) (d : Line) (mask : BitVec 128) (use : LineUse) (way : Nat) : CReq :=
  ⟨kind, ctx, d, mask, use, way, none, 0, false, true, none, none⟩

/-- An agent that waits for a line's request or write-back issues no other for it (R341). -/
def State.lineBusy (s : State) (a line : Nat) : Bool :=
  (s.cohReq a line).isSome || (Table.find (s.agent a).wbs line).isSome

/-- An agent issues a request for a line for which it has none. -/
def State.issueReq (s : State) (a line : Nat) (q : CReq) (u : Upset) : State :=
  if s.lineBusy a line then s else ((s.countCacheMiss a q.kind).setCohReq a line q).homeTake a line u

/-! ### Agents: evictions (Table 10.5, R322, R339, R341) -/

/-- An agent that may hold a line: not the shared cache of the line's home die. -/
def State.mayCache (s : State) (a line : Nat) : Bool :=
  decide (a < 14) && !(decide (a < 4) && decide (s.homeOf line / 5 = a))

/-- An agent writes a dirty line back, keeping a clean copy or none (R341). -/
def State.writeBack (s : State) (a line : Nat) (keep : Bool) : State :=
  match Table.find (s.agent a).lines line with
  | some l =>
    if (l.st = .m ∨ l.st = .o) ∧ !s.lineBusy a line then
      let s1 := (s.dropLine a line).setWb a line ⟨l.st, l.data, l.poison, false, false, keep⟩
      (s1.setCohReq a line (.new (if keep then .wbC else .wbD) 63 0 0 (.unit false) l.way)).homeTake a line noUpset
    else s
  | none => s

/-- A silent eviction of an E or S copy. -/
def State.silentEvict (s : State) (a line : Nat) : State :=
  match Table.find (s.agent a).lines line with
  | some l => if (l.st = .e ∨ l.st = .s) ∧ (s.cohReq a line).isNone then s.dropLine a line else s
  | none => s

/-- An agent evicts a line that it holds. -/
def State.evictLine (s : State) (a line : Nat) : State := (s.silentEvict a line).writeBack a line false

/-- A way for a line that is about to be filled: a free one, or that of the line which makes room (R322); none while
requests hold every way of the set. -/
def State.takeWay (s : State) (a line : Nat) : State × Option Nat :=
  match s.freeWay a line with
  | some w => (s, some w)
  | none =>
    match s.cacheVictim a line with
    | some v => (s.evictLine a v.1, some v.2.way)
    | none => (s, none)

/-- A read or a write that misses: a way is found, and RdS or RdX is issued. -/
def State.missReq (s : State) (a line : Nat) (kind : ReqKind) (ctx : Nat) (d : Line) (mask : BitVec 128)
    (x : LineAccess) : State :=
  if s.lineBusy a line then s
  else
    match s.takeWay a line with
    | (s1, some w) => s1.issueReq a line (.new kind ctx d mask x.use w) x.upset
    | (s1, none) => s1

/-! ### A core outside device memory (14 Table 14.2) -/

/-- The first line of the register space, and of the host aperture, in the cores' map. -/
def coreBarLine : Nat := 0x7F000000000000 / 128
def coreApertureLine : Nat := 2 ^ 48

/-- R435: the poison that loads of cores have met: no context fails, and the core takes a load access fault. What the
record's UNIT holds for a core the spec does not say (log 143). -/
def State.coresMeet (s : State) : State :=
  s.cores.foldl (fun t e =>
    match e.2.met with
    | none => t
    | some addr =>
      let t1 := (t.countConsumed.errRecord
        { addr := addr, addrKind := 2, die := 4, agent := 3, unit := (Config.coreUnit e.1).toNat } Code.poison 2 0).1
      t1.setCore e.1 { t1.core e.1 with met := none, trap := some addr }) s

/-- An access of a core outside device memory: an aperture load is a read of the host that its completion answers, an
aperture store is posted, the register space is reached by register accesses only, and anything else is an access
fault (R433, 07 R237). -/
def State.coreOutside (s : State) (k line : Nat) (u : LineUse) (d : Line) (mask : BitVec 128) : State :=
  if coreApertureLine ≤ line ∧ line < 2 * coreApertureLine then
    let host := 128 * (line - coreApertureLine)
    match u with
    | .load _ off size =>
      let id := s.pcie.nextRead
      let r : State := { s with pcie := { s.pcie with
        nextRead := id + 1, apReads := s.pcie.apReads ++ [(id, ApReader.core k (host + off) (2 ^ size))] } }
      r.hostRead (host + off) (2 ^ size)
    | .store _ => s.hostWrite host (enabledBytes d mask)
    | _ => s.setCore k { s.core k with trap := some (128 * line) }
  else if coreBarLine ≤ line ∧ line < coreBarLine + 2 ^ 19 then
    match u with
    | .load _ _ _ => s
    | .store _ => s
    | _ => s.setCore k { s.core k with trap := some (128 * line) }
  else s.setCore k { s.core k with trap := some (128 * line) }

/-! ### Agents' own accesses (R321, R324, Table 10.5) -/

/-- The run of a home command: its line exists, and the package runs. -/
def atHome (line : Nat) (s : State) (f : State → State) : Host.Outcome State Fault Refusal :=
  if memLines ≤ line then .fault .noSuchAddress else if !s.ready then .next s else .next (f s)

/-- The run of an agent's own access, which may be a core's outside device memory. -/
def ownAccess (a line : Nat) (u : LineUse) (d : Line) (mask : BitVec 128) (s : State) (f : State → State) :
    Host.Outcome State Fault Refusal :=
  match u.core with
  | some k =>
    if memLines ≤ line then .next (if s.ready then s.coreOutside k line u d mask else s)
    else atHome line s fun s => if s.mayCache a line then (f s).coresMeet else s
  | none => atHome line s fun s => if s.mayCache a line then (f s).coresMeet else s

/-- An agent's own read: a hit, or RdS. -/
def agentRead (a ctx line : Nat) (x : LineAccess) (s : State) : Host.Outcome State Fault Refusal :=
  ownAccess a line x.use 0 0 s fun s =>
    match Table.find (s.agent a).lines line with
    | none => s.missReq a line .rdS ctx 0 0 x
    | some _ =>
      let s1 := s.cacheUpset a line ctx x.upset
      match Table.find (s1.agent a).lines line with
      | some l => (s1.touchWay a line l.way x.use.noalloc).readUse line l x.use
      | none => if s1.ready then s1.missReq a line .rdS ctx 0 0 { x with upset := noUpset } else s1

/-- A write of a line that its agent holds in E or M. -/
def State.hitWrite (s : State) (a line : Nat) (l : CLine) (d : Line) (mask : BitVec 128) (u : LineUse) : State :=
  (s.touchWay a line l.way u.noalloc).writeUse a line l u d mask

/-- RDX: an agent's own write of a line that it holds in no state, in E or in M. -/
def execRdx (a ctx line : Nat) (d : Line) (mask : BitVec 128) (x : LineAccess) (s : State) :
    Host.Outcome State Fault Refusal :=
  ownAccess a line x.use d mask s fun s =>
    match Table.find (s.agent a).lines line with
    | none => s.missReq a line .rdX ctx d mask x
    | some l0 =>
      if l0.st = .e ∨ l0.st = .m then
        let s1 := s.cacheUpset a line ctx x.upset
        match Table.find (s1.agent a).lines line with
        | some l => if s1.lineBusy a line then s1 else s1.hitWrite a line l d mask x.use
        | none => if s1.ready then s1.missReq a line .rdX ctx d mask { x with upset := noUpset } else s1
      else s

/-- UPG: an agent's own write of a line that it holds in S or O; a way that its tag's parity has just invalidated is a
miss (R343). -/
def execUpg (a ctx line : Nat) (d : Line) (mask : BitVec 128) (x : LineAccess) (s : State) :
    Host.Outcome State Fault Refusal :=
  ownAccess a line x.use d mask s fun s =>
    match Table.find (s.agent a).lines line with
    | some l0 =>
      if l0.st = .s ∨ l0.st = .o then
        let s1 := s.cacheUpset a line ctx x.upset
        match Table.find (s1.agent a).lines line with
        | some l => s1.issueReq a line (.new .upg ctx d mask x.use l.way) noUpset
        | none => if s1.ready then s1.missReq a line .rdX ctx d mask { x with upset := noUpset } else s1
      else s
    | none => s

/-- WBD: an agent evicts a line: a write-back from M or O, silent from E or S. -/
def execWbd (a line : Nat) (s : State) : Host.Outcome State Fault Refusal :=
  atHome line s fun s => s.evictLine a line

/-- WBC: an agent writes a line back and keeps a clean copy. -/
def execWbc (a line : Nat) (s : State) : Host.Outcome State Fault Refusal :=
  atHome line s fun s => s.writeBack a line true

/-- RDCUR, WRNC and ATOMH of any agent. -/
def execRdcur (a ctx line : Nat) (u : Upset) (s : State) : Host.Outcome State Fault Refusal :=
  atHome line s fun s => s.issueReq a line (.new .rdCur ctx 0 0 (.unit false) 0) u
def execWrnc (a ctx line : Nat) (d : Line) (mask : BitVec 128) (u : Upset) (s : State) :
    Host.Outcome State Fault Refusal :=
  atHome line s fun s => s.issueReq a line (.new .wrNC ctx d mask (.unit false) 0) u
def execAtomh (a ctx addr : Nat) (op : HomeAtomic) (u : Upset) (s : State) : Host.Outcome State Fault Refusal :=
  atHome (addr / 128) s fun s => s.issueReq a (addr / 128) (.new (.atomH addr op) ctx 0 0 (.unit false) 0) u

/-! ### Messages (R327 to R331, R336, R339 to R341) -/

/-- A command that takes the first message which a test selects; without one, or while the package does not run,
nothing happens. -/
def onMessage (s : State) (p : CMsg → Bool) (f : CMsg → State → State) : Host.Outcome State Fault Refusal :=
  match s.cohTake p with
  | some (m, s1) => .next (if s.ready then f m s1 else s)
  | none => .next s

/-- SNPSHR. -/
def execSnpshr (a line : Nat) (s : State) : Host.Outcome State Fault Refusal :=
  onMessage s (fun m => match m with
    | .snpShr x l _ => x == a && l == line
    | _ => false) fun m t =>
    match m with
    | .snpShr _ _ dest => t.takeSnpShr a line dest
    | _ => t

/-- SNPINV: data of an M or O copy leaves it dirty. -/
def execSnpinv (a line : Nat) (s : State) : Host.Outcome State Fault Refusal :=
  onMessage s (fun m => match m with
    | .snpInv x l _ => x == a && l == line
    | _ => false) fun m t =>
    match m with
    | .snpInv _ _ dest => t.takeSnpInv a line dest
    | _ => t

/-- SNPCUR: the holder sends its data to the home and keeps its state. -/
def execSnpcur (a line : Nat) (s : State) : Host.Outcome State Fault Refusal :=
  onMessage s (fun m => match m with
    | .snpCur x l => x == a && l == line
    | _ => false) fun _ t => t.takeSnpCur a line

/-- SNPRSP: Data is announced to the home where the snoop named it. -/
def execSnprsp (a line : Nat) (s : State) : Host.Outcome State Fault Refusal :=
  match s.transOf line with
  | none => .next s
  | some tr => onMessage s (fun m => match m with
      | .snpRsp x l _ _ => x == a && l == line
      | _ => false) fun m t =>
      match m with
      | .snpRsp _ _ kind sent => (t.takeSnpRsp a line kind sent tr).settled
      | _ => t

/-- CMP: a grant, or the completion of a write-back, of another request, or of a refused one. An AtomH that the home
did not apply fails its context (19 Table 19.3). -/
def execCmp (a line : Nat) (s : State) : Host.Outcome State Fault Refusal :=
  onMessage s (fun m => match m with
    | .cmp x l _ => x == a && l == line
    | _ => false) fun m t =>
    match m with
    | .cmp _ _ grant =>
      let t1 := (t.takeCmp a line grant).coresMeet
      (match t.cohReq a line with
        | some q => (match q.failed with
          | some addr => t1.countConsumed.ctxFail q.ctx Code.poison { die := cacheDie a, addr := addr, addrKind := 2 } none
          | none => t1)
        | none => t1)
    | _ => t

/-- NACK (R336): the request is no longer in flight. -/
def execNack (a line : Nat) (s : State) : Host.Outcome State Fault Refusal :=
  onMessage s (fun m => match m with
    | .nack x l => x == a && l == line
    | _ => false) fun _ t => t.takeNack a line

/-- REQUEST_RESEND (R336, R337). -/
def execRequestResend (a line : Nat) (u : Upset) (s : State) : Host.Outcome State Fault Refusal :=
  match s.cohReq a line with
  | some q =>
    if !s.ready || q.sent then .next s
    else .next ((s.setCohReq a line { q with sent := true, rsv := decide (8 ≤ q.nacks) }).homeTake a line u)
  | none => .next s

/-- INSTALL_ACK (R330): the transaction ends. -/
def execInstallAck (a line : Nat) (s : State) : Host.Outcome State Fault Refusal :=
  onMessage s (fun m => match m with
    | .ack x l => x == a && l == line
    | _ => false) fun _ t => (t.endTrans line).settled

/-- The cache that takes a Data message: the requester's own, the home die's, or none. -/
def State.dataCache (s : State) (a line : Nat) : Option Nat :=
  if a = homeDest then some (s.homeOf line / 5) else if a < 14 then some a else none

/-- LINE_DATA (R331): a requester, or the home, takes a Data message; an upset meets the data in the cache that takes
it (R342). -/
def execLineData (a line : Nat) (u : Upset) (s : State) : Host.Outcome State Fault Refusal :=
  onMessage s (fun m => match m with
    | .data x l _ _ _ _ => x == a && l == line
    | _ => false) fun m t =>
    match m with
    | .data _ _ d p0 dirty grant =>
      let met := t.dataCache a line
      let p := if met.isSome then p0 ||| spoiled u else p0
      let t1 := match met with
        | some c => t.dataError c line 63 u
        | none => t
      if a = homeDest then (t1.homeGets line d p).settled else (t1.takeData a line d p dirty grant).coresMeet
    | _ => t

/-! ### The Sweep engines (R345 to R347) -/

/-- A Sweep runs. -/
def State.swpBusy (s : State) (n : Nat) : Bool := s.rbit (.glbSwpCtrl n) .busy

/-- Writes of the three registers of a Sweep engine. -/
def State.swpStartWrite (s : State) (n : Nat) (v : Word) : State :=
  if s.swpBusy n then s.satRf (.glbSwpCtrl n) .refused 1 else s.setRf (.glbSwpStart n) .start (fld v 16 24)
def State.swpLenWrite (s : State) (n : Nat) (v : Word) : State :=
  if s.swpBusy n then s.satRf (.glbSwpCtrl n) .refused 1 else s.setRf (.glbSwpLen n) .len (fld v 16 25)

/-- A line lies in the range of a Sweep engine. -/
def State.swpRange (s : State) (n : Nat) (all : Bool) (line : Nat) : Bool :=
  let start := s.rf (.glbSwpStart n) .start * 65536
  all || (decide (start ≤ 128 * line) && decide (128 * line < start + s.rf (.glbSwpLen n) .len * 65536))

/-- The memory-side lines of a Sweep engine's cache: those of its die's homes; the system cache has none. -/
def State.sideLines (s : State) (n : Nat) : List Nat := (s.hbm.side.map Prod.fst).filter fun l => s.homeOf l / 5 == n

/-- A write of GLB_SWP_CTRLn: with GO, the lines in the range that the cache holds are noted. -/
def State.swpCtrlWrite (s : State) (n : Nat) (v : Word) : State :=
  if s.swpBusy n then s.satRf (.glbSwpCtrl n) .refused 1
  else
    let all := bit v.toNat 61
    let s1 := (s.setRf (.glbSwpCtrl n) .all (fld v 61 1)).setRf (.glbSwpCtrl n) .op (fld v 60 1)
    let s2 := if bit v.toNat 32 then s1.setRf (.glbSwpCtrl n) .refused 0 else s1
    if !bit v.toNat 63 then s2
    else
      let ls := ((s2.agent n).lines.map Prod.fst).filter (s2.swpRange n all)
      let side := (s2.sideLines n).filter (s2.swpRange n all)
      (s2.setRf (.glbSwpCtrl n) .busy 1).mapCoh fun k =>
        { k with sweeps := Table.insert k.sweeps n ⟨bit v.toNat 60, ls, side⟩ }

def execClean (_m : Master) (n : Nat) (v : Word) (s : State) : Host.Outcome State Fault Refusal :=
  if !s.ready || decide (5 ≤ n) || bit v.toNat 60 then .next s else .next (s.swpCtrlWrite n v)

def execCleanInv (_m : Master) (n : Nat) (v : Word) (s : State) : Host.Outcome State Fault Refusal :=
  if !s.ready || decide (5 ≤ n) || !bit v.toNat 60 then .next s else .next (s.swpCtrlWrite n v)

/-- R345: the dirty sectors of a memory-side line are written to the stack; CLEAN_INV then gives the line up. -/
def State.sweepSide (s : State) (inv : Bool) (line : Nat) : State :=
  (List.range 4).foldl (fun s i =>
    let s' := s.sideClean (4 * line + i)
    if inv then s'.sideDrop (4 * line + i) else s') s

/-- SWEEP_DONE (R346): every noted line is acted on; the Sweep ends once no write-back of them is outstanding. -/
def execSweepDone (n : Nat) (s : State) : Host.Outcome State Fault Refusal :=
  match Table.find s.coh.sweeps n with
  | none => .next s
  | some w =>
    if !s.ready then .next s
    else
      let s0 := w.side.foldl (fun s l => s.sweepSide w.inv l) s
      let s1 := w.lines.foldl (fun s l =>
        let s' := s.writeBack n l (!w.inv)
        if w.inv then s'.silentEvict n l else s') s0
      let left := w.lines.filter fun l => (s1.cohReq n l).isSome || (Table.find (s1.agent n).wbs l).isSome
      if left = [] then
        let s2 := s1.mapCoh fun k => { k with sweeps := Table.erase k.sweeps n }
        .next ((s2.setRf (.glbSwpCtrl n) .busy 0).wrapRf (.glbSwpCtrl n) .doneSeq 1)
      else .next (s1.mapCoh fun k => { k with sweeps := Table.insert k.sweeps n { w with lines := left, side := [] } })

end Sys2Proof.Machine
end

