-- ==== Sys2Proof/Machine/Host.lean ====
section
/-! DEFINITION. The PCIe endpoint: the windows and the boot SRAM behind BAR2, the link, aperture completions, and
MSI-X (12_host_interface.md R376, R381 to R389, R392 to R394, R397). -/

namespace Sys2Proof.Machine

/-! ### BAR2 (R381, R397) -/

/-- STAGE is VERIFY (2) or HALTED (9). -/
def stVerify : Nat := 2
def stHalted : Nat := 9
def State.stage (s : State) : Nat := s.rf .bootStatus .stage

/-- The endpoint runs: it is powered and not held in reset. -/
def State.endpoint (s : State) : Bool := s.board.rails && !s.board.perst && s.board.reference

/-- BAR2 maps the windows. -/
def State.windowsOn (s : State) : Bool := s.endpoint && !s.boot.mode && !s.fatal

/-- A window's size, 16 GiB. -/
def windowSize : Nat := 2 ^ 34

/-- The bytes of a TLP that one 32-byte sector takes: the sector's BAR2 offset and its 32 bytes. -/
def tlpSectors (offset : Nat) (bytes : List (Option Byte)) : List (Nat × List (Option Byte)) :=
  let first := offset / 32
  let n := (offset + bytes.length + 31) / 32 - first
  (List.range n).map fun k =>
    let base := 32 * (first + k)
    (base, (List.range 32).map fun i => if base + i < offset then none else (bytes.getD (base + i - offset) none))

/-- The byte mask of a sector's bytes. -/
def byteMask (l : List (Option Byte)) : Nat :=
  ((l.zip (List.range 32)).foldl (fun a x => if x.1.isSome then a + 2 ^ x.2 else a) 0)

/-! ### Window writes (R382 to R386) -/

/-- R385: of the bytes of a mask, those that the window has already taken since its last fence are written or not,
freely; `n` bounds the bits. -/
def State.rewrite (s : State) (old mask : Nat) : State × Nat :=
  (List.range 32).foldl (fun (r : State × Nat) i =>
    if bit mask i && bit old i then
      let b := r.1.freshBit
      (b.1, if b.2 then r.2 + 2 ^ i else r.2)
    else if bit mask i then (r.1, r.2 + 2 ^ i) else r) (s, 0)

/-- R365: a write of some bytes of a sector has the home read it from its stack, where `flips` meets it, unless a caching
agent's dirty copy has just given the home the line. -/
def State.mergeMeets (s : State) (ctx line sector : Nat) (m : BitVec 128) (flips : BitVec 272) : State :=
  if memLines ≤ line ∨ !s.ownerOk ctx line ∨ !(sectorsOf m &&& ~~~wholeSectors m).getLsbD sector then s
  else
    let s1 := s.lineEnded line
    if (s1.dirtyCopy line).isSome then s1 else s1.sectorMeets (4 * line + sector) flips ctx

/-- One sector of a window write is committed at its home, or discarded. Answers whether it would have faulted. -/
def State.windowSector (s : State) (w : Nat) (ep : Bool) (flips : Option (BitVec 272)) (x : Nat × List (Option Byte)) :
    State × Bool :=
  let ctx := s.rf (.hqWinBase w) .ctx
  let va := s.rf (.hqWinBase w) .base * 65536 + (x.1 - windowSize * w)
  let mask := byteMask x.2
  if mask = 0 then (s, false)
  else
    match s.translate .square ctx va needWriteDev with
    | (s1, .mem pa) =>
      let key := 2 ^ 29 * w + (x.1 - windowSize * w) / 32
      let old := Table.get 0 s1.pcie.written key
      let r := s1.rewrite old mask
      let s2 := { r.1 with pcie := { r.1.pcie with written := Table.set 0 r.1.pcie.written key (old ||| mask) } }
      let lo := pa % 128
      let d := BitVec.ofNat 1024 (leNat (x.2.map fun b => b.getD 0) <<< (8 * lo))
      let m := BitVec.ofNat 128 (r.2 <<< lo)
      let met := match flips with
        | some f => s2.mergeMeets ctx (pa / 128) (lo / 32) m f
        | none => s2
      match met.homeWrite ctx (pa / 128) d m with
      | (s3, true) => (if ep then s3.cohPoison (pa / 128) (BitVec.ofNat 4 (2 ^ (lo / 32))) else s3, false)
      | (s3, false) => (s3.frameFault ctx (pa / 128), false)
    | (s1, _) => (s1, true)

/-- R386: bytes of a window settle. -/
def State.settleBytes (s : State) (w n : Nat) : State :=
  let s1 := s.wrapRf (.hqWinArrived w) .arrived n
  (s1.countPkg 15 w (s1.rf (.hqWinBase w) .ctx) n).windowWake w

/-- A write TLP to a window (R384): its sectors commit in any order, so the model's order is ascending. -/
def State.windowWrite (s : State) (t : WriteTlp) : State :=
  let w := t.offset / windowSize
  let n := (t.bytes.filter Option.isSome).length
  if 4 ≤ w then s
  else if !s.rbit (.hqWinBase w) .enable then (s.satRf .hqWinStat .disWrites 1).settleBytes w n
  else
    let ctx := s.rf (.hqWinBase w) .ctx
    let va := s.rf (.hqWinBase w) .base * 65536 + (t.offset - windowSize * w)
    let r := (tlpSectors t.offset t.bytes).foldl (fun (r : State × Bool) x =>
      let z := r.1.windowSector w t.ep (Table.find t.flips (x.1 / 32)) x
      (z.1, r.2 || z.2)) (s, false)
    let s1 := if r.2 then r.1.satRf .xltStatus .winFaults 1 else r.1
    let s2 := if t.ep then (s1.errRecord { addr := va, addrKind := 1 } Code.hostEpWrite 1 ctx).1 else s1
    s2.settleBytes w n

/-- 8 MiB. -/
def sramSize : Nat := 2 ^ 23

/-- R397, R528: a write to the boot SRAM; during VERIFY it is dropped and counted. -/
def State.sramWrite (s : State) (offset : Nat) (bytes : List (Option Byte)) : State :=
  if s.stage = stVerify then s.satRf .bootStatus .sramDrops 1
  else
    let t := (bytes.zip (List.range bytes.length)).foldl (fun t x =>
      match x.1 with
      | some b => if offset + x.2 < sramSize then Table.set 0 t (offset + x.2) b else t
      | none => t) s.boot.sram
    { s with boot := { s.boot with sram := t } }

/-- WINDOW_WRITE (R384): a TLP that meets boot mode acts under that mapping (R397). -/
def execWindowWrite (t : WriteTlp) (s : State) : Host.Outcome State Fault Refusal :=
  if s.endpoint && !s.fatal then
    .next (if s.boot.mode then s.sramWrite t.offset t.bytes else s.windowWrite t)
  else .next s

/-- BOOT_SRAM_WRITE (R397). -/
def execBootSramWrite (offset : Nat) (bytes : List (Option Byte)) (s : State) : Host.Outcome State Fault Refusal :=
  if s.endpoint && !s.fatal && s.boot.mode then .next (s.sramWrite offset bytes) else .next s

/-! ### Window reads (R382, R387, R388) -/

/-- Send the completion of a BAR2 read. -/
def State.sendRead (s : State) (offset : Nat) (bytes : List Byte) (poison : List Nat) : State :=
  { s with outbox := s.outbox ++ [Out.readData offset bytes poison] }

/-- Bytes of all ones. -/
def allOnes (n : Nat) : List Byte := List.replicate n 0xFF

/-- What reading one sector of a window gives: its 32 bytes, whether it is poisoned, whether it would have faulted. -/
def State.windowReadSector (s : State) (w base : Nat) : State × List Byte × Bool × Bool :=
  let ctx := s.rf (.hqWinBase w) .ctx
  let va := s.rf (.hqWinBase w) .base * 65536 + (base - windowSize * w)
  match s.translate .square ctx va needReadDev with
  | (s1, .mem pa) =>
    let f := s1.homeFetch ctx (pa / 128)
    let r := f.2
    let bs := leBytes 32 (lineNat r.1 (pa % 128) 32)
    if r.2.2 then (f.1, bs, r.2.1.getLsbD (pa % 128 / 32), false)
    else (s1.frameFault ctx (pa / 128), bs, true, false)
  | (s1, _) => (s1, allOnes 32, false, true)

/-- A read of a window (R387), served sector by sector. -/
def State.windowRead (s : State) (offset length : Nat) : State :=
  let w := offset / windowSize
  if 4 ≤ w then s.sendRead offset (allOnes length) []
  else if !s.rbit (.hqWinBase w) .enable then (s.satRf .hqWinStat .disReads 1).sendRead offset (allOnes length) []
  else
    let first := offset / 32
    let n := (offset + length + 31) / 32 - first
    let r := (List.range n).foldl (fun (r : State × List Byte × List Nat × Bool) k =>
      let base := 32 * (first + k)
      let z := r.1.windowReadSector w base
      (z.1, r.2.1 ++ z.2.1, if z.2.2.1 then r.2.2.1 ++ [base] else r.2.2.1, r.2.2.2 || z.2.2.2)) (s, [], [], false)
    let s1 := if r.2.2.2 then r.1.satRf .xltStatus .winFaults 1 else r.1
    let s2 := s1.satRf .fltErrStat .hostEpReads r.2.2.1.length
    s2.sendRead offset ((r.2.1.drop (offset % 32)).take length) r.2.2.1

/-- WINDOW_READ (R387); in boot mode the boot SRAM answers (R397), and after a package-fatal error all-ones bytes
(19 R557). -/
def execWindowRead (offset length : Nat) (s : State) : Host.Outcome State Fault Refusal :=
  if !s.endpoint then .next s
  else if s.fatal then .next (s.sendRead offset (allOnes length) [])
  else if s.boot.mode then
    .next (s.sendRead offset ((List.range length).map fun i =>
      if offset + i < sramSize then Table.get 0 s.boot.sram (offset + i) else 0xFF) [])
  else .next (s.windowRead offset length)

/-! ### HQ_WINn_BASE (R381, R386) -/

/-- A write of HQ_WINn_BASE: CTX 63 leaves it unchanged, and a change of ENABLE from 0 to 1 clears ARRIVED. Boot mode
and HALTED hold ENABLE at 0 (R397, 18 R533); CTX and BASE take the write. -/
def State.windowBase (s : State) (w : Nat) (v : Word) : State :=
  if fld v 56 6 = 63 then s
  else
    let on := bit v.toNat 63 && !s.boot.mode && s.stage != stHalted
    let rise := on && !s.rbit (.hqWinBase w) .enable
    let s1 := ((s.setRf (.hqWinBase w) .enable (bval on)).setRf (.hqWinBase w) .ctx (fld v 56 6)).setRf (.hqWinBase w)
      .base (fld v 16 40)
    if rise then (s1.setReg (.hqWinArrived w) 0).fenceDone w else s1

/-- WINDOW_BASE_WRITE: what a rising ENABLE clears may complete a waiting fence. -/
def execWindowBaseWrite (m : Master) (w : Nat) (v : Word) (s : State) : Host.Outcome State Fault Refusal :=
  if s.hqOpen && hqMaster m && decide (w < 4) then .next ((s.windowBase w v).windowWake w) else .next s

/-! ### The link (R376) -/

/-- A core's aperture load ends (14 R435): its value, or a failed read and a load access fault, recorded with the host
address; no context fails. -/
def State.coreRead (s : State) (k addr len : Nat) (answer : HostAnswer) : State :=
  if answer.failed.contains (addr / 32 * 32) then
    let i : ErrInfo := { die := 4, agent := 3, unit := (Config.coreUnit k).toNat }
    let s1 := (s.apertureFail i 0 (addr / 32 * 32)).countConsumed
    let s2 := (s1.errRecord { i with addr := addr / 32 * 32, addrKind := 3 } Code.poison 2 0).1
    s2.setCore k { s2.core k with trap := some (apertureBase + addr / 32 * 32) }
  else s.coreGets k (lineNat (hostLine answer (addr / 128 * 128)) (addr % 128) len) (s.core k).rsv

/-- An aperture read ends with an answer (07 R237): the instruction it belongs to goes on. -/
def State.finishRead (s : State) (id : Nat) (answer : HostAnswer) : State :=
  let s1 := { s with pcie := { s.pcie with apReads := s.pcie.apReads.filter fun r => r.1 != id } }
  match s.pcie.apReads.find? fun r => r.1 == id with
  | none => s
  | some (_, .core k addr len) => s1.coreRead k addr len answer
  | some (_, .rope c slot _) =>
    match s1.ropeCtx c slot noGuard with
    | none => s1
    | some k =>
      match k.rope.wait with
      | .aperture cvt f n =>
        if n ≠ id then s1
        else
          match s1.ropeCtx c slot f.guard with
          | none => s1
          | some k0 =>
            let k1 := { k0 with rope := { k0.rope with wait := .none } }
            let s2 := s1.putRope k1 k1.rope
            if cvt then s2.ropeTallyCvt k1 f (some answer) else s2.ropeLd k1 f (some answer)
      | _ => s1

/-- APERTURE_READ_COMPLETION (R392): a completion arrives, with sectors that failed. -/
def execApertureReadCompletion (id : Nat) (answer : HostAnswer) (s : State) : Host.Outcome State Fault Refusal :=
  if s.ready && s.rbit .hqLinkStatus .up then .next (s.finishRead id answer) else .next s

/-- An answer in which every sector of the read has failed. -/
def State.failedAnswer (s : State) (id : Nat) : HostAnswer :=
  match s.pcie.apReads.find? fun r => r.1 == id with
  | some (_, .rope _ _ sectors) => ⟨[], sectors⟩
  | some (_, .core _ addr _) => ⟨[], [addr / 32 * 32]⟩
  | none => ⟨[], []⟩

/-- COMPLETION_TIMEOUT (R392): the bytes return marked as poison. -/
def execCompletionTimeout (id : Nat) (s : State) : Host.Outcome State Fault Refusal :=
  if s.ready then .next (s.finishRead id (s.failedAnswer id)) else .next s

/-- LINK_DOWN (R376): outstanding aperture reads fail, and later posted writes are discarded. -/
def execLinkDown (s : State) : Host.Outcome State Fault Refusal :=
  if !s.endpoint || !s.rbit .hqLinkStatus .up then .next s
  else
    let s1 := (s.setRf .hqLinkStatus .up 0).satRf .hqLinkStatus .downCount 1
    .next (if s.ready then s1.pcie.apReads.foldl (fun t r => t.finishRead r.1 (t.failedAnswer r.1)) s1 else s1)

/-- LINK_UP (R374, R376): the link trains at a speed and a width, in flit mode at 64.0 and 128.0 GT/s (speeds 6 and 7);
at another width than 8 or 16 lanes it stays down, and keeps the package short of READY. -/
def execLinkUp (speed width : Nat) (flit : Bool) (s : State) : Host.Outcome State Fault Refusal :=
  if !s.endpoint || s.rbit .hqLinkStatus .up || speed == 0 || decide (7 < speed) || flit != decide (6 ≤ speed) then .next s
  else if width == 8 || width == 16 then
    let s0 := { s with pcie := { s.pcie with otherWidth := false } }
    let s1 := ((s0.setRf .hqLinkStatus .up 1).setRf .hqLinkStatus .speed speed).setRf .hqLinkStatus .width width
    .next (s1.setRf .hqLinkStatus .flit (bval flit))
  else .next { s with pcie := { s.pcie with otherWidth := true } }

/-! ### Configuration space (R375, R377) -/

/-- The fields of the configuration header that the spec gives a value. -/
inductive ConfigField where
  | vendor | device | revision | classCode | subsystem | serial
  | bar (n : Nat)
  | expansionRom
  deriving DecidableEq, Repr

/-- The size of what a BAR maps; 0 for one that is not implemented, and for the upper halves of the two. -/
def barSize (n : Nat) : Nat := if n = 0 then 2 ^ 26 else if n = 2 then 2 ^ 36 else 0

/-- What the configuration header holds: identity, and of each BAR the bits that read 0 or fixed whatever base the host
gives it: a 64-bit memory BAR of its size, BAR2 prefetchable. -/
def State.configRead (s : State) : ConfigField → Nat
  | .vendor => 0x1D7A
  | .device => 0x2040
  | .revision => Config.stepping.toNat
  | .classCode => 0x120000
  | .subsystem => s.boot.subsys
  | .serial => Config.deviceId.toNat % 2 ^ 64
  | .bar 0 => 4
  | .bar 2 => 12
  | .bar _ => 0
  | .expansionRom => 0

/-! ### MSI-X (R394) -/

/-- The table entry of a vector; its mask bit is set after reset (log 8). -/
def State.msixEntry (s : State) (n : Nat) : MsixEntry := Table.get (⟨0, 0, true⟩ : MsixEntry) s.pcie.msix n

/-- Set a table entry. -/
def State.setMsix (s : State) (n : Nat) (e : MsixEntry) : State :=
  { s with pcie := { s.pcie with msix := Table.set (⟨0, 0, true⟩ : MsixEntry) s.pcie.msix n e } }

/-- A pending vector that nothing masks sends its message. -/
def State.msixFlush (s : State) (n : Nat) : State :=
  if s.pcie.pend.contains n && !(s.msixEntry n).masked && !s.pcie.funcMask then
    ({ s with pcie := { s.pcie with pend := setErase s.pcie.pend n } }).msix n
  else s

/-- The function mask holds every vector; cleared, every pending vector that is not masked itself sends its message. -/
def State.functionMask (s : State) (masked : Bool) : State :=
  let s1 := { s with pcie := { s.pcie with funcMask := masked } }
  if masked then s1 else s.pcie.pend.foldl (fun t n => t.msixFlush n) s1

/-- MSIX_UNMASK: the host clears the mask bit of a vector, or writes the function mask. -/
def execMsixUnmask (mask : MsixMask) (s : State) : Host.Outcome State Fault Refusal :=
  match mask with
  | .vector n =>
    if s.endpoint && decide (n < 2048) then .next ((s.setMsix n { s.msixEntry n with masked := false }).msixFlush n)
    else .next s
  | .function masked => if s.endpoint then .next (s.functionMask masked) else .next s

/-- R394: a host write of a word of the MSI-X table: `part` is its place in the entry, in 4-byte words. -/
def State.msixWord (s : State) (n part v : Nat) : State :=
  let e := s.msixEntry n
  match part with
  | 0 => s.setMsix n { e with addr := e.addr / 2 ^ 32 * 2 ^ 32 + v / 4 * 4 }
  | 1 => s.setMsix n { e with addr := e.addr % 2 ^ 32 + v * 2 ^ 32 }
  | 2 => s.setMsix n { e with data := v }
  | _ => (s.setMsix n { e with masked := bit v 0 }).msixFlush n

/-- What a read of a word of the table returns. -/
def State.msixWordRead (s : State) (n part : Nat) : Nat :=
  let e := s.msixEntry n
  match part with
  | 0 => e.addr % 2 ^ 32
  | 1 => e.addr / 2 ^ 32
  | 2 => e.data
  | _ => bval e.masked

/-- 32 pending bits from vector `n`. -/
def State.msixPending (s : State) (n : Nat) : Nat :=
  (List.range 32).foldl (fun a k => if s.pcie.pend.contains (n + k) then a + 2 ^ k else a) 0

/-- Four bytes of the MSI-X block: the table, then at 0x0098_0000 the pending bit array of 256 bytes (R394). -/
def State.msixRead (s : State) (offset : Nat) : Nat :=
  let o := offset - 0x900000
  if o < 0x8000 then s.msixWordRead (o / 16) (o % 16 / 4)
  else if 0x80000 ≤ o ∧ o < 0x80100 then s.msixPending ((o - 0x80000) / 4 * 32)
  else 0

end Sys2Proof.Machine
end

