-- ==== Sys2Proof/Machine/Dielink.lean ====
section
/-! DEFINITION. The die-to-die link layer: frames, sequence numbers, replay, credits and link failure
(01_package_organisation.md R24 to R27, R32 to R42). -/

namespace Sys2Proof.Machine

/-! ### Frames (Tables 1.8 and 1.9) -/

/-- Slices of a link, each way (Table 1.4). -/
def linkSlices (link : Nat) : Nat := if link < 4 then 90 else 45

/-- R39: the slice of a link of `n` slices that carries a 128-byte line's messages. -/
def sliceOf (line n : Nat) : Nat :=
  ((List.range 9).foldl (fun a i => a ^^^ bits line (7 * i) 7) 0) % n

/-- A field of a frame. -/
def frameBits (f : BitVec 1152) (lo w : Nat) : Nat := bits f.toNat lo w

/-- R34: the CRC is right. -/
def frameCrcOk (f : BitVec 1152) : Bool := frameBits f 1120 32 == crc32c (leBytes 140 f.toNat)

/-- SEQ, ACK_SEQ, NULL and NAK. -/
def frameSeq (f : BitVec 1152) : Nat := frameBits f 1096 12
def frameAck (f : BitVec 1152) : Nat := frameBits f 1108 12
def frameNull (f : BitVec 1152) : Bool := frameBits f 1095 1 == 1
def frameNak (f : BitVec 1152) : Bool := frameBits f 1094 1 == 1

/-- A slot that holds message bytes (Table 1.9): its class, whether it is a message's first or last slot, its bytes. -/
structure Slot where
  cls : Nat
  som : Bool
  eom : Bool
  payload : Nat
  deriving DecidableEq, Repr

/-- The slots of a frame that hold bytes, slot 0 first. -/
def frameMsgSlots (f : BitVec 1152) : List Slot :=
  (List.range 4).filterMap fun i =>
    let d := frameBits f (1024 + 16 * i) 16
    if bit d 15 then some ⟨bits d 13 2, bit d 12, bit d 11, frameBits f (256 * i) 256⟩ else none

/-- The message classes of the slots that hold bytes. -/
def frameSlots (f : BitVec 1152) : List Nat := (frameMsgSlots f).map Slot.cls

/-- The reserved bits of the slot descriptors are 0. -/
def frameReserved (f : BitVec 1152) : Bool := (List.range 4).all fun i => frameBits f (1024 + 16 * i) 11 == 0

/-- What a resent frame keeps: its sequence number, credits, slots and payload. -/
def frameBody (f : BitVec 1152) : Nat := frameBits f 0 1094 + frameSeq f * 2 ^ 1094

/-! ### Routes (R25, R26, R39) -/

/-- The dies that a link joins (Table 1.4): from its first to its second is direction 0. -/
def linkEnds (link : Nat) : Nat × Nat :=
  match link with
  | 0 => (0, 1)
  | 1 => (1, 3)
  | 2 => (3, 2)
  | 3 => (2, 0)
  | n => (4, n - 4)

/-- The die that a link's direction leaves, and the one it reaches. -/
def linkFrom (link dir : Nat) : Nat := if dir = 0 then (linkEnds link).1 else (linkEnds link).2
def linkTo (link dir : Nat) : Nat := linkFrom link (1 - dir)

/-- R25, R26: the dies to which a message for `dst` may go next from `here`: the far end of the one link, or the
intermediate die that bit 7 of the line's address picks between diagonal compute dies; a message about no line may take
either. -/
def nextDies (here dst : Nat) (line : Option Nat) : List Nat :=
  if here = dst then []
  else if here = 4 ∨ dst = 4 ∨ here + dst ≠ 3 then [dst]
  else
    let between := (List.range 4).filter fun d => d != here && d != dst
    match line with
    | some l => [between.getD (l % 2) 0]
    | none => between

/-- A message may cross a slice of a link's direction: it is on the route, and on the slice of its line (R39). -/
def msgCrosses (m : D2dMsg) (link dir slice : Nat) : Bool :=
  (nextDies (linkFrom link dir) m.dst m.line).contains (linkTo link dir) &&
    m.line.all fun l => sliceOf l (linkSlices link) == slice

/-! ### Slice directions -/

/-- A slice direction after training: the first SEQ is 0 (log 7). -/
def SliceDir.trained : SliceDir := ⟨0, [], [], [], [0, 0, 0, 0], 0, false, [], []⟩

/-- The key of a slice direction. -/
def sliceKey (link dir slice : Nat) : Nat := (2 * link + dir) * 128 + slice

/-- A slice direction. -/
def State.slice (s : State) (key : Nat) : SliceDir := Table.get .trained s.d2d key

/-- Set a slice direction. -/
def State.setSlice (s : State) (key : Nat) (x : SliceDir) : State :=
  { s with d2d := Table.set .trained s.d2d key x }

/-- The fc since reset: two in each ac. -/
def State.fcCount (s : State) : Nat := 2 * s.acCount

/-- The slice direction runs: the link is trained and the package has not stopped (19 R556). -/
def State.sliceOn (s : State) (link dir slice : Nat) : Bool :=
  decide (link < 8) && decide (dir < 2) && decide (slice < linkSlices link) && s.board.rails && !s.fatal &&
    bit (s.rf .glbD2dStatus .trained) link

/-- R36, R37: the sender resends every buffered frame, which is one replay event unless it is resending already. -/
def State.replay (s : State) (link key : Nat) : State :=
  let x := s.slice key
  if x.buf = [] ∨ x.resend ≠ [] then s
  else
    let now := s.fcCount
    let s1 := s.setSlice key { x with
      resend := x.buf.map LinkFrame.seq
      replays := now :: x.replays.filter fun t => decide (now < t + 2 ^ 20) }
    (s1.satRf (.glbD2dErr link) .replays 1).countPkg 8 link 63 1

/-! ### Sending (R36, R38, R40) -/

/-- Receive credits that a slice direction's sender still holds for a class. -/
def SliceDir.credit (x : SliceDir) (cls : Nat) : Int := (Config.d2dCredits cls : Int) + x.credits.getD cls 0

/-- Take or return credits of a class. -/
def SliceDir.addCredit (x : SliceDir) (cls : Nat) (n : Int) : SliceDir :=
  { x with credits := listSet x.credits cls (x.credits.getD cls 0 + n) }

/-- Every class of a frame's slots has a credit for each of them. -/
def SliceDir.creditOk (x : SliceDir) (slots : List Nat) : Bool :=
  slots.all fun c => decide (((slots.filter fun d => d == c).length : Int) ≤ x.credit c)

/-- The sender's state after it sends a frame, and whether the frame is sequenced; none where it would not send this
one: its acknowledgement and NAK come from the reverse direction `y`, an idle frame has SEQ 0, frames to resend go
first, and a new one needs room in the replay buffer and credits. -/
def SliceDir.send (x y : SliceDir) (f : BitVec 1152) (msgs : List D2dMsg) : Option (SliceDir × Bool) :=
  if !frameCrcOk f || frameAck f != (y.expected + 4095) % 4096 || frameNak f != y.nak || !frameReserved f then none
  else if frameNull f then (if frameSeq f = 0 then some (x, false) else none)
  else
    match x.resend with
    | q :: rest =>
      match x.buf.find? fun b => b.seq == q with
      | some b =>
        if frameBody b.bits = frameBody f then
          some ({ x with resend := rest, buf := x.buf.map fun (c : LinkFrame) =>
            if c.seq = q then { c with resends := c.resends + 1 } else c }, true)
        else none
      | none => some ({ x with resend := rest }, false)
    | [] =>
      if frameSeq f ≠ x.next ∨ 32 ≤ x.buf.length ∨ !x.creditOk (frameSlots f) then none
      else
        let x1 := { x with next := (x.next + 1) % 4096, buf := x.buf ++ [⟨x.next, f, 0, msgs⟩] }
        some ((frameSlots f).foldl (fun x c => x.addCredit c (-1)) x1, true)

/-- The packing of one frame: what waits at the sending die's fabric stop, the messages being sent by class, and those
that the frame has yet to begin. -/
structure Pack where
  stop : List StopMsg
  sending : Table Sending
  msgs : List D2dMsg
  deriving DecidableEq, Repr

/-- R33: one slot of a new frame. A first slot begins the next message, which starts at this die or waits at its fabric
stop, the oldest of its class and line first (R26, R39); the slots of a forwarded message are those that arrived. -/
def Pack.slot (link dir slice : Nat) (a : Pack) (q : Slot) : Option Pack :=
  let go := fun (a : Pack) (m : D2dMsg) (rest : Option (List Nat)) =>
    some { a with sending := if q.eom then Table.erase a.sending q.cls else Table.insert a.sending q.cls ⟨m, rest⟩ }
  let forward := fun (a : Pack) (m : D2dMsg) (slots : List Nat) =>
    match slots with
    | [] => none
    | p :: ps => if p = q.payload ∧ q.eom = ps.isEmpty then go a m (some ps) else none
  if q.som then
    match a.msgs with
    | [] => none
    | m :: more =>
      if (Table.find a.sending q.cls).isSome || !msgCrosses m link dir slice then none
      else if m.src = linkFrom link dir then go { a with msgs := more } m none
      else
        match a.stop.find? fun w => w.cls == q.cls && w.msg.line == m.line && w.msg.dst == m.dst with
        | none => none
        | some w => if w.msg = m then forward { a with msgs := more, stop := a.stop.erase w } m w.slots else none
  else
    match Table.find a.sending q.cls with
    | none => none
    | some ⟨m, none⟩ => go a m none
    | some ⟨m, some slots⟩ => forward a m slots

/-- A new frame's slots, in order; every message it names begins in it. -/
def Pack.frame (link dir slice : Nat) (f : BitVec 1152) (a : Pack) : Option Pack :=
  match (frameMsgSlots f).foldl (fun (r : Option Pack) q => r.bind fun a => a.slot link dir slice q) (some a) with
  | some b => if b.msgs.isEmpty then some b else none
  | none => none

/-- What waits at a die's fabric stop, and setting it. -/
def State.stopAt (s : State) (die : Nat) : List StopMsg := Table.get [] s.stops die
def State.setStop (s : State) (die : Nat) (l : List StopMsg) : State := { s with stops := Table.set [] s.stops die l }

/-- What sending a frame comes to: the state, whether the frame is sequenced, and the messages that begin in it; none
where the sender would not send it. -/
def State.sendFrame (s : State) (link dir slice : Nat) (sent : BitVec 1152) (msgs : List D2dMsg) :
    Option (State × Bool × List D2dMsg) :=
  let key := sliceKey link dir slice
  let x := s.slice key
  match x.send (s.slice (sliceKey link (1 - dir) slice)) sent msgs with
  | none => none
  | some (x1, sequenced) =>
    if sequenced && x.resend.isEmpty then
      match (⟨s.stopAt (linkFrom link dir), x.sending, msgs⟩ : Pack).frame link dir slice sent with
      | none => none
      | some p => some ((s.setSlice key { x1 with sending := p.sending }).setStop (linkFrom link dir) p.stop, true, msgs)
    else
      some (s.setSlice key x1, sequenced,
        match x.buf.find? fun b => b.seq == frameSeq sent with
        | some b => if sequenced then b.msgs else []
        | none => [])

/-! ### Receiving (R35, R36) -/

/-- R36: frames that ACK_SEQ covers leave the replay buffer. -/
def SliceDir.acked (x : SliceDir) (ack : Nat) : SliceDir :=
  let covered := fun (q : Nat) => decide ((ack + 4096 - q) % 4096 < 2048)
  { x with buf := x.buf.filter fun b => !covered b.seq, resend := x.resend.filter fun q => !covered q }

/-- R35: the receiver of a slice direction takes a sequenced frame with a good CRC: its state, and whether it accepts
the frame. A number from before the expected one is a resent frame, and no gap. -/
def SliceDir.take (x : SliceDir) (seq : Nat) : SliceDir × Bool :=
  if seq = x.expected then ({ x with expected := (seq + 1) % 4096, nak := false }, true)
  else if (seq + 4096 - x.expected) % 4096 < 2048 then ({ x with nak := true }, false)
  else (x, false)

/-- The assembly of messages from an accepted frame: the messages arriving by class, the whole ones, and those that the
frame has yet to begin. -/
structure Unpack where
  arriving : Table (D2dMsg × List Nat)
  whole : List StopMsg
  msgs : List D2dMsg
  deriving DecidableEq, Repr

/-- R33: one slot of an accepted frame: a first slot begins a message, a last one delivers it. -/
def Unpack.slot (a : Unpack) (q : Slot) : Unpack :=
  let put := fun (a : Unpack) (m : D2dMsg) (slots : List Nat) =>
    if q.eom then { a with arriving := Table.erase a.arriving q.cls, whole := a.whole ++ [⟨m, q.cls, slots⟩] }
    else { a with arriving := Table.insert a.arriving q.cls (m, slots) }
  if q.som then
    match a.msgs with
    | [] => a
    | m :: more => put { a with msgs := more } m [q.payload]
  else
    match Table.find a.arriving q.cls with
    | none => a
    | some (m, slots) => put a m (slots ++ [q.payload])

/-- R36: an accepted frame's messages reach the fabric stop of the die that the link's direction ends at, where one for
another die waits to be forwarded (R26). -/
def State.deliverFrame (s : State) (link dir slice : Nat) (f : BitVec 1152) (msgs : List D2dMsg) : State :=
  let key := sliceKey link dir slice
  let u := (frameMsgSlots f).foldl Unpack.slot ⟨(s.slice key).arriving, [], msgs⟩
  let die := linkTo link dir
  (s.setSlice key { s.slice key with arriving := u.arriving }).setStop die (s.stopAt die ++ u.whole)

/-- The receiver of direction `key`, whose die sends on the reverse direction `back`, takes a frame. -/
def State.linkReceive (s : State) (link dir slice : Nat) (f : BitVec 1152) (msgs : List D2dMsg) : State :=
  let key := sliceKey link dir slice
  let back := sliceKey link (1 - dir) slice
  if !frameCrcOk f then
    let s1 := s.satRf (.glbD2dErr link) .crcErrors 1
    if frameNull f then s1 else s1.setSlice key { s1.slice key with nak := true }
  else
    let r := if frameNull f then (s.slice key, true) else (s.slice key).take (frameSeq f)
    let s1 := s.setSlice key r.1
    let y := (s1.slice back).acked (frameAck f)
    let y1 := if r.2 then y.addCredit (frameBits f 1092 2) (frameBits f 1088 4) else y
    let s2 := s1.setSlice back y1
    let s3 := if r.2 && !frameNull f then s2.deliverFrame link dir slice f msgs else s2
    if frameNak f then s3.replay link back else s3

/-- D2D_FRAME (R35): one frame crosses a slice, as the sender sent it and as it arrives. -/
def execD2dFrame (link dir slice : Nat) (sent : D2dSent) (got : BitVec 1152) (s : State) :
    Host.Outcome State Fault Refusal :=
  if !s.sliceOn link dir slice then .next s
  else
    match s.sendFrame link dir slice sent.bits sent.msgs with
    | none => .next s
    | some (s1, sequenced, begun) =>
      let s2 := if sequenced then s1.countPkg 7 link 63 1 else s1
      .next (s2.linkReceive link dir slice got begun)

/-- REPLAY_TIMEOUT (R37): as if a NAK had arrived. -/
def execReplayTimeout (link dir slice : Nat) (s : State) : Host.Outcome State Fault Refusal :=
  if s.sliceOn link dir slice then .next (s.replay link (sliceKey link dir slice)) else .next s

/-! ### Failure (R41, R42) -/

/-- R41: the slice direction has reached a limit. -/
def State.sliceFailed (s : State) (key : Nat) : Bool :=
  let x := s.slice key
  x.buf.any (fun b => decide (16 ≤ b.resends)) ||
    decide (256 < (x.replays.filter fun t => decide (s.fcCount < t + 2 ^ 20)).length)

/-- R42: a link's failure is recorded in fuses and in GLB_D2D_STATUS. -/
def State.fuseLink (s : State) (link : Nat) : State :=
  let v := s.fuses.failedLinks ||| 2 ^ link
  ({ s with fuses := { s.fuses with failedLinks := v } }).setRf .glbD2dStatus .failed v

/-- D2D_WIRE_FAIL: the package stops, due for replacement. -/
def execD2dWireFail (link dir slice : Nat) (s : State) : Host.Outcome State Fault Refusal :=
  if s.sliceOn link dir slice && s.sliceFailed (sliceKey link dir slice) then
    .next (((s.fuseLink link).setRf .bootStatus .health 2).packageFatal Code.d2dWireFail link)
  else .next s

end Sys2Proof.Machine
end

