-- ==== Sys2Proof/Machine/Square.lean ====
section
/-! DEFINITION. Who reaches which block of BAR0, and the services of the Square: interrupt routes, the heartbeat, the
watchdog, core parity and clock loss, RUNTIME_STOP, the rings' registers, and evictions of a cluster L1
(12_host_interface.md R378; 14_square_services.md R432 to R450; 01 R31; 19 R550, R556 to R558; 03 R104; 07 R231). -/

namespace Sys2Proof.Machine

/-! ### BAR0 blocks (12 Table 12.4) -/

/-- A write to a block takes effect: the endpoint runs; before the dies leave reset only the boot island does; and
after a package-fatal error only GLB, FLT and BOOT are served (19 R557). -/
def State.blockOpen (s : State) (b : Block) (m : Master) : Bool :=
  s.endpoint && b.reached m &&
    (if s.fatal then b == .glb || b == .flt || b == .boot else decide (3 ≤ s.stage) || b == .boot || b == .msix)

/-- The time CSR of a core reads the package time counter, in nanoseconds (14 Table 14.1). -/
def State.coreTime (s : State) (_core : Nat) : Nat := s.time

/-! ### Interrupt routes and heartbeat (14 R440, R441, R447) -/

/-- A write of GLB_SQIRQ_ROUTEi: a CORE above 71 leaves the whole register unchanged. -/
def State.routeWrite (s : State) (i : Nat) (v : Word) : State :=
  if 72 ≤ fld v 0 7 then s
  else (s.setRf (.glbSqirqRoute i) .enable (fld v 63 1)).setRf (.glbSqirqRoute i) .core (fld v 0 7)

def execRouteWrite (m : Master) (i : Nat) (v : Word) (s : State) : Host.Outcome State Fault Refusal :=
  if s.blockOpen .glb m && decide (i < 128) then .next (s.routeWrite i v) else .next s

/-- The interrupt sources that are raised (14 Table 14.4). DEDUCED (log 140): IRQ enables a device ring's interrupt,
as it does a host ring's (13 R425). -/
def State.sourceRaised (s : State) (i : Nat) : Bool :=
  if i < 64 then
    s.rbit (.hqCqCtrl i) .enable && !s.rbit (.hqCqCtrl i) .owner && s.rbit (.hqCqCtrl i) .irq &&
      s.rf (.hqCqHead i) .head != s.rf (.hqCqTail i) .tail
  else if i = 64 then (List.range 4).any fun k => s.reg (.fltXfNew k) != 0
  else if i = 65 then s.rf .fltShadowPtr .producer != s.rf .fltShadowPtr .consumer
  else if i = 66 then s.rf .fltErrPtr .producer != s.rf .fltErrPtr .consumer
  else if i = 67 then bits (s.reg .pwrEvent).toNat 0 4 != 0
  else if i = 68 then bits (s.reg .podEvent).toNat 0 4 != 0
  else if i = 69 then bits (s.reg .obsEvent).toNat 0 3 != 0
  else false

/-- R440: the supervisor external interrupt of a core is held pending. -/
def State.corePending (s : State) (core : Nat) : Bool :=
  (List.range 128).any fun i =>
    s.rbit (.glbSqirqRoute i) .enable && s.rf (.glbSqirqRoute i) .core == core && s.sourceRaised i

/-- A write of GLB_RT_HEARTBEAT. -/
def State.beatWrite (s : State) (v : Word) : State :=
  (s.setRf .glbRtHeartbeat .limitMs (fld v 32 16)).setRf .glbRtHeartbeat .count (fld v 0 32)

/-- BEAT: a write that changes COUNT. -/
def execBeat (m : Master) (v : Word) (s : State) : Host.Outcome State Fault Refusal :=
  if s.blockOpen .glb m && fld v 0 32 != s.rf .glbRtHeartbeat .count then .next (s.beatWrite v) else .next s

/-- RUNTIME_STALL (R447): the firmware logs that the count has not changed for LIMIT_MS. -/
def execRuntimeStall (s : State) : Host.Outcome State Fault Refusal :=
  if s.ready && s.rf .glbRtHeartbeat .limitMs != 0 then .next (s.errRecord { die := 4 } Code.runtimeStall 5 63).1
  else .next s

/-! ### Package-fatal events (14 R432, R449; 01 R31) -/

/-- REEVE_WDT: the firmware runs from the end of VERIFY. -/
def execReeveWdt (s : State) : Host.Outcome State Fault Refusal :=
  if s.endpoint && decide (3 ≤ s.stage) then .next (s.packageFatal Code.reeveWdt 0) else .next s

def execCoreParity (core : Nat) (s : State) : Host.Outcome State Fault Refusal :=
  if s.ready && decide (core < 72) then .next (s.packageFatal Code.coreParity core) else .next s

/-- A generator reports lock: followers 0 to 3, the root PLL 4. -/
def State.genLocked (s : State) (g : Nat) : Bool :=
  if g = 4 then s.rbit .glbClkStatus .rootLock else bit (s.rf .glbClkStatus .followLock) g

/-- LOCK_LOST: the generator no longer reports lock, LOCK_LOST is latched and the package stops. -/
def execLockLost (g : Nat) (s : State) : Host.Outcome State Fault Refusal :=
  if s.endpoint && decide (g < 5) && s.genLocked g then
    let s1 := if g = 4 then s.setRf .glbClkStatus .rootLock 0
      else s.setRf .glbClkStatus .followLock (s.rf .glbClkStatus .followLock - 2 ^ g)
    .next ((s1.setRf .glbClkStatus .lockLost 1).packageFatal Code.lockLost g)
  else .next s

/-! ### RUNTIME_STOP and the rings (19 R550, R558; 03 R104) -/

/-- A write of FLT_CTX_FAIL. -/
def State.runtimeStop (s : State) (v : Word) : State :=
  let c := fld v 0 6
  if bit v.toNat 63 && decide (1 ≤ c) && s.ready then s.ctxFail c Code.runtimeStop { die := 4 } none else s

def execRuntimeStop (m : Master) (v : Word) (s : State) : Host.Outcome State Fault Refusal :=
  if s.blockOpen .flt m then .next (s.runtimeStop v) else .next s

/-- A write of FLT_SHADOW_RING or FLT_ERR_RING takes effect only while the ring is empty. -/
def State.ringWrite (s : State) (ring ptr : Reg) (v : Word) : State :=
  if s.rf ptr .producer = s.rf ptr .consumer then
    (s.setRf ring .base (fld v 8 56)).setRf ring .sizeLog2 (fld v 0 4)
  else s

def execShadowRingWrite (m : Master) (v : Word) (s : State) : Host.Outcome State Fault Refusal :=
  if s.blockOpen .flt m then .next (s.ringWrite .fltShadowRing .fltShadowPtr v) else .next s

def execErrorRingWrite (m : Master) (v : Word) (s : State) : Host.Outcome State Fault Refusal :=
  if s.blockOpen .flt m then .next (s.ringWrite .fltErrRing .fltErrPtr v) else .next s

/-! ### L1 evictions (07 R231) -/

/-- L1_EVICT: the L1 cleans a line it holds, and gives it up if it evicts it. -/
def execL1Evict (c ctx line : Nat) (invalidate : Bool) (s : State) : Host.Outcome State Fault Refusal :=
  if !s.ready || s.clusterHalted c then .next s
  else
    match (s.cluster c).l1Find ctx line with
    | none => .next s
    | some l =>
      let s1 := s.l1Clean c l
      .next (if invalidate then
        s1.setCluster c { s1.cluster c with l1 := (s1.cluster c).l1.filter fun x => !(x.ctx == ctx && x.line == line) }
      else s1)

end Sys2Proof.Machine
end

