-- ==== Sys2Proof/Machine/Power.lean ====
section
/-! DEFINITION. Power and thermal control: samples, ticks and bubbles, hints, temperatures, and the supplies and
their trips (17_power_control.md; 21_electrical_mechanical.md R584 to R588). -/

namespace Sys2Proof.Machine

/-! ### The controller (17 R506 to R513) -/

/-- The power controller runs: SERVICES has started it and its rails are on. -/
def State.powerOn (s : State) : Bool := s.board.rails && s.stage == stReady

/-- POWER_SAMPLE (R506, R513): a sample of the tick in progress, which has at most 100. -/
def execPowerSample (watts : Nat) (s : State) : Host.Outcome State Fault Refusal :=
  if !s.powerOn || decide (100 ≤ s.power.samples.length) then .next s
  else
    let s1 := { s with power := { s.power with samples := watts :: s.power.samples } }
    .next (if 6400 < watts then
      ((s1.setRf .pwrStatus .forced 1).setRf .pwrEvent .peak 1).satRf .pwrEvent .peakEvents 1 else s1)

/-- FORCED_PERIOD_END (R513). -/
def execForcedPeriodEnd (s : State) : Host.Outcome State Fault Refusal :=
  if s.powerOn then .next (s.setRf .pwrStatus .forced 0) else .next s

/-- The sum of the last `n` values of P_k; values from before the first tick equal the first (R507). -/
def Power.sum (p : Power) (n : Nat) : Nat :=
  let l := p.history.take n
  l.foldl (· + ·) 0 + (n - l.length) * p.first

/-- R509, over n × (A_W + R) in place of A_W + R. -/
def bubbleCount (nTotal n cap : Nat) : Nat :=
  if nTotal < n * cap then 0 else min 192 (2048 * (nTotal - n * cap) / (n * cap))

/-- Sideband telemetry follows each tick (21 R587). -/
def State.telemetry (s : State) (vin : Nat) : State :=
  let s1 := ((s.setRf .sbPower .pAvg (s.rf .pwrStatus .pAvg)).setRf .sbPower .pTick (s.rf .pwrStatus .pTick)).setRf .sbVin
    .vin vin
  (List.range 5).foldl (fun s d => s.setRf (.sbTemp d) .temp (s.rf (.pwrTemp d) .temp)) s1

/-- POWER_TICK (R507, R509, R512, R514): the tick whose 100 samples are in. -/
def execPowerTick (vin : Nat) (s : State) : Host.Outcome State Fault Refusal :=
  if !s.powerOn || s.power.samples.length != 100 then .next s
  else
    let p := s.power.samples.foldl (· + ·) 0 / 100
    let first := if s.power.history = [] then p else s.power.first
    let pw : Power := ⟨[], (p :: s.power.history).take 10000, first⟩
    let n := s.rf .pwrWindow .windowMs
    let cap := s.rf .pwrCapWatts .cap
    let total := pw.sum n
    let rem := s.rf .pwrHint .remainUs
    let r := if s.rbit .pwrHint .active then s.rf .pwrHint .powerW * min (rem / 1000) n else 0
    let q := bubbleCount (total + r) n cap
    let s1 := { s with power := pw }
    let s2 := ((s1.setRf .pwrStatus .q q).setRf .pwrStatus .pTick p).setRf .pwrStatus .pAvg (total / n)
    let s3 := (s2.setRf .pwrStatus .pRes (r / n)).wrapRf .pwrEnergy .mj p
    let s4 := s3.setRf .pwrHint .remainUs (rem - 1000)
    let s5 := if q = 192 ∧ n * cap < total then (s4.setRf .pwrEvent .capUnmet 1).satRf .pwrEvent .capUnmetTicks 1 else s4
    .next (s5.telemetry vin)

/-- The bubble count that a die's clusters apply (R509, R513, Table 17.2). -/
def State.bubbles (s : State) (die : Nat) : Nat :=
  if s.rbit .pwrStatus .forced then 192
  else if s.rbit (.pwrTemp die) .hot || s.rbit (.pwrTemp 4) .hot then max (s.rf .pwrStatus .q) 128
  else s.rf .pwrStatus .q

/-- R510: the ac of a count since reset is a bubble on a cluster. -/
def State.bubbleAc (s : State) (c t : Nat) : Bool :=
  let q := s.bubbles (c / 176)
  let j := (t + 256 * 704 - 37 * c) % 256
  decide (j * q / 256 < (j + 1) * q / 256)

/-! ### Hints (R514) -/

/-- HINT_HEAVY: the hint is handed over at the command's start. -/
def execHintHeavy (n : Nat) (s : State) : Host.Outcome State Fault Refusal :=
  s.runCmd n 0x06 anyCmd false [span 0 52] anyWords fun s c _ =>
    let d := bits (c.word 1) 0 32
    let s1 := if !s.rbit .pwrCtl .hintEn then s.satRf .pwrHintCnt .ignored 1
      else
        let s2 := s.wrapRf .pwrHintCnt .accepted 1
        if d = 0 then s2.setReg .pwrHint 0
        else
          (((s2.setRf .pwrHint .active 1).setRf .pwrHint .mask (bits (c.word 1) 48 4)).setRf .pwrHint .powerW
            (bits (c.word 1) 32 16)).setRf .pwrHint .remainUs d
    s1.endCmd n c.index stOk 0 0

/-- HINT_END: less than a whole millisecond of the hint remains. -/
def execHintEnd (s : State) : Host.Outcome State Fault Refusal :=
  if s.powerOn && s.rbit .pwrHint .active && decide (s.rf .pwrHint .remainUs < 1000) then .next (s.setReg .pwrHint 0)
  else .next s

/-! ### Temperature (R518) -/

/-- A temperature in eight bits. -/
def celsiusBits (t : Int) : Nat := (t % 256).toNat

/-- WARN or HOT of a die: set above a threshold, cleared 5 °C below it. -/
def thermalFlag (was : Bool) (t limit : Int) : Bool := decide (limit < t) || (was && decide (limit - 5 < t))

/-- One die's hottest sensor. -/
def State.dieTemp (s : State) (d : Nat) (t : Int) : State :=
  let w := thermalFlag (s.rbit (.pwrTemp d) .warn) t 95
  let h := thermalFlag (s.rbit (.pwrTemp d) .hot) t 105
  let s1 := if w && !s.rbit (.pwrTemp d) .warn then s.setRf .pwrEvent .tempWarn 1 else s
  let s2 := if h && !s.rbit (.pwrTemp d) .hot then s1.setRf .pwrEvent .tempHot 1 else s1
  ((s2.setRf (.pwrTemp d) .warn (bval w)).setRf (.pwrTemp d) .hot (bval h)).setRf (.pwrTemp d) .temp (celsiusBits t)

/-- TEMP_READ: the hottest sensor of each die, the Square last. -/
def execTempRead (celsius : List Int) (s : State) : Host.Outcome State Fault Refusal :=
  if s.powerOn && celsius.length == 5 then
    .next ((List.range 5).foldl (fun s d => s.dieTemp d (celsius.getD d 0)) s)
  else .next s

/-! ### Supplies and trips (17 R519; 21 R584, R588) -/

/-- Nothing is held in the coherence fabric. -/
def Coh.empty : Coh := ⟨[], [], [], [], [], [], 0⟩

/-- No translation state. -/
def Xlt.empty : Xlt := ⟨[], [], 0, 0, ⟨[], 0⟩, none, [], none⟩

/-- No transport state. -/
def Pod.empty : Pod := ⟨[], 0, [], [], [], [], [], [], [], [], none, 0, 0, none, none, false, 0, none⟩

/-- The endpoint after its reset: every vector masked, nothing pending or outstanding. -/
def Pcie.empty : Pcie := ⟨[], [], false, false, [], 0, []⟩

/-- The mailbox after a reset. -/
def Doe.empty : Doe := ⟨[], 0, [], .none⟩

/-- Nothing traced. -/
def Obs.empty : Obs := ⟨[], [], [], 0⟩

/-- No activity of the stacks, and nothing in the memory-side copies. -/
def Hbm.empty : Hbm := ⟨[], [], [], [], []⟩

/-- All work in progress is lost: clusters, contexts, queues, cores, translation, transport, links, trace; and what the
caches hold, dirty lines included, so that of device memory the stacks' own bytes remain (10 R348). -/
def State.loseWork (s : State) : State :=
  { s with errSeq := 0, clusters := [], grants := [], launches := [], nextLaunch := 0, ctxs := [], queues := []
           xlt := .empty, coh := .empty, hbm := .empty, mem := s.hbmImage, cores := [], pod := .empty, d2d := [], stops := [], doe := .empty, obs := .empty
           power := ⟨[], [], 0⟩ }

/-- The rails turn off: work and device memory are lost. -/
def State.railsOff (s : State) : State :=
  { s.loseWork with mem := ⟨[], []⟩, pcie := .empty, board := { s.board with rails := false } }

/-- Latch a bit of SB_TRIP, whose latch VAUX3V3 powers. -/
def State.latchTrip (s : State) (i : Nat) : State := if s.board.vaux then s.setBit .sbTrip i else s

/-- THERMTRIP: a die above 115 °C. -/
def execThermtrip (die : Nat) (t : Int) (s : State) : Host.Outcome State Fault Refusal :=
  if !s.board.rails || decide (5 ≤ die) || decide (t ≤ 115) then .next s
  else
    let s1 := s.railsOff.latchTrip die
    let s2 := if s.board.vaux then s1.setRf (.sbTemp die) .tripTemp (celsiusBits t) else s1
    .next { s2 with board := { s2.board with tripped := true } }

/-- VIN48_OUT_OF_RANGE (21 R584). Under a THERMTRIP the rails are off already, and the loss of VIN48 sets UV and
lets the package start again. -/
def execVin48OutOfRange (above : Bool) (s : State) : Host.Outcome State Fault Refusal :=
  if !s.board.vinOk then .next s
  else
    let s1 := { s with board := { s.board with vinOk := false, tripped := s.board.tripped && above } }
    .next (if s.board.rails then s1.railsOff.latchTrip (if above then 8 else 7)
      else if s.board.tripped && !above then s1.latchTrip 7 else s1)

/-- PG_DROP (21 R584): PWRGOOD falls. -/
def execPgDrop (s : State) : Host.Outcome State Fault Refusal :=
  if !s.board.pwrgood then .next s
  else
    let s1 := { s with board := { s.board with pwrgood := false, pgWaiting := false } }
    .next (if s.board.rails then s1.railsOff.latchTrip 6 else s1)

/-- The registers of the sideband, which stand above BAR0. -/
def sidebandBase : Nat := 0x100000000

/-- VAUX_LOSS (21 R583, R588): the sideband, the trip latch and the test port lose their supply. -/
def execVauxLoss (s : State) : Host.Outcome State Fault Refusal :=
  .next { s with regs := s.regs.filter fun e => decide (e.1 < sidebandBase)
                 board := { s.board with vaux := false }
                 sideband := ⟨none, false⟩, tap := ⟨[], [], false⟩ }

/-- VAUX3V3_PRESENT (21 R585). -/
def execVaux3v3Present (s : State) : Host.Outcome State Fault Refusal :=
  .next { s with board := { s.board with vaux := true } }

/-- R588: the pins that the latch and the fatal error drive low. -/
def State.alertLow (s : State) : Bool := s.reg .sbTrip != 0
def State.thermtripLow (s : State) : Bool := s.rf .sbTrip .therm != 0
def State.faultLow (s : State) : Bool := s.fatal

end Sys2Proof.Machine
end

