-- ==== Sys2Proof/Machine/Boot.lean ====
section
/-! DEFINITION. Resets, the bundle, the boot stages and retirement (18_reset_boot_firmware.md R522 to R535; 01 R44 to R51;
11 R371, R372; 13 R595). -/

namespace Sys2Proof

/-- The word that a BAR0 write of 4 or 8 bytes puts in a register's span, with 0 in a half it does not write
(12 R379). -/
def BarWrite.word (w : BarWrite) : Word :=
  if w.size = 8 then w.value else BitVec.ofNat 64 (Machine.fld w.value 0 32 * 2 ^ (8 * (w.offset % 8)))

/-- A BAR0 write is of 4 or 8 bytes and naturally aligned (12 R379). -/
def BarWrite.sized (w : BarWrite) : Bool := (w.size == 4 || w.size == 8) && w.offset % w.size == 0

end Sys2Proof

namespace Sys2Proof.Machine

/-! ### What a reset clears (R523, Table 18.2) -/

/-- The registers that show fuses. -/
def State.showFuses (s : State) : State :=
  (((s.setRf .glbD2dStatus .failed s.fuses.failedLinks).setRf .bootSvn .fwMin s.fuses.fwMin).setRf .bootSvn .revoked
    s.fuses.revoked).showSpares

/-- Boot state before a bundle. The boot SRAM starts as zeros (log 6). -/
def Boot.fresh : Boot := ⟨true, [], 0, false, [], [], 0, [], []⟩

/-- R578: Test-Logic-Reset on every die, and boundary cells in functional mode. -/
def State.tapReset (s : State) : State := { s with tap := ⟨[], s.tap.boundary, false⟩ }

/-- A power-on or cold reset: STAGE is ROM, and everything but fuses, sideband, board and device memory takes its reset
value; device memory is zero-filled in MEMORY. -/
def State.coldReset (s : State) (kind : Nat) : State :=
  let s1 := { s.loseWork with
    regs := s.regs.filter fun e => decide (sidebandBase ≤ e.1)
    acCount := 0, time := 0, timeFrac := 0, pcie := .empty, boot := .fresh }
  s1.showFuses.setRf .bootStatus .lastReset kind

/-- The rails turn on with a power-on reset, if nothing holds them off (21 R584, 17 R519). -/
def State.powerOnStart (s : State) : State :=
  if s.board.vaux && s.board.vinOk && s.board.pwrgood && !s.board.tripped then
    (({ s with board := { s.board with rails := true, pgWaiting := false } }).coldReset 0).tapReset
  else s

/-- POWER_ON_RESET: PWRGOOD rises; while VIN48 is out of range the package waits (21 R584). Whether the board
reference runs then is the board's affair, a free bit (log 142): without it the package never leaves the reset
(01 R31). -/
def execPowerOnReset (s : State) : Host.Outcome State Fault Refusal :=
  if s.board.pwrgood then .next s
  else
    let r := s.freshBit
    .next ({ r.1 with board := { s.board with
      pwrgood := true, pgWaiting := !s.board.vinOk, reference := r.2 } }).powerOnStart

/-- VIN48_IN_RANGE: a PWRGOOD that rose while VIN48 was out of range now counts as high. -/
def execVin48InRange (s : State) : Host.Outcome State Fault Refusal :=
  let s1 := { s with board := { s.board with vinOk := true } }
  .next (if s.board.pgWaiting then s1.powerOnStart else s1)

/-- PERST_RELEASE (20 R578, 21 R585): the ROM stage may run. -/
def execPerstRelease (s : State) : Host.Outcome State Fault Refusal :=
  if s.board.perst then .next ({ s with board := { s.board with perst := false } }).tapReset else .next s

/-- A reset asked for at the wrong time is counted (R525, R526). -/
def State.refuseReset (s : State) : State := s.satRf .bootStatus .resetRefused 1

/-- R526: COLD written to BOOT_RESET takes effect at any stage, but not while a reset is in its ROM stage. -/
def State.coldWrite (s : State) : State := if s.stage = 0 then s.refuseReset else s.coldReset 1

/-- COLD: PERST# is asserted, or COLD is written. -/
def execCold (source : Option BarWrite) (s : State) : Host.Outcome State Fault Refusal :=
  match source with
  | none =>
    if s.board.perst then .next s
    else
      let s1 := { s with board := { s.board with perst := true } }
      .next (if s.board.rails then s1.coldReset 1 else s1)
  | some w =>
    if s.blockOpen .boot w.master && w.sized && w.offset / 8 * 8 == Reg.bootReset.addr && bit w.word.toNat 63 then
      .next s.coldWrite
    else .next s

/-! ### Keep-memory reset (R525) -/

/-- The lines of which some copy may be dirty. -/
def State.cachedLines (s : State) : List Nat :=
  let keys := fun (l : List Nat) (n : Nat) => setInsert l n
  let a := s.coh.agents.foldl (fun l e =>
    let l1 := e.2.lines.foldl (fun l x => keys l x.1) l
    let l2 := e.2.wbs.foldl (fun l x => keys l x.1) l1
    e.2.reqs.foldl (fun l x => keys l x.1) l2) []
  s.coh.msgs.foldl (fun l m => match m with
    | .data _ n _ _ _ _ => keys l n
    | _ => l) a

/-- CLEAN_INV with ALL on every Sweep engine (R525, 10 R348): every dirty line and sector is written to its stack, and
every copy given up. -/
def State.cleanCaches (s : State) : State :=
  let s1 := s.cachedLines.foldl (fun t n =>
    match s.dirtyCopy n with
    | some (d, p) => t.memTake n d p
    | none => t) s
  let s2 := (s1.hbm.side.map Prod.fst).foldl (fun t n => t.sweepSide true n) s1
  { s2 with coh := .empty }

/-- Registers that a keep-memory reset leaves (R523): the sideband's, the operating point, LOCAL_K, the clocks, the
time servo's settings and the link's status. -/
def keptByKeepMem (a : Nat) : Bool :=
  decide (sidebandBase ≤ a) || a == Reg.pwrOp.addr || a == Reg.glbMemPlace.addr || a == Reg.glbClkStatus.addr ||
    a == Reg.podTimeCtl.addr || a == Reg.hqLinkStatus.addr

/-- Every live context fails: its work ends, bytes that had not left a cluster's L1 are cleaned (19 R547, R548), and
the job of one that is bound hears of it (16 R495). -/
def State.failAll (s : State) : State := s.ctxs.foldl (fun s e => (s.endCtxWork e.1).abortJob e.1) s

/-! ### The bundle (R527, R528) -/

/-- `n` bytes of the boot SRAM. -/
def State.sramBytes (s : State) (off n : Nat) : List Byte :=
  (List.range n).map fun i => Table.get 0 s.boot.sram (off + i)

/-- A little-endian field of the boot SRAM. -/
def State.sramNat (s : State) (off n : Nat) : Nat := leNat (s.sramBytes off n)

/-- Every byte of a span of the boot SRAM is 0. -/
def State.sramZero (s : State) (lo hi : Nat) : Bool := s.boot.sram.all fun e => decide (e.1 < lo) || decide (hi ≤ e.1)

/-- The parts of the bundle: firmware, configuration, runtime, as offset and length. -/
def State.parts (s : State) : List (Nat × Nat) :=
  [(s.sramNat 0x10 4, s.sramNat 0x14 4), (s.sramNat 0x18 4, s.sramNat 0x1C 4), (s.sramNat 0x20 4, s.sramNat 0x24 4)]

/-- A part. -/
def State.part (s : State) (i : Nat) : List Byte :=
  let p := s.parts.getD i (0, 0)
  s.sramBytes p.1 p.2

/-- A field of the boot configuration (Table 18.4). -/
def State.cfgNat (s : State) (off n : Nat) : Nat := s.sramNat (s.sramNat 0x18 4 + off) n

/-- No two spans of a list share a byte. -/
def disjoint : List (Nat × Nat) → Bool
  | [] => true
  | p :: t => (t.all fun q => !overlap p.1 p.2 q.1 q.2) && disjoint t

/-- Table 18.3 holds. -/
def State.headerOk (s : State) : Bool :=
  let total := s.sramNat 0xC 4
  s.sramNat 0 4 == 0x4C4D5242 && s.sramNat 4 2 == 1 && decide (s.sramNat 6 2 < 2) && decide (s.sramNat 8 4 ≤ 64) &&
    decide (0x2000 ≤ total) && decide (total ≤ 0x800000) && decide (s.sramNat 0x28 1 < 4) &&
    s.sramZero 0x29 0x40 && s.sramZero 0x14CD 0x2000 && decide (s.sramNat 0x14 4 ≤ 0x80000) && disjoint s.parts &&
    s.parts.all fun p => decide (0x2000 ≤ p.1) && p.1 % 4096 == 0 && decide (p.1 + p.2 ≤ total)

/-- R528: the signature is good. -/
def State.signatureOk (s : State) : Bool :=
  let key := s.sramBytes 0x40 1952
  let d := Config.shake256 (s.sramBytes 0x2000 (s.sramNat 0xC 4 - 0x2000)) 64
  Config.shake256 key 32 == Config.keyDigest (s.sramNat 0x28 1) &&
    Config.mldsa65Verify key (s.sramBytes 0 0x7E0 ++ d) (s.sramBytes 0x7E0 3309)

/-- Table 18.4 holds. -/
def State.configOk (s : State) : Bool :=
  decide (0x90 ≤ s.sramNat 0x1C 4) && decide (s.cfgNat 0 1 ≤ 2) && decide (s.cfgNat 1 1 ≤ 48) &&
    ((List.range 6).all fun p => decide (s.cfgNat (2 + p) 1 ≤ 2)) && s.cfgNat 0xC 4 == 0

/-- R528: the ERROR code of the first check that fails, 0 for none. -/
def State.verdict (s : State) : Nat :=
  if !s.headerOk then 1
  else if bit s.fuses.revoked (s.sramNat 0x28 1) then 2
  else if !s.signatureOk then 3
  else if s.sramNat 8 4 < s.fuses.fwMin then 4
  else if !s.configOk then 5
  else 0

/-- Enter VERIFY: the ROM checks the bundle that the boot SRAM holds. -/
def State.startVerify (s : State) : State :=
  let s1 := s.setRf .bootStatus .stage stVerify
  { s1 with boot := { s1.boot with verdict := s.verdict } }

/-- R534: GO in BOOT_CTL is ignored outside WAIT_IMAGE. -/
def State.goWrite (s : State) (v : Word) : State := if bit v.toNat 63 && s.stage == 1 then s.startVerify else s

/-- VERIFY. -/
def execVerify (m : Master) (v : Word) (s : State) : Host.Outcome State Fault Refusal :=
  if s.blockOpen .boot m then .next (s.goWrite v) else .next s

/-- The end of VERIFY: the ROM copies the firmware and jumps to it, or waits for another bundle with ERROR set. -/
def State.endVerify (s : State) : State :=
  if s.boot.verdict = 0 then
    let s1 := { s with boot := { s.boot with firmware := s.part 0 } }
    let s2 := (s1.setRf .bootSvn .bundleSvn (s.sramNat 8 4)).setRf .bootSvn .keySlot (s.sramNat 0x28 1)
    (s2.setRf .bootStatus .stage 3).setRf .bootStatus .error 0
  else (s.setRf .bootStatus .error s.boot.verdict).setRf .bootStatus .stage 1

/-- R525: the keep-memory reset, which enters VERIFY with the bundle in boot SRAM. -/
def State.keepMemReset (s : State) : State :=
  let s1 := s.failAll.cleanCaches.loseWork
  let s2 := { s1 with
    regs := s1.regs.filter fun e => keptByKeepMem e.1
    acCount := 0
    pcie := { s1.pcie with apReads := [], written := [] }
    boot := { Boot.fresh with sram := s.boot.sram, keepMem := true } }
  (s2.showFuses.setRf .bootStatus .lastReset 2).startVerify

/-- A KEEP_MEM write. -/
def State.keepMemWrite (s : State) : State :=
  if s.stage = stReady ∧ !s.rbit .glbClkStatus .lockLost ∧ !s.fatal ∧ s.rf .bootStatus .health = 0 then s.keepMemReset
  else s.refuseReset

/-- A write of BOOT_RESET; COLD goes before KEEP_MEM. -/
def State.resetWrite (s : State) (v : Word) : State :=
  if bit v.toNat 63 then s.coldWrite else if bit v.toNat 62 then s.keepMemWrite else s

/-- KEEP_MEM. -/
def execKeepMem (m : Master) (v : Word) (s : State) : Host.Outcome State Fault Refusal :=
  if s.blockOpen .boot m && bit v.toNat 62 then .next (s.resetWrite v) else .next s

/-! ### Stages (R532, R533) -/

/-- HALTED with an ERROR: boot mode ends with every window disabled. -/
def State.halt (s : State) (error : Nat) : State :=
  let s1 := { s with boot := { s.boot with mode := false } }
  (s1.setRf .bootStatus .stage stHalted).setRf .bootStatus .error error

/-- The package is in a boot stage. -/
def State.inStage (s : State) (n : Nat) : Bool := s.endpoint && s.stage == n && !s.fatal

/-- The end of the ROM stage: WAIT_IMAGE. -/
def State.endRom (s : State) : State := s.setRf .bootStatus .stage 1

def execRomTime (s : State) : Host.Outcome State Fault Refusal := if s.inStage 0 then .next (s.halt 11) else .next s

def execVerifyTime (s : State) : Host.Outcome State Fault Refusal :=
  if s.inStage stVerify then .next (s.halt 12) else .next s

/-- BOOT_STAGE_OVERRUN: a stage from CLOCKS (3) to SERVICES (7) takes too long: ERROR 6 to 10. -/
def execBootStageOverrun (s : State) : Host.Outcome State Fault Refusal :=
  if s.endpoint && decide (3 ≤ s.stage) && decide (s.stage ≤ 7) && !s.fatal then .next (s.halt (s.stage + 3))
  else .next s

/-- The rails of an operating point in mV: compute dies, Square, SRAM (17 Table 17.1). -/
def railsOf (op : Nat) : Nat × Nat × Nat :=
  match op with
  | 0 => (780, 800, 850)
  | 1 => (720, 750, 800)
  | _ => (660, 700, 750)

/-- The root multiplier of an operating point (01 Table 1.7). -/
def multOf (op : Nat) : Nat :=
  match op with
  | 0 => 252
  | 1 => 234
  | _ => 216

/-- CLOCKS: the rails and the root multiplier, then lock. A keep-memory reset leaves the operating point. -/
def execClocks (locked : Bool) (s : State) : Host.Outcome State Fault Refusal :=
  if !s.inStage 3 then .next s
  else if !locked then .next (s.halt 6)
  else
    let op := if s.boot.keepMem then s.rf .pwrOp .op else s.cfgNat 0 1
    let v := railsOf op
    let s1 := ((s.setRf .pwrOp .op op).setRf .pwrOp .vcdMv v.1).setRf .pwrOp .vsqMv v.2.1
    let s2 := ((s1.setRf .pwrOp .vsramMv v.2.2).setRf .glbClkStatus .mult (multOf op)).setRf .glbClkStatus .followLock 15
    .next ((s2.setRf .glbClkStatus .rootLock 1).setRf .bootStatus .stage 4)

/-- LINKS (01 R44): a slice that fails training is a failed link, logged as D2D_WIRE_FAIL. -/
def execLinks (failedSlices : List (Nat × Nat × Nat)) (s : State) : Host.Outcome State Fault Refusal :=
  if !s.inStage 4 then .next s
  else
    let bad := (List.range 8).filter fun l => failedSlices.any fun x =>
      x.1 == l && decide (x.2.1 < 2) && decide (x.2.2 < linkSlices l)
    let good := ((List.range 8).filter fun l => !bad.contains l).foldl (fun a l => a + 2 ^ l) 0
    let s1 := ({ s with d2d := [], stops := [] }).setRf .glbD2dStatus .trained good
    if bad = [] then .next (s1.setRf .bootStatus .stage 5)
    else .next ((((bad.foldl State.fuseLink s1).setRf .bootStatus .health 2).packageFatal Code.d2dWireFail
      (bad.headD 0)).halt 7)

/-! ### The cluster map (01 R46, R49) -/

/-- A die's map: physical cluster by index, free spares, and whether a swap found none. -/
structure DieMap where
  phys : List Nat
  free : List Nat
  due : Bool
  deriving DecidableEq, Repr

/-- R49, one entry. -/
def DieMap.apply (m : DieMap) (entry : Nat) : DieMap :=
  if !bit entry 15 || !entryCheckOk entry then m
  else
    let p := bits entry 4 8
    if m.free.contains p then { m with free := m.free.filter fun x => x != p }
    else if m.phys.contains p then
      match m.free with
      | [] => { m with due := true }
      | f :: rest => { m with phys := m.phys.map fun x => if x = p then f else x, free := rest }
    else m

/-- R49: a die's map from its first `n` entries. -/
def State.dieMapFrom (s : State) (d n : Nat) : DieMap :=
  (List.range n).foldl (fun m e => m.apply (Table.get 0 s.fuses.entries (4 * d + e)))
    ⟨List.range 176, [176, 177, 178, 179], false⟩

/-- R49: a die's map from its four entries. -/
def State.dieMap (s : State) (d : Nat) : DieMap := s.dieMapFrom d 4

/-- The map shows in GLB_PHYS_MAPn. -/
def State.showMap (s : State) : State :=
  let all := (List.range 4).flatMap fun d => (s.dieMap d).phys
  (List.range 88).foldl (fun s n =>
    s.setReg (.glbPhysMap n) (BitVec.ofNat 64 (leNat (((all.drop (8 * n)).take 8).map (BitVec.ofNat 8))))) s

/-- R46: at a cold reset every spare that the map in force before it did not use is tested, and one that fails is
retired with reason 1, before the map is built: a spare that an entry written since would take is among them (R51). -/
def State.selfTest (s : State) (fails : List (Nat × Nat)) : State :=
  fails.foldl (fun t x =>
    if x.1 < 4 ∧ (s.dieMapFrom x.1 (Table.get 0 s.fuses.inForce x.1)).free.contains x.2 then t.writeEntry x.1 x.2 1
    else t) s

/-- The map that is built takes every entry written so far. -/
def State.mapInForce (s : State) : State :=
  { s with fuses := { s.fuses with
    inForce := (List.range 4).foldl (fun t d =>
      Table.set 0 t d ((List.range 4).filter fun e => bit (Table.get 0 s.fuses.entries (4 * d + e)) 15).length) [] } }

/-- R535: replacement is due. -/
def State.replacementDue (s : State) : Bool :=
  (List.range 4).any (fun d => (s.dieMap d).due) || s.fuses.failedLinks != 0 || s.fuses.failedStacks != 0

/-- CLUSTERS: self-test, map, and the invalidation of Table 10.9, whose structures the reset has emptied. -/
def execClusters (selftestFails : List (Nat × Nat)) (s : State) : Host.Outcome State Fault Refusal :=
  if !s.inStage 5 then .next s
  else
    let s1 := (if s.boot.keepMem then s else s.selfTest selftestFails).showMap.mapInForce
    if s1.replacementDue || s1.rf .bootStatus .health == 2 then .next ((s1.setRf .bootStatus .health 2).halt 8)
    else .next ((s1.setRf .bootStatus .health 0).setRf .bootStatus .stage 6)

/-- MEMORY (11 R371, R372): training, then the zero fill or the end of self refresh. -/
def execMemory (trained : BitVec 20) (s : State) : Host.Outcome State Fault Refusal :=
  if !s.inStage 6 then .next s
  else
    let s1 := (List.range 20).foldl (fun s n =>
      (s.setRf (.glbMemStat n) .trained (bval (trained.getLsbD n))).setRf (.glbMemStat n) .failed
        (bval (!trained.getLsbD n))) s
    if trained ≠ BitVec.allOnes 20 then
      let f := s.fuses.failedStacks ||| (2 ^ 20 - 1 - trained.toNat)
      .next ((({ s1 with fuses := { s1.fuses with failedStacks := f } }).setRf .bootStatus .health 2).halt 9)
    else
      let s2 := if s.boot.keepMem then s1
        else ({ s1 with mem := ⟨[], []⟩ }).setRf .glbMemPlace .localK (s.cfgNat 1 1)
      .next (s2.setRf .bootStatus .stage 7)

/-! ### SERVICES (R532, R595) -/

/-- The first physical address of the pod state of 15 R466: the top 192 MiB of the interleaved region. -/
def podStateAddr : Nat := 0xF000000000 - 192 * 2 ^ 20

/-- The context record of context 0. -/
def State.ctxZeroRecord (s : State) : List Byte := s.sramBytes (s.sramNat 0x20 4) 128

/-- R595: context 0's record passes its checks. -/
def State.ctxZeroOk (s : State) : Bool :=
  let r := s.ctxZeroRecord
  decide (128 ≤ s.sramNat 0x24 4) && recNat r 0 1 == 0 && ctxRecordOk r 1

/-- Measurements 2 to 6 (Table 18.7). -/
def State.measure (s : State) : List (List Byte) :=
  let fuse := leBytes 1 s.fuses.fwMin ++ leBytes 1 s.fuses.revoked ++
    (List.range 16).flatMap fun e => leBytes 2 (Table.get 0 s.fuses.entries e)
  [Config.sha3_384 s.boot.firmware, Config.sha3_384 (s.part 1), Config.sha3_384 (s.part 2), Config.sha3_384 fuse,
    leBytes 1 (s.rf .bootStatus .health) ++ leBytes 1 (s.rf .bootStatus .lastReset) ++
      leBytes 6 (s.rf .bootSvn .bundleSvn)]

/-- R529: FW_MIN rises to SVN when COMMIT_SVN asks for it. -/
def State.commitSvn (s : State) : State :=
  let svn := s.sramNat 8 4
  if bit (s.sramNat 6 2) 0 && decide (s.fuses.fwMin < svn) then
    ({ s with fuses := { s.fuses with fwMin := svn } }).setRf .bootSvn .fwMin svn
  else s

/-- SERVICES: the pod state, the ports' modes, the measurements, context 0, and the end of boot mode; a link trained at
another width than 8 or 16 lanes keeps the package here (12 R374). -/
def execServices (s : State) : Host.Outcome State Fault Refusal :=
  if !s.inStage 7 || s.pcie.otherWidth then .next s
  else if !s.ctxZeroOk then .next (s.halt 10)
  else
    let ports := (List.range 6).map fun p => s.cfgNat (2 + p) 1
    let s1 := { s with boot := { s.boot with
      mode := false, ports := ports, subsys := s.cfgNat 8 4, measurements := s.measure
      progKeys := (List.range 4).map fun k => s.sramBytes (s.sramNat 0x18 4 + 0x10 + 32 * k) 32 } }
    let s2 := (ports.zip (List.range 6)).foldl (fun s p => s.setRf (.podPortStatus p.2) .mode p.1) s1
    let s3 := (s2.setRf .podStateBase .base (podStateAddr / 2 ^ 21)).createCtx 0 s.ctxZeroRecord false
    .next (s3.commitSvn.setRf .bootStatus .stage stReady)

/-! ### Function Level Reset (R523, R524) -/

/-- Registers that an FLR leaves: those outside the HQ, BELL, XLT, FLT, OBS and POD blocks, and the exceptions of
R523; the status of the link and of the ports, and the base that boot set, stay too. -/
def keptByFlr (a : Nat) : Bool :=
  let b := blockAt a
  decide (sidebandBase ≤ a) || !(b == .hq || b == .bell || b == .xlt || b == .flt || b == .obs || b == .pod) ||
    a == Reg.podTimeCtl.addr || a == Reg.fltFatal.addr || (decide (0x204800 ≤ a) && decide (a < 0x204800 + 88)) ||
    a == Reg.hqLinkStatus.addr || a == Reg.podStateBase.addr

/-- The ports stay as they are. -/
def State.keepPorts (s old : State) : State :=
  (List.range 6).foldl (fun s p =>
    (s.setRf (.podPortStatus p) .up (old.rf (.podPortStatus p) .up)).setRf (.podPortStatus p) .mode
      (old.rf (.podPortStatus p) .mode)) s

/-- What an FLR clears while no fatal error has stopped the package (R523): every context fails, the L1s are cleaned
and invalidated, the runtime stops on the cores. -/
def State.functionLevelReset (s : State) : State :=
  let s0 := (List.range 704).foldl (fun s c =>
    let l := (s.cluster c).l1
    (l.foldl (fun s x => s.l1Clean c x) s).l1InvAll c) s.failAll
  let clusters := s0.clusters.foldl (fun t e =>
    Table.set .idle t e.1 { Cluster.idle with split := e.2.split }) []
  let s1 := { s0 with
    regs := s0.regs.filter fun e => keptByFlr e.1
    errSeq := 0, clusters := clusters, grants := [], launches := [], ctxs := [], queues := [], xlt := .empty, cores := []
    pod := { Pod.empty with timeSet := s0.pod.timeSet, timeHold := s0.pod.timeHold, rate := s0.pod.rate,
                            lockFrom := s0.pod.lockFrom, source := s0.pod.source
                            grandmaster := s0.pod.grandmaster, ptpSeq := s0.pod.ptpSeq }
    pcie := { Pcie.empty with otherWidth := s0.pcie.otherWidth }, obs := .empty, doe := { s0.doe with replies := [] } }
  ((s1.setRf .hqLinkStatus .downCount 0).keepPorts s).setRf .bootStatus .lastReset 3

/-- A keep-memory reset runs: it has left READY and not reached it, or HALTED, again. -/
def State.keepMemRuns (s : State) : Bool := s.boot.keepMem && decide (s.stage ≠ stReady ∧ s.stage ≠ stHalted)

/-- FUNCTION_LEVEL_RESET: after a package-fatal error, nothing beyond the configuration space, of which the function
mask is held; during a keep-memory reset nothing (R526). In READY the runtime starts again with context 0 (log 110). -/
def execFunctionLevelReset (s : State) : Host.Outcome State Fault Refusal :=
  if s.fatal then .next { s with pcie := { s.pcie with funcMask := false } }
  else if s.ready then .next (s.functionLevelReset.createCtx 0 s.ctxZeroRecord false)
  else if s.endpoint && !s.keepMemRuns then .next s.functionLevelReset
  else .next s

/-! ### Retirement (R535) -/

/-- A write of BOOT_RETIRE. -/
def State.retireWrite (s : State) (v : Word) : State :=
  let n := fld v 0 10
  let s1 := s.setRf .bootRetire .logical n
  let s2 := if bit v.toNat 62 then s1.setRf .bootRetire .refused 0 else s1
  if !bit v.toNat 63 || !s.ready then s2
  else if 704 ≤ n then s2.setRf .bootRetire .refused 1
  else
    match s2.freeEntry (n / 176) with
    | none => (s2.setRf .bootRetire .refused 1).setRf .bootStatus .health 2
    | some _ => (s2.setRf .bootRetire .refused 0).clusterFail n Code.hostRetire

/-- RETIREMENT_REQUEST. -/
def execRetirementRequest (m : Master) (v : Word) (s : State) : Host.Outcome State Fault Refusal :=
  if s.blockOpen .boot m then .next (s.retireWrite v) else .next s

end Sys2Proof.Machine
end

