-- ==== Sys2Proof/Machine/Session.lean ====
section
/-! DEFINITION. The DOE mailbox and attestation over it (12_host_interface.md R395, R396; 18_reset_boot_firmware.md R538
to R540). A request is a whole DOE data object; its header and the SPDM message's first bytes are laid out as the
PCI-SIG and DMTF documents do that the spec names (log 40). -/

namespace Sys2Proof.Machine

/-! ### Objects and messages -/

/-- The largest request object. -/
def doeLimit : Nat := 65536

/-- The vendor and the type of a DOE data object. -/
def doeVendor (r : List Byte) : Nat := leNat (r.take 2)
def doeType (r : List Byte) : Nat := (r.getD 2 0).toNat

/-- The object behind its header of 8 bytes: for types 1 and 2 an SPDM message, whose bytes 0, 2 and 3 are its version
and two parameters. -/
def doePayload (r : List Byte) : List Byte := r.drop 8
def spdmVersion (m : List Byte) : Nat := (m.getD 0 0).toNat
def spdmParam1 (m : List Byte) : Nat := (m.getD 2 0).toNat
def spdmParam2 (m : List Byte) : Nat := (m.getD 3 0).toNat

/-- The mailbox answers a request. -/
def State.doeReply (s : State) (r : DoeReply) : State :=
  { s with doe := { s.doe with replies := s.doe.replies ++ [r] } }

/-- R540: SPDM is answered with ERROR, Busy: before SERVICES, and in HALTED when the firmware never ran. -/
def State.spdmBusy (s : State) : Bool :=
  let e := s.rf .bootStatus .error
  decide (s.stage < 7) || (s.stage == stHalted && (e == 11 || e == 12))

/-- The connection has negotiated through `n` of GET_VERSION, GET_CAPABILITIES, NEGOTIATE_ALGORITHMS. -/
def State.negotiated (s : State) (n : Nat) : State := { s with doe := { s.doe with negotiated := n } }

/-- The transcript takes a message. -/
def State.spdmRecord (s : State) (m : List Byte) : State :=
  { s with doe := { s.doe with transcript := s.doe.transcript ++ m } }

/-- The secured session's phase. -/
def State.setSession (s : State) (p : SessionPhase) : State := { s with doe := { s.doe with session := p } }

/-- R395: a data object of the PCI-SIG, whose vendor ID is 0x0001, and of one of some types. -/
def doeIs (r : List Byte) (types : List Nat) : Bool := doeVendor r == 1 && types.contains (doeType r)

/-- Serve an SPDM request, a CMA/SPDM object of type 1 or a secured one of type 2: the mailbox answers if the endpoint
runs, an object that is too long or of another kind with the DOE error response, one that comes too early with Busy, one of another version with UnsupportedRequest. -/
def State.spdm (s : State) (version : Nat) (request : List Byte) (serve : State → List Byte → State) : State :=
  if !s.endpoint then s
  else if doeLimit < request.length || !doeIs request [1, 2] then s.doeReply .doeError
  else if s.spdmBusy then s.doeReply .busy
  else if spdmVersion (doePayload request) ≠ version then s.doeReply .unsupported
  else serve s (doePayload request)

/-- SPDM 1.4. -/
def spdm14 : Nat := 0x14

/-- A request that needs the negotiation through step `n`; before it the answer is UnexpectedRequest. -/
def State.afterStep (s : State) (n : Nat) (m : List Byte) (serve : State → State) : State :=
  if s.doe.negotiated < n then s.doeReply .unexpected else serve (s.spdmRecord m)

/-! ### DOE -/

/-- DOE_DISCOVERY (R395): the vendor 0x0001 and the type at the index asked for, and the next index, 0 after the last. -/
def execDoeDiscovery (request : List Byte) (s : State) : Host.Outcome State Fault Refusal :=
  if !s.endpoint then .next s
  else if doeLimit < request.length || !doeIs request [0] then .next (s.doeReply .doeError)
  else
    let i := ((doePayload request).getD 0 0).toNat
    .next (if 2 < i then s.doeReply .doeError else s.doeReply (.discovery 1 i ((i + 1) % 3)))

/-- UNSUPPORTED_DOE_OBJECT (R395, R396). -/
def execUnsupportedDoeObject (request : List Byte) (s : State) : Host.Outcome State Fault Refusal :=
  if s.endpoint && (decide (doeLimit < request.length) || decide (2 < doeType request) || doeVendor request != 1) then
    .next (s.doeReply .doeError)
  else .next s

/-- DOE_ABORT (R396). -/
def execDoeAbort (s : State) : Host.Outcome State Fault Refusal :=
  .next (if s.endpoint then { s with doe := { s.doe with replies := [] } } else s)

/-! ### Negotiation -/

/-- GET_VERSION starts a connection anew; its own version is 1.0. -/
def execGetVersion (request : List Byte) (s : State) : Host.Outcome State Fault Refusal :=
  .next (s.spdm 0x10 request fun s m =>
    ((({ s with doe := { s.doe with transcript := [] } }).spdmRecord m).negotiated 1).doeReply .version)

/-- GET_CAPABILITIES. -/
def execGetCapabilities (request : List Byte) (s : State) : Host.Outcome State Fault Refusal :=
  .next (s.spdm spdm14 request fun s m =>
    s.afterStep 1 m fun s => (s.negotiated 2).doeReply .capabilities)

/-- NEGOTIATE_ALGORITHMS: the four algorithms of R539, or UnsupportedRequest. -/
def execNegotiateAlgorithms (request : List Byte) (s : State) : Host.Outcome State Fault Refusal :=
  .next (s.spdm spdm14 request fun s m =>
    if Config.offersAlgorithms m then s.afterStep 2 m fun s => (s.negotiated 3).doeReply .algorithms
    else s.doeReply .unsupported)

/-! ### Certificates and measurements (R536 to R538) -/

/-- The measurements 2 to 6; in HALTED before SERVICES has taken them, as the bundle gives them. -/
def State.attested (s : State) : List (List Byte) :=
  if s.boot.measurements.isEmpty then s.measure else s.boot.measurements

/-- The chain of slot 0. -/
def State.certChain (s : State) : List Byte :=
  let m := s.attested
  Config.certChain (m.getD 0 []) (m.getD 1 []) (m.getD 2 [])

/-- The measurement of an index of Table 18.7. -/
def State.measurement (s : State) (i : Nat) : List Byte :=
  if i = 1 then Config.romHash else s.attested.getD (i - 2) []

/-- The alias key signs the transcript so far. -/
def State.aliasSigned (s : State) : State × List Byte :=
  ({ s with free := s.free + 1 }, Config.aliasSign (Config.sha3_384 s.doe.transcript) s.free)

/-- GET_DIGESTS. -/
def execGetDigests (request : List Byte) (s : State) : Host.Outcome State Fault Refusal :=
  .next (s.spdm spdm14 request fun s m =>
    s.afterStep 3 m fun s => s.doeReply (.digests (Config.sha3_384 s.certChain)))

/-- GET_CERTIFICATE: a portion of the chain of slot 0; the other slots are empty (R538). -/
def execGetCertificate (request : List Byte) (s : State) : Host.Outcome State Fault Refusal :=
  .next (s.spdm spdm14 request fun s m =>
    s.afterStep 3 m fun s =>
      if spdmParam1 m % 16 ≠ 0 then s.doeReply .invalid
      else
        let rest := s.certChain.drop (leNat ((m.drop 4).take 2))
        let n := leNat ((m.drop 6).take 2)
        s.doeReply (.certificate (rest.take n) (rest.length - n)))

/-- CHALLENGE, signed by the alias key. Parameter 2 asks for a hash of the measurements. -/
def execChallenge (request : List Byte) (s : State) : Host.Outcome State Fault Refusal :=
  .next (s.spdm spdm14 request fun s m =>
    s.afterStep 3 m fun s =>
      if spdmParam1 m ≠ 0 then s.doeReply .invalid
      else
        let all := (List.range 6).flatMap fun i => s.measurement (i + 1)
        let r := s.aliasSigned
        r.1.doeReply (.challengeAuth (Config.sha3_384 s.certChain)
          (if spdmParam2 m = 0 then [] else Config.sha3_384 all) r.2))

/-- GET_MEASUREMENTS: how many there are (parameter 2 is 0), one, or all (255), signed where bit 0 of parameter 1 asks
for it. -/
def execGetMeasurements (request : List Byte) (s : State) : Host.Outcome State Fault Refusal :=
  .next (s.spdm spdm14 request fun s m =>
    s.afterStep 3 m fun s =>
      let i := spdmParam2 m
      if 6 < i ∧ i ≠ 255 then s.doeReply .invalid
      else
        let blocks := if i = 0 then [] else
          (if i = 255 then [1, 2, 3, 4, 5, 6] else [i]).map fun k => (k, s.measurement k)
        if bit (spdmParam1 m) 0 then
          let r := s.aliasSigned
          r.1.doeReply (.measurements 6 blocks r.2)
        else s.doeReply (.measurements 6 blocks []))

/-! ### The secured session -/

/-- KEY_EXCHANGE: one session at a time. -/
def execKeyExchange (request : List Byte) (s : State) : Host.Outcome State Fault Refusal :=
  .next (s.spdm spdm14 request fun s m =>
    s.afterStep 3 m fun s =>
      if s.doe.session ≠ .none then s.doeReply .sessionLimit
      else
        let r := s.aliasSigned
        (r.1.setSession .exchanging).doeReply (.keyExchangeRsp (Config.kemEncap m s.free) r.2))

/-- FINISH: the session opens if the message verifies under its keys, and ends otherwise. -/
def execFinish (request : List Byte) (s : State) : Host.Outcome State Fault Refusal :=
  .next (s.spdm spdm14 request fun s m =>
    s.afterStep 3 m fun s =>
      if s.doe.session ≠ .exchanging then s.doeReply .unexpected
      else if Config.sessionAuth m s.free then
        (({ s with free := s.free + 1 }).setSession .opened).doeReply .finishRsp
      else (({ s with free := s.free + 1 }).setSession .none).doeReply .decryptError)

/-- A message within the open session: answered if it verifies under the session's keys. -/
def State.inSession (s : State) (m : List Byte) (serve : State → State) : State :=
  if s.doe.session ≠ .opened then s.doeReply .unexpected
  else if Config.sessionAuth m s.free then serve { s with free := s.free + 1 }
  else ({ s with free := s.free + 1 }).doeReply .decryptError

/-- END_SESSION. -/
def execEndSession (request : List Byte) (s : State) : Host.Outcome State Fault Refusal :=
  .next (s.spdm spdm14 request fun s m => s.inSession m fun s => (s.setSession .none).doeReply .endSessionAck)

/-- HEARTBEAT. -/
def execHeartbeat (request : List Byte) (s : State) : Host.Outcome State Fault Refusal :=
  .next (s.spdm spdm14 request fun s m => s.inSession m fun s => s.doeReply .heartbeatAck)

/-- UNSUPPORTED_SPDM_REQUEST (R539), of whatever version. -/
def execUnsupportedSpdmRequest (request : List Byte) (s : State) : Host.Outcome State Fault Refusal :=
  .next (if !s.endpoint then s
    else if doeLimit < request.length then s.doeReply .doeError
    else if s.spdmBusy then s.doeReply .busy
    else s.doeReply .unsupported)

end Sys2Proof.Machine
end

