-- ==== Sys2Proof/Machine/Observe.lean ====
section
/-! DEFINITION. CAIRN, the trace collector, the counters' controls, and the test access port
(06_instruction_set.md R217; 20_observation_and_test.md R565 to R579). -/

namespace Sys2Proof.Machine

/-! ### CAIRN -/

/-- CAIRN (R217): a marker with a 64-bit payload. A rope whose source must wait for room goes on waiting to issue. -/
def execCairn (i : Issue) (f : IFmt) (s : State) : Host.Outcome State Fault Refusal :=
  issueWait i f.guard
    { legal := !f.res && f.dst == 0 && uLegal f.sa.toNat
      range := fun _ => true
      ropeLevel := true } s
    fun s k =>
      match s.trace (ropeSrc k.c k.slot) 0 k.ctx kCairn f.imm.toNat (k.rope.ureg f.sa.toNat).toNat with
      | some s1 => (s1.finish k k.rope, true)
      | none => (s, false)

/-! ### The collector (R568, R569) -/

/-- The source that round robin reaches next, of those with records waiting: the lowest number above the last one
admitted, or the lowest of all. -/
def State.traceNext (s : State) : Option Nat :=
  match s.obs.queues.find? fun e => decide (s.obs.last < e.1) with
  | some e => some e.1
  | none => (s.obs.queues.head?).map Prod.fst

/-- A record stands in the ring: PRODUCER advances, and TRACE_WATER is set when the occupancy reaches WATER. -/
def State.traceStored (s : State) (r : BitVec 256) : State :=
  let s1 := (s.wrapRf .obsTracePtr .producer 1).countPkg 16 0 (recordCtx r) 1
  let w := s1.rf .obsTraceCtl .water
  if w ≠ 0 ∧ s1.traceUsed = w then s1.setRf .obsEvent .traceWater 1 else s1

/-- The collector takes the oldest record of a source, writes it to the ring or discards it. -/
def State.traceTake (s : State) (f : TraceFrom) (r : BitVec 256) (rest : List (BitVec 256)) : State :=
  let s0 := s.setTraceQueue f.key rest
  let s1 := { s0 with obs := { s0.obs with last := f.key } }
  let s2 :=
    if s.traceSize ≤ s.traceUsed then s1.traceDrop f.key (recordCtx r)
    else
      let slot := s.rf .obsTracePtr .producer % s.traceSize
      match s1.squareWrite 0 (s.rf .obsTraceRing .base * 4096 + 32 * slot) (leBytes 32 r.toNat) with
      | some t => t.traceStored r
      | none => s1.traceDrop f.key (recordCtx r)
  s2.traceLost f (bits r.toNat 28 8)

/-- TRACE_ADMIT: the collector admits one record of the source whose turn it is; under STALL it waits while the ring
is full. -/
def execTraceAdmit (source : TraceSrc) (s : State) : Host.Outcome State Fault Refusal :=
  let f := traceFrom source
  if !s.ready || s.traceNext != some f.key then .next s
  else
    match s.traceQueue f.key with
    | [] => .next s
    | r :: rest =>
      if s.rbit .obsTraceCtl .mode && decide (s.traceSize ≤ s.traceUsed) then .next s
      else .next (s.traceTake f r rest)

/-- R570: a write of OBS_TRACE_RING. -/
def State.traceRingWrite (s : State) (v : Word) : State :=
  if s.rf .obsTracePtr .producer ≠ s.rf .obsTracePtr .consumer ∨ s.obs.queues ≠ [] then
    s.satRf .obsTraceStat .ringRefused 1
  else if 20 < fld v 0 5 then s
  else
    ((s.setRf .obsTraceRing .base (fld v 12 44)).setRf .obsTraceRing .sizeLog2 (fld v 0 5)).setReg .obsTracePtr 0

def execTraceRingWrite (m : Master) (v : Word) (s : State) : Host.Outcome State Fault Refusal :=
  if s.blockOpen .obs m then .next (s.traceRingWrite v) else .next s

/-! ### Counters (R571 to R573) -/

/-- A register that CLEAR_ALL clears. -/
def Reg.isCounter : Reg → Bool
  | .clCtr _ _ | .clCtrOvf _ | .obsPctr _ | .obsPctrOvf _ => true
  | _ => false

/-- Every counter and overflow bit is 0. -/
def State.clearCounters (s : State) : State :=
  { s with regs := s.regs.filter fun e => !((Reg.ofAddr e.1).map Reg.isCounter).getD false }

/-- A write of OBS_CTR_CTL. -/
def State.ctrCtlWrite (s : State) (v : Word) : State :=
  let s1 := (s.setRf .obsCtrCtl .enable (fld v 63 1)).setRf .obsCtrCtl .freeze (fld v 62 1)
  if bit v.toNat 61 then s1.clearCounters else s1

/-- FREEZE. -/
def execFreeze (m : Master) (v : Word) (s : State) : Host.Outcome State Fault Refusal :=
  if s.blockOpen .obs m then .next (s.ctrCtlWrite v) else .next s

/-- CLEAR_ALL. -/
def execClearAll (m : Master) (v : Word) (s : State) : Host.Outcome State Fault Refusal :=
  if s.blockOpen .obs m then .next (s.ctrCtlWrite v) else .next s

/-! ### The test access port (R575 to R578) -/

/-- R576: the port acts: the package is held in reset. -/
def State.testable (s : State) : Bool := s.board.vaux && (s.board.perst || (!s.board.pwrgood && s.board.vinOk))

/-- Send test data out. -/
def State.tdo (s : State) (l : List Bool) : State := { s with outbox := s.outbox ++ [Out.tdo l] }

/-- The path of five bypass registers takes bits in and gives bits out, five bits later. -/
def State.bypassShift (s : State) (bits : List Bool) : State :=
  let path := takePad false 5 s.tap.bypass ++ bits
  ({ s with tap := { s.tap with bypass := path.drop bits.length } }).tdo (path.take bits.length)

/-- A new instruction ends an EXTEST. -/
def State.endExtest (s : State) : State := { s with tap := { s.tap with driving := false } }

/-- BYPASS. -/
def execBypass (bits : List Bool) (s : State) : Host.Outcome State Fault Refusal :=
  if s.board.vaux then .next ((if s.testable then s.endExtest else s).bypassShift bits) else .next s

/-- R577: a die's IDCODE; `tap` 0 to 3 the compute dies, 4 the Square. -/
def idcode (tap : Nat) : BitVec 32 :=
  Config.stepping ++ (if tap = 4 then 0x2040#16 else 0x2041#16) ++ 0x3B1#11 ++ 1#1

/-- IDCODE: a die's IDCODE is shifted out, bit 0 first. -/
def execIdcode (tap : Nat) (s : State) : Host.Outcome State Fault Refusal :=
  if s.testable && decide (tap < 5) then .next (s.endExtest.tdo ((List.range 32).map fun i => (idcode tap).getLsbD i))
  else .next s

/-- SAMPLE/PRELOAD: the balls are sampled and shifted out while the boundary register is loaded. -/
def execSamplePreload (pins bits : List Bool) (s : State) : Host.Outcome State Fault Refusal :=
  if !s.board.vaux then .next s
  else if !s.testable then .next (s.bypassShift bits)
  else
    let s1 := s.endExtest
    .next (({ s1 with tap := { s1.tap with boundary := bits } }).tdo pins)

/-- EXTEST: the boundary cells drive the balls. -/
def execExtest (bits : List Bool) (s : State) : Host.Outcome State Fault Refusal :=
  if !s.board.vaux then .next s
  else if !s.testable then .next (s.bypassShift bits)
  else .next { s with tap := { s.tap with boundary := bits, driving := true } }

end Sys2Proof.Machine
end

