-- ==== Sys2Proof/Machine/Side.lean ====
section
/-! DEFINITION. What the registers show, and the sideband (00_scope.md R17; 01_package_organisation.md R53;
21_electrical_mechanical.md R587, R588). -/

namespace Sys2Proof.Machine

/-! ### Registers that show other state -/

/-- The 256 bits of an open translation fault record (09 Table 9.6). -/
def XfRec.bits (r : XfRec) : Nat :=
  r.seq % 2 ^ 32 * 2 ^ 224 + r.agent.kind * 2 ^ 222 + (r.agent.clusterOf.getD 0) * 2 ^ 212 + r.agent.unit * 2 ^ 200 +
    r.waiters * 2 ^ 184 + r.access * 2 ^ 176 + r.cause * 2 ^ 172 + r.ctx * 2 ^ 128 + r.va * 2 ^ 64 + r.entry

/-- A word of 64 flags. -/
def flagWord (p : Nat → Bool) : Word :=
  BitVec.ofNat 64 ((List.range 64).foldl (fun a k => if p k then a + 2 ^ k else a) 0)

/-- SB_STATUS (21 Table 21.7). -/
def State.sbStatus (s : State) : Word :=
  BitVec.ofNat 64 (bval s.board.vinOk * 2 ^ 31 + bval s.board.rails * 2 ^ 30 + bval s.faultLow * 2 ^ 29 +
    s.rf .bootStatus .stage * 2 ^ 24 + s.rf .bootStatus .health * 2 ^ 22 + s.rf .fltFatal .code)

/-- What a read of a register returns (R17): its fields, WO ones as 0, and what it shows of other state. -/
def State.readReg (s : State) (r : Reg) : Word :=
  match r with
  | .clOccupancy c => s.occupancy c
  | .clHaulStat c =>
    let q := (s.cluster c).haul.queue
    putFld (putFld (s.reg r) 8 3 (q.filter fun o => o.started || o.begun).length) 0 6 q.length
  | .fltXfOpen n => flagWord fun k => (Table.find s.xlt.recs (64 * n + k)).isSome
  | .fltXfStat => putFld (putFld (s.reg r) 16 16 s.xlt.held.length) 0 9 s.xlt.recs.length
  | .fltXfRecW n =>
    match Table.find s.xlt.recs (n / 4) with
    | some x => BitVec.ofNat 64 (Sys2Proof.Machine.bits x.bits (64 * (n % 4)) 64)
    | none => 0
  | .xltOwnRead => putFld (s.reg r) 48 6 (s.frameOwner (s.rf .xltOwnRead .frame))
  | .glbSqirqPend n => flagWord fun k => s.sourceRaised (64 * n + k)
  | .podTime => BitVec.ofNat 64 s.time
  | .bootId n => BitVec.ofNat 64 (Sys2Proof.Machine.bits Config.deviceId.toNat (64 * n) 64)
  | .sbId => putFld (s.reg r) 0 8 Config.stepping.toNat
  | .sbStatus => s.sbStatus
  | _ => s.reg r

/-- What a master reads: the link registers and the map of clusters (R53), and the BOOT block (14 R433), read 0 on the
Square's cores. -/
def State.readAs (s : State) (m : Master) (r : Reg) : Word :=
  if !(blockAt r.addr).reached m then 0
  else
  match m, r with
  | .core _, .glbD2dStatus => 0
  | .core _, .glbD2dErr _ => 0
  | .core _, .glbPhysMap _ => 0
  | _, _ => s.readReg r

/-! ### The sideband (R587, R588) -/

/-- The sideband register at an offset, if one is listed. -/
def sbReg (off : Nat) : Option Reg :=
  match off with
  | 0x00 => some .sbId
  | 0x04 => some .sbStatus
  | 0x08 => some .sbTrip
  | 0x10 => some (.sbTemp 0)
  | 0x14 => some (.sbTemp 1)
  | 0x18 => some (.sbTemp 2)
  | 0x1C => some (.sbTemp 3)
  | 0x20 => some (.sbTemp 4)
  | 0x24 => some .sbPower
  | 0x28 => some .sbVin
  | _ => none

/-- Send sideband data. -/
def State.sbSend (s : State) (l : List Byte) : State := { s with outbox := s.outbox ++ [Out.sideband l] }

/-- Bits of SB_TRIP are cleared, which releases the pins that they drive. -/
def State.tripClear (s : State) (v : Word) : State := s.setReg .sbTrip (s.reg .sbTrip &&& ~~~(v &&& 0x1DF))

/-- SB_TRANSFER: a read or a write of the register at an offset; one that is not listed reads 0 and drops writes, and
a write of bad parity is dropped. -/
def execSbTransfer (off : Nat) (write : Option Word) (parityOk : Bool) (s : State) : Host.Outcome State Fault Refusal :=
  if !s.board.vaux then .next s
  else
    match write with
    | none => .next (s.sbSend (leBytes 4 (((sbReg off).map s.readReg).getD 0).toNat))
    | some v =>
      if !parityOk then .next { s with sideband := { s.sideband with protoError := true } }
      else .next (if off = 8 then s.tripClear v else s)

/-- TRIP_CLEAR: a write of SB_TRIP. -/
def execTripClear (v : Word) (s : State) : Host.Outcome State Fault Refusal :=
  .next (if s.board.vaux then s.tripClear v else s)

/-- The target takes a dynamic address, if it has none. -/
def State.takeAddress (s : State) (a : BitVec 7) : State :=
  if s.board.vaux && s.sideband.dynamic.isNone then { s with sideband := { s.sideband with dynamic := some a } } else s

/-- ENTDAA. -/
def execEntdaa (a : BitVec 7) (s : State) : Host.Outcome State Fault Refusal := .next (s.takeAddress a)

/-- SETDASA, sent to the static address 0x3A. -/
def execSetdasa (a : BitVec 7) (s : State) : Host.Outcome State Fault Refusal := .next (s.takeAddress a)

/-- RSTDAA. -/
def execRstdaa (s : State) : Host.Outcome State Fault Refusal :=
  .next (if s.board.vaux then { s with sideband := { s.sideband with dynamic := none } } else s)

/-- GETSTATUS: two bytes, the high one first; bit 5 is a protocol error since the last GETSTATUS (log 41). -/
def execGetstatus (s : State) : Host.Outcome State Fault Refusal :=
  .next (if s.board.vaux then
    ({ s with sideband := { s.sideband with protoError := false } }).sbSend
      [0, if s.sideband.protoError then 0x20 else 0]
  else s)

end Sys2Proof.Machine
end

