-- ==== Sys2Proof/Machine/Bar.lean ====
section
/-! DEFINITION. Writes of BAR0 registers (00_scope.md R17 to R20, R597; 12_host_interface.md R378 to R380; 14_square_services.md
R450; 20_observation_and_test.md R572): by field access type, or as the register's own table says. -/

namespace Sys2Proof

/-- The bits of a register's span that a write covers. -/
def BarWrite.mask (w : BarWrite) : Nat :=
  if w.size = 8 then 2 ^ 64 - 1 else (2 ^ 32 - 1) * 2 ^ (8 * (w.offset % 8))

end Sys2Proof

namespace Sys2Proof.Machine

/-! ### Fields (R17, R18) -/

/-- The bits of a register that are RW. -/
def Reg.rwMask (r : Reg) : Nat :=
  r.fields.foldl (fun a f => if f.acc = .rw then a + (2 ^ f.w - 1) * 2 ^ f.lo else a) 0

/-- A W1C field of several bits of which each clears by itself; every other one clears as a whole, by its lowest
bit. -/
def RF.bitwise : RF → Bool
  | .new | .ovf | .therm => true
  | _ => false

/-- The overflow count of FLT_XF_STAT, which shares a name with the overflow bits. -/
def Reg.bitwise (r : Reg) (f : RF) : Bool := f.bitwise && r != .fltXfStat

/-- One field takes a write. -/
def State.writeField (s : State) (r : Reg) (f : RegField) (v : Word) : State :=
  match f.acc with
  | .rw => s.setReg r (putFld (s.reg r) f.lo f.w (fld v f.lo f.w))
  | .w1c =>
    if r.bitwise f.name then s.setReg r (s.reg r &&& ~~~ BitVec.ofNat 64 (fld v f.lo f.w * 2 ^ f.lo))
    else if bit v.toNat f.lo then s.setReg r (putFld (s.reg r) f.lo f.w 0) else s
  | .w1s => s.setReg r (s.reg r ||| BitVec.ofNat 64 (fld v f.lo f.w * 2 ^ f.lo))
  | _ => s

/-- Every field of a register but those named takes a write. -/
def State.writeFields (s : State) (r : Reg) (keep : List RF) (v : Word) : State :=
  (r.fields.filter fun f => !keep.contains f.name).foldl (fun s f => s.writeField r f v) s

/-! ### Registers with a range or a condition (R597) -/

/-- The fields of a register whose written value lies outside the field's range, so that they keep theirs. -/
def outOfRange (r : Reg) (v : Word) : List RF :=
  match r with
  | .fltShadowCtl _ => if fld v 0 5 < 4 ∨ 16 < fld v 0 5 then [.nLog2] else []
  | .glbMemScrub => if fld v 0 8 < 1 ∨ 168 < fld v 0 8 then [.periodH] else []
  | .podCfg =>
    (if fld v 36 10 < 1 ∨ 1000 < fld v 36 10 then [.peerTimeoutMs] else []) ++
      (if fld v 0 13 < 64 ∨ 4096 < fld v 0 13 then [.window] else [])
  | _ => []

/-- Some context has a valid binding. -/
def State.anyBound (s : State) : Bool := (List.range 63).any s.bound

/-- A write of a word to a register, by a master; `v` holds the register's own RW bits where the write does not
reach. -/
def State.writeReg (s : State) (m : Master) (r : Reg) (v : Word) : State :=
  match r with
  | .fltShadowRing => s.ringWrite .fltShadowRing .fltShadowPtr v
  | .fltErrRing => s.ringWrite .fltErrRing .fltErrPtr v
  | .bellSig n => s.bellHostSignal m n v
  | .bellOwner n => s.bellOwnerWrite n v
  | .xltInvStart => if s.invBusy then s.satRf .xltStatus .invRefused 1 else s.writeFields r [] v
  | .xltInvLen => if s.invBusy then s.satRf .xltStatus .invRefused 1 else s.writeFields r [] v
  | .xltInvCtrl => s.invWrite v
  | .xltOwnCtrl => s.ownWrite v
  | .fltXfResolve => s.resolve (fld v 0 8) (bit v.toNat 63)
  | .glbSwpStart n => s.swpStartWrite n v
  | .glbSwpLen n => s.swpLenWrite n v
  | .glbSwpCtrl n => s.swpCtrlWrite n v
  | .hqWinBase n => (s.windowBase n v).windowWake n
  | .hqDoorbell => s.doorbell m v
  | .hqSqBase n => s.sqBaseWrite m n v
  | .hqSqCtrl n => s.sqCtrlWrite m n v
  | .hqSqStatus n => s.sqStatusWrite m n v
  | .hqSqDone n => if s.sqForeign m n then s.qdrop m 1 n false else s
  | .hqCqBase n => s.cqBaseWrite m n v
  | .hqCqCtrl n => s.cqCtrlWrite m n v
  | .hqCqHead n => s.cqHeadWrite m n v
  | .hqCqTail n => if s.cqForeign m n then s.qdrop m 1 n true else s
  | .glbSqirqRoute n => s.routeWrite n v
  | .glbRtHeartbeat => s.beatWrite v
  | .podNode => s.writeFields r (if s.anyBound then [.nodeId] else []) v
  | .podCtxJob n => s.bindingWrite n v
  | .podCtxMap n => if s.bound n then s else s.writeFields r [] v
  | .podTimeSet => { s with pod := { s.pod with timeSet := some v.toNat } }
  | .pwrCapWatts => if 2000 ≤ fld v 0 13 ∧ fld v 0 13 ≤ 4800 then s.writeFields r [] v else s
  | .pwrWindow => if 1000 ≤ fld v 0 14 ∧ fld v 0 14 ≤ 10000 then s.writeFields r [] v else s
  | .bootCtl => s.goWrite v
  | .bootReset => if bit v.toNat 63 then s.coldWrite else if bit v.toNat 62 then s.keepMemWrite else s
  | .bootRetire => s.retireWrite v
  | .fltCtxFail => s.runtimeStop v
  | .obsTraceRing => s.traceRingWrite v
  | .obsCtrCtl => s.ctrCtlWrite v
  | r => s.writeFields r (outOfRange r v) v

/-! ### BAR0 writes (R379) -/

/-- The word that a write of some bits of a register's span makes: RW bits beside them keep their values, and every
other bit beside them is 0. -/
def State.merged (s : State) (r : Reg) (mask : Nat) (v : Word) : Word :=
  let m := BitVec.ofNat 64 mask
  (v &&& m) ||| (s.reg r &&& BitVec.ofNat 64 r.rwMask &&& ~~~m)

/-- A host write to the MSI-X table, word by word (12 R394). -/
def State.msixTableWrite (s : State) (w : BarWrite) : State :=
  let o := w.offset - 0x900000
  let s1 := s.msixWord (o / 16) (o % 16 / 4) (fld w.value 0 32)
  if w.size = 8 then s1.msixWord (o / 16) (o % 16 / 4 + 1) (fld w.value 32 32) else s1

/-- A BAR0 write takes effect: offsets that no register has are reserved. -/
def State.barWrite (s : State) (w : BarWrite) : State :=
  let b := blockAt w.offset
  if !s.endpoint then s
  else if !w.sized then s.satRf .hqWinStat .badSize 1
  else if !s.blockOpen b w.master then s
  else if b = .msix then (if w.offset < 0x908000 then s.msixTableWrite w else s)
  else
    match Reg.ofAddr w.offset with
    | some r => s.writeReg w.master r (s.merged r w.mask w.word)
    | none => s

/-- A BAR0 read of a master: what it counts, and the value. After a package-fatal error the blocks that are not served
read as all ones (19 R557), as a read of another size or alignment does (R379); the MSI-X block is the host's alone. -/
def State.barRead (s : State) (m : Master) (offset size : Nat) : State × Nat :=
  let b := blockAt offset
  if !((size == 4 || size == 8) && offset % size == 0) then
    (s.satRf .hqWinStat .badSize 1, 2 ^ (8 * size) - 1)
  else if s.fatal && !(b == .glb || b == .flt || b == .boot) then (s, 2 ^ (8 * size) - 1)
  else if !b.reached m then (s, 0)
  else if b = .msix then
    (s, if size = 8 then s.msixRead offset + s.msixRead (offset + 4) * 2 ^ 32 else s.msixRead offset)
  else
    match Reg.ofAddr (offset / 8 * 8) with
    | some r => (s, bits (s.readAs m r).toNat (8 * (offset % 8)) (8 * size))
    | none =>
      match Reg.ofAddr offset with
      | some r => (s, bits (s.readAs m r).toNat 0 (8 * size))
      | none => (s, 0)

/-! ### The Square's cores (14 R433) -/

/-- RDS: an agent's own read; a core's load from the register space is a BAR0 read (14 Table 14.2). -/
def execRds (a ctx line : Nat) (x : LineAccess) (s : State) : Host.Outcome State Fault Refusal :=
  match x.use with
  | .load k off size =>
    if s.ready && decide (coreBarLine ≤ line) && decide (line < coreBarLine + 2 ^ 19) then
      let r := s.barRead (.core k) (128 * (line - coreBarLine) + off) (2 ^ size)
      .next (r.1.coreGets k r.2 (s.core k).rsv)
    else agentRead a ctx line x s
  | _ => agentRead a ctx line x s

/-! ### Two masters in one cycle (R20, R450) -/

/-- A register that R20 covers: all but those of an enabled queue or ring, which R401 decides (R430), the doorbell, of
which each write is a doorbell, and the bells' signals, of which each is added. -/
def State.sharedReg (s : State) (r : Reg) : Bool :=
  match r with
  | .hqDoorbell => false
  | .bellSig _ => false
  | .hqSqBase n => !s.rbit (.hqSqCtrl n) .enable
  | .hqSqCtrl n => !s.rbit (.hqSqCtrl n) .enable
  | .hqSqStatus n => !s.rbit (.hqSqCtrl n) .enable
  | .hqSqDone n => !s.rbit (.hqSqCtrl n) .enable
  | .hqCqBase n => !s.rbit (.hqCqCtrl n) .enable
  | .hqCqCtrl n => !s.rbit (.hqCqCtrl n) .enable
  | .hqCqHead n => !s.rbit (.hqCqCtrl n) .enable
  | .hqCqTail n => !s.rbit (.hqCqCtrl n) .enable
  | _ => true

/-- R401: a core's write of ENABLE = 1 to a queue or ring that the host's write of the same cycle has enabled is
logged in HQ_QDROP. -/
def State.lateEnable (s : State) (r : Reg) (c : BarWrite) : State :=
  match r with
  | .hqSqCtrl n =>
    if s.rbit r .enable && bit c.word.toNat 63 && bit c.mask 63 then s.qdrop c.master 1 n false else s
  | .hqCqCtrl n =>
    if s.rbit r .enable && bit c.word.toNat 63 && bit c.mask 63 then s.qdrop c.master 1 n true else s
  | _ => s

/-- The two writes share no byte, and one is to a queue or ring: each acts as its own master's, the host's first. -/
def apartInHq (h c : BarWrite) : Bool :=
  h.mask &&& c.mask == 0 && blockAt h.offset == .hq

/-- A host write and a core write that meet R20's case: the register both write. -/
def State.conflict (s : State) (h c : BarWrite) : Option Reg :=
  match h.master, c.master with
  | .host, .core _ =>
    if h.sized && c.sized && h.offset / 8 == c.offset / 8 && !apartInHq h c && s.blockOpen (blockAt h.offset) h.master &&
        s.blockOpen (blockAt c.offset) c.master then
      match Reg.ofAddr h.offset with
      | some r => if s.sharedReg r then some r else none
      | none => none
    else none
  | _, _ => none

/-- R450: a core's write is dropped. -/
def State.dropWrite (s : State) (w : BarWrite) : State :=
  match w.master with
  | .core k => ((s.satRf .glbWrDrop .drops 1).setRf .glbWrDrop .lastCore k).setRf .glbWrDrop .lastOffset w.offset
  | _ => s

/-- R20: the host's bytes take effect, and the core's beside them; a core's write that shares bytes with the host's is
dropped in them and logged. -/
def State.bothWrite (s : State) (r : Reg) (h c : BarWrite) : State :=
  let mh := BitVec.ofNat 64 h.mask
  let v := (h.word &&& mh) ||| (c.word &&& BitVec.ofNat 64 c.mask &&& ~~~mh)
  let s1 := s.writeReg .host r (s.merged r (h.mask ||| c.mask) v)
  if h.mask &&& c.mask = 0 then s1 else (s1.dropWrite c).lateEnable r c

/-- REGISTER_WRITE, with a second master's write of the same cycle, if any; the host's goes first. -/
def execRegisterWrite (w : BarWrite) (rival : Option BarWrite) (s : State) : Host.Outcome State Fault Refusal :=
  match rival with
  | none => .next (s.barWrite w)
  | some c =>
    let a := if c.master = .host then c else w
    let b := if c.master = .host then w else c
    match s.conflict a b with
    | some r => .next (s.bothWrite r a b)
    | none => .next ((s.barWrite a).barWrite b)

/-! ### Counters (20 R572) -/

/-- A counter that counts one event now. -/
def State.countOnce (s : State) (r : Reg) : State :=
  if !s.counting then s
  else
    match r with
    | .clCtr c k => if s.rbit (.clCtrSel c k) .en then s.bump r (.clCtrOvf c) k 1 else s
    | .obsPctr k => if s.rbit (.obsPsel k) .en then s.bump r (.obsPctrOvf (k / 64)) (k % 64) 1 else s
    | _ => s

/-- COUNTER_WRITE: a write of a counter; `hit` says that an event of the same cycle counts. -/
def execCounterWrite (w : BarWrite) (hit : Bool) (s : State) : Host.Outcome State Fault Refusal :=
  match Reg.ofAddr w.offset with
  | some (.clCtr c k) =>
    if s.blockOpen .cl w.master && w.sized then
      .next (if hit then (s.barWrite w).countOnce (.clCtr c k) else s.barWrite w)
    else .next s
  | some (.obsPctr k) =>
    if s.blockOpen .obs w.master && w.sized then
      .next (if hit then (s.barWrite w).countOnce (.obsPctr k) else s.barWrite w)
    else .next s
  | _ => .next s

end Sys2Proof.Machine
end

