-- ==== Sys2Proof/Machine/Haul.lean ====
section
/-! DEFINITION. The Haul engine: its instructions at issue, its checks and work at start, and its milestones
(08_tensor_descriptors_haul.md R262 to R280; 06_instruction_set.md R211; 15_pod_transport.md R458, R468, R469). -/

namespace Sys2Proof.Machine

/-! ### Issue (06 Table 6.16) -/

/-- Change the Haul engine of a cluster. -/
def State.modHaul (s : State) (c : Nat) (f : HaulEngine → HaulEngine) : State :=
  let k := s.cluster c
  s.setCluster c { k with haul := f k.haul }

/-- The checks of a Haul instruction; `sc` says that it uses SC, `pair` that SC names a pair. -/
def haulChecks (f : VFmt) (sc pair : Bool) (modMask : Nat) (ok : Bool) : Checks :=
  { legal := f.clean { sa := true, sb := true, sc := sc, modMask := modMask } && uLegal f.sa.toNat &&
      uLegal f.sb.toNat && (!sc || uLegal f.sc.toNat) && (!pair || f.sc.toNat % 2 == 0) && ok
    range := fun _ => true
    ropeLevel := true }

/-- Issue a Haul instruction (R189, R210, R275): TOKEN_MIX, DESC_ALIGN, then it waits for a place in the queue and
in its token. `vas` are the descriptors' addresses: source, index, destination. -/
def haulIssue (i : Issue) (f : VFmt) (ck : Checks) (s : State) (kind : Rope → HaulKind)
    (vas : Rope → Nat × Option Nat × Nat) : Host.Outcome State Fault Refusal :=
  issueWait i f.guard ck s
    fun s k =>
      let tok := f.mod.toNat % 16
      let v := vas k.rope
      if k.party.tokenMix tok .haul then (s.fail k Code.tokenMix, true)
      else if v.1 % 128 ≠ 0 ∨ v.2.1.getD 0 % 128 ≠ 0 ∨ v.2.2 % 128 ≠ 0 then (s.fail k Code.descAlign, true)
      else
        let h := (s.cluster k.c).haul
        if 32 ≤ h.queue.length || k.tokenFull tok then (s, false)
        else
          let o : HaulOp := ⟨kind k.rope, v.1, v.2.1.getD 0, v.2.2, k.rope.party, k.slot, k.ctx, k.rope.pc, tok, false, 0, h.nextId,
            false, [], 0⟩
          let s1 := s.setParty k.c k.rope.party (k.party.takeToken tok .haul)
          ((s1.modHaul k.c fun h => { h with queue := h.queue ++ [o], nextId := h.nextId + 1 }).finish k k.rope, true)

/-- A uniform register as an address. -/
def Rope.uaddr (r : Rope) (f : BitVec 8) : Nat := (r.ureg f.toNat).toNat

def execHaulCopy (i : Issue) (f : VFmt) (s : State) : Host.Outcome State Fault Refusal :=
  haulIssue i f (haulChecks f false false 15 true) s (fun _ => .copy) fun r => (r.uaddr f.sa, none, r.uaddr f.sb)

def execHaulGather (i : Issue) (f : VFmt) (s : State) : Host.Outcome State Fault Refusal :=
  haulIssue i f (haulChecks f true false 15 true) s (fun _ => .gather)
    fun r => (r.uaddr f.sa, some (r.uaddr f.sb), r.uaddr f.sc)

def execHaulScatter (i : Issue) (f : VFmt) (s : State) : Host.Outcome State Fault Refusal :=
  haulIssue i f (haulChecks f true false 31 true) s (fun _ => .scatter (bit f.mod.toNat 4))
    fun r => (r.uaddr f.sa, some (r.uaddr f.sb), r.uaddr f.sc)

def execHaulRed (i : Issue) (f : VFmt) (s : State) : Host.Outcome State Fault Refusal :=
  let op := bits f.mod.toNat 4 2
  haulIssue i f (haulChecks f false false 0x3F (op != 3)) s (fun _ => .red op)
    fun r => (r.uaddr f.sa, none, r.uaddr f.sb)

def execHaulPut (i : Issue) (f : VFmt) (s : State) : Host.Outcome State Fault Refusal :=
  haulIssue i f (haulChecks f true true 15 true) s
    (fun r =>
      let w := (r.ureg (f.sc.toNat + 1)).toNat
      .put (r.uaddr f.sc % 65536) (bits w 0 14) (bit w 15) (bits w 32 32))
    fun r => (r.uaddr f.sa, none, r.uaddr f.sb)

def execHaulGet (i : Issue) (f : VFmt) (s : State) : Host.Outcome State Fault Refusal :=
  haulIssue i f (haulChecks f true false 15 true) s (fun r => .get (r.uaddr f.sc % 65536))
    fun r => (r.uaddr f.sa, none, r.uaddr f.sb)

/-! ### Types, shapes and pairs (R268 to R272) -/

/-- R272, Table 8.5: a reduction's type pairing. -/
def redPair (op s t : Nat) : Bool :=
  if op = 0 then
    (s == 0 && t == 0) || (1 ≤ s && s ≤ 3 && (t == 1 || t == 2)) || (s == t && (s == 12 || s == 13)) ||
      (t == 14 && (s ≤ 2 || s == 12 || s == 13))
  else s == t && (s ≤ 3 || s == 12 || s == 13)

/-- The operation reduces. -/
def HaulKind.reduces : HaulKind → Option Nat
  | .red op => some op
  | .scatter true => some 0
  | _ => none

/-- The rank that a put or a get names. -/
def HaulKind.rank : HaulKind → Option Nat
  | .put r _ _ _ => some r
  | .get r => some r
  | _ => none

/-- The operation has an index descriptor. -/
def HaulKind.indexed : HaulKind → Bool
  | .gather => true
  | .scatter _ => true
  | _ => false

/-- R269, R270, R272: the types suit the operation; `ax` is the indexed dimension. -/
def haulTypes (k : HaulKind) (src dst : Desc) (idx : Option Desc) (ax : Nat) : Bool :=
  (match k.reduces with
    | some op => redPair op src.type dst.type
    | none =>
      if k.rank.isSome then src.type == dst.type
      else src.type == dst.type || (decide (src.type ≤ 5) && decide (dst.type ≤ 5))) &&
    (match idx with
      | some d => (d.type == 12 || d.type == 13) && !(ax == 0 && (typeMx src.type || typeMx dst.type))
      | none => true)

/-- R268: the shapes suit the operation; `j` is the number of indices. -/
def haulShapes (k : HaulKind) (src dst : Desc) (ax j : Nat) : Bool :=
  match k with
  | .gather => dst.shape == listSet src.shape ax j
  | .scatter _ => src.shape == listSet dst.shape ax j
  | _ => src.shape == dst.shape

/-- Bytes of a message (R468). -/
def messageBytes (d : Desc) : Nat :=
  let n := d.localCount
  n * typeBits d.type / 8 + (if typeMx d.type then n / 32 else 0)

/-- R71: the reference sum of a list of values, with K their number. -/
def listSum (a : AccFmt) (wide : Bool) (ps : List Fp) : Nat :=
  let groups := fun (l : List Fp) => (List.range ((l.length + 31) / 32)).map fun g => (l.drop (32 * g)).take 32
  let chunk := fun (l : List Fp) =>
    match (groups l).map (groupSum a.fmt (groupWindow a wide)) with
    | [] => 0
    | x :: t => t.foldl (accAdd a) x
  carryFlush a ((List.range ((ps.length + 1023) / 1024)).foldl
    (fun st i => carryPush a 64 st (chunk ((ps.drop (1024 * i)).take 1024)) 0) [])

/-- Table 8.5: a floating-point sum into a prior value. -/
def redFloat (src dst d : Nat) (xs : List Fp) : Nat :=
  if dst = 0 then rneAdd fp64 d (listSum .fp64 false xs)
  else
    let v := listSum .fp32 (src == 1) xs
    if dst = 1 then rneAdd fp32 d v else bf16.round ((bf16.decode d).add (fp32.decode v))

/-- Table 8.5: an integer sum, a minimum or a maximum of a prior value and contributions. -/
def redExact (op t d : Nat) (xs : List Nat) : Nat :=
  match typeFmt t with
  | some f => xs.foldl (fun a x => f.round (Fp.minmax (op == 2) (f.decode a) (f.decode x))) d
  | none =>
    let w := typeBits t
    xs.foldl (fun a x =>
      if op = 0 then (a + x) % 2 ^ w
      else if decide (signed w x < signed w a) == (op == 1) && x != a then x else a) d

/-! ### Elements and blocks -/

/-- Coordinates with one replaced. -/
def coordAt (i : List Int) (ax : Nat) (v : Int) : List Int := listSet i ax v

/-- The elements that an operation walks: every element, or for MX types the first of every block of 32. -/
def Desc.walk (d : Desc) : List (List Int) :=
  if typeMx d.type then (List.range (d.localCount / 32)).map fun n => d.unlinear (32 * n)
  else (List.range d.localCount).map d.unlinear

/-- What a walk moves at a place: the bytes of an element or of a block's elements, and a block's scale. -/
structure Piece where
  bytes : List Byte
  scale : Option Byte
  deriving DecidableEq, Repr

/-- Bytes of a walk's piece. -/
def pieceBytes (t : Nat) : Nat := if typeMx t then 4 * typeBits t else typeBits t / 8

/-- Read a piece; FILL out of bounds. -/
def Sess.piece (x : Sess) (d : Desc) (u : Place) (i : List Int) : Sess × Piece :=
  let w := typeBits d.type
  match d.bitAddr u i with
  | none =>
    if typeMx d.type then
      (x, ⟨leBytes (4 * w) (packBits w (List.replicate 32 d.fillBits)), some (BitVec.ofNat 8 d.fillScale)⟩)
    else (x, ⟨leBytes (w / 8) d.fillBits, none⟩)
  | some a =>
    if typeMx d.type then
      let half := 2 * w
      -- a block of up to 32 bytes is read in two reads of at most 16
      let p := x.read d.ls (a / 8) half
      let q := p.1.read d.ls (a / 8 + half) half
      let t := q.1.read d.ls (d.scaleAddr u i) 1
      (t.1, ⟨leBytes half p.2 ++ leBytes half q.2, some (BitVec.ofNat 8 t.2)⟩)
    else
      let p := x.read d.ls (a / 8) (w / 8)
      (p.1, ⟨leBytes (w / 8) p.2, none⟩)

/-- A piece converted between types (R269). -/
def Piece.convert (p : Piece) (s t : Nat) : Piece :=
  if s = t then p
  else ⟨leBytes (typeBits t / 8) (encodeInto t (typeFp s (leNat p.bytes))).1, none⟩

/-- The elements of a piece. -/
def pieceElems (t : Nat) : Nat := if typeMx t then 32 else 1

/-- A write an operation makes: space, address, bytes. -/
structure HWrite where
  ls : Bool
  addr : Nat
  bytes : List Byte
  deriving DecidableEq, Repr

/-- The writes of a piece at an element in bounds. -/
def Desc.place (d : Desc) (u : Place) (i : List Int) (a : Nat) (p : Piece) : List HWrite :=
  ⟨d.ls, a / 8, p.bytes⟩ :: (match p.scale with
    | some b => [⟨d.ls, d.scaleAddr u i, [b]⟩]
    | none => [])

/-- The pairs (destination, source) of a walk, in the order that R277 gives. -/
def haulPairs (k : HaulKind) (src dst : Desc) (ax : Nat) (idx : List Int) : List (List Int × List Int) :=
  match k with
  | .gather => dst.walk.map fun i => (i, coordAt i ax (idx.getD (i.getD ax 0).toNat 0))
  | .scatter _ => src.walk.map fun i => (coordAt i ax (idx.getD (i.getD ax 0).toNat 0), i)
  | .red _ => src.walk.map fun i => (i, i)
  | _ => dst.walk.map fun i => (i, i)

/-- R270: the indices, in local linear order. -/
def Sess.indices (x : Sess) (d : Desc) (u : Place) : Sess × List Int :=
  d.walk.foldl (fun (r : Sess × List Int) i =>
    let e := r.1.element d u i
    (e.1, r.2 ++ [signed (typeBits d.type) e.2.1])) (x, [])

/-! ### Moves (R268 to R271) -/

/-- R271: of the writes that name one destination element, by bit address, only the last stays. -/
def lastWrites (ws : List (Nat × List HWrite)) : List (Nat × List HWrite) :=
  ws.foldr (fun w r => if r.any fun q => q.1 == w.1 then r else w :: r) []

/-- The writes of a move, and the elements it drops. -/
def Sess.moves (x : Sess) (scatter : Bool) (src dst : Desc) (us ud : Place) (pairs : List (List Int × List Int)) :
    Sess × List HWrite × Nat :=
  let m := pairs.foldl (fun (r : Sess × List (Nat × List HWrite) × Nat) e =>
    match dst.bitAddr ud e.1 with
    | none => (r.1, r.2.1, r.2.2 + pieceElems dst.type)
    | some a =>
      let p := r.1.piece src us e.2
      (p.1, r.2.1 ++ [(a, dst.place ud e.1 a (p.2.convert src.type dst.type))], r.2.2)) (x, [], 0)
  (m.1, (if scatter then lastWrites m.2.1 else m.2.1).flatMap Prod.snd, m.2.2)

/-- Gather the writes of a move. -/
def Sess.writeAll (x : Sess) (ws : List HWrite) : Sess := ws.foldl (fun x w => x.write w.ls w.addr w.bytes) x

/-! ### Reductions (R272, R273) -/

/-- The contributions to each destination element, by bit address, in order; and the elements dropped. -/
def Sess.contributions (x : Sess) (src dst : Desc) (us ud : Place) (pairs : List (List Int × List Int)) :
    Sess × Table (List Nat) × Nat :=
  pairs.foldl (fun (r : Sess × Table (List Nat) × Nat) e =>
    match dst.bitAddr ud e.1 with
    | none => (r.1, r.2.1, r.2.2 + 1)
    | some a =>
      let v := r.1.element src us e.2
      (v.1, Table.insert r.2.1 a ((Table.find r.2.1 a).getD [] ++ [v.2.1]), r.2.2)) (x, [], 0)

/-- A contribution as a tally addend (05 R164). -/
def redTally (t : Nat) (q : Int) (x : Nat) : Int × TallyFlags := tallyAddend q (typeFp t x)

/-- Reduce every destination element: a float sum reads and writes, the others are atomics. -/
def Sess.reduce (x : Sess) (op : Nat) (src dst : Desc) (groups : Table (List Nat)) : Sess :=
  let w := typeBits dst.type
  groups.foldl (fun x g =>
    let a := g.1 / 8
    if dst.type = 14 then
      let d := g.2.foldl (fun (t : Int) v => t + (redTally src.type dst.q v).1) 0
      x.reduceAt dst.ls a 32 fun m => tallySum m d
    else if op = 0 ∧ dst.type ≤ 2 then
      let p := x.read dst.ls a (w / 8)
      p.1.write dst.ls a (leBytes (w / 8) (redFloat src.type dst.type p.2 (g.2.map (typeFp src.type))))
    else x.reduceAt dst.ls a (w / 8) fun m => redExact op dst.type m g.2) x

/-- The tally flags that a reduction sets. -/
def redFlags (src dst : Desc) (groups : Table (List Nat)) : TallyFlags :=
  if dst.type = 14 then
    groups.foldl (fun t g => g.2.foldl (fun t v => t.join (redTally src.type dst.q v).2) t) .clear
  else .clear

/-! ### Transfers (15 R468, R469) -/

/-- A run of a message: destination, source, bytes. -/
structure MRun where
  dst : Nat
  src : Nat
  len : Nat
  bytes : List Byte
  deriving DecidableEq, Repr

/-- Append a piece to runs that are contiguous in both addresses and at most 4,096 bytes long, latest first. -/
def runPush (l : List MRun) (dst src : Nat) (n : Nat) (bs : List Byte) : List MRun :=
  match l with
  | r :: t =>
    if r.dst + r.len = dst ∧ r.src + r.len = src ∧ r.len + n ≤ 4096 then
      ⟨r.dst, r.src, r.len + n, r.bytes ++ bs⟩ :: t
    else ⟨dst, src, n, bs⟩ :: l
  | [] => [⟨dst, src, n, bs⟩]

/-- The runs of a put: contiguous in destination VA. -/
def putRuns (ws : List HWrite) : List MRun :=
  (ws.foldl (fun l w =>
    let src := match l with
      | r :: _ => r.src + r.len
      | [] => 0
    runPush l w.addr src w.bytes.length w.bytes) []).reverse

/-- The runs of a get, and the fills it writes itself. -/
def getRuns (src dst : Desc) (us ud : Place) : List MRun × List HWrite × Nat :=
  let r := dst.walk.foldl (fun (r : List MRun × List MRun × List HWrite × Nat) i =>
    match dst.bitAddr ud i with
    | none => (r.1, r.2.1, r.2.2.1, r.2.2.2 + pieceElems dst.type)
    | some a =>
      match src.bitAddr us i with
      | none =>
        let w := typeBits dst.type
        let p : Piece := if typeMx dst.type then
            ⟨leBytes (4 * w) (packBits w (List.replicate 32 src.fillBits)), some (BitVec.ofNat 8 src.fillScale)⟩
          else ⟨leBytes (w / 8) src.fillBits, none⟩
        (r.1, r.2.1, r.2.2.1 ++ dst.place ud i a p, r.2.2.2)
      | some b =>
        let data := runPush r.1 (a / 8) (b / 8) (pieceBytes dst.type) []
        let scales := if typeMx dst.type then runPush r.2.1 (dst.scaleAddr ud i) (src.scaleAddr us i) 1 [] else r.2.1
        (data, scales, r.2.2.1, r.2.2.2)) ([], [], [], 0)
  (r.1.reverse ++ r.2.1.reverse, r.2.2.1, r.2.2.2)

/-- Send a put: its DATA frames, and its BELL frame to follow them. -/
def State.sendPut (s : State) (c : Nat) (o : HaulOp) (node : Nat) (runs : List MRun) (bell : Option (Nat × Nat)) :
    State :=
  let job := s.rf (.podCtxJob o.ctx) .jobId
  let m := s.takeMsg
  let s1 : State := match bell with
    | some (b, inc) => { m.1 with pod := { m.1.pod with bells := m.1.pod.bells ++
        [⟨node, m.2, ⟨tBell, job, m.2, 0, inc * 2 ^ 32 + 0x8000 + b, 0, o.ctx, .bell, []⟩⟩] } }
    | none => m.1
  (runs.foldl (fun s r =>
    s.podSend node ⟨tData, job, m.2, r.dst, 0, r.len, o.ctx, .put c o.id, r.bytes⟩) s1).sendBells

/-- Send a get's READ frames. -/
def State.sendGet (s : State) (c : Nat) (o : HaulOp) (node : Nat) (ls : Option Nat) (runs : List MRun) : State :=
  let job := s.rf (.podCtxJob o.ctx) .jobId
  let m := s.takeMsg
  let mine : List GetRun := runs.map fun r => ⟨c, o.id, o.ctx, node, m.2, r.dst, r.len, ls⟩
  let s1 : State := { m.1 with pod := { m.1.pod with gets := m.1.pod.gets ++ mine } }
  runs.foldl (fun s r => s.podSend node ⟨tRead, job, m.2, r.src, r.dst, r.len, o.ctx, .get c o.id, []⟩) s1

/-! ### Start (R275, R280, Table 8.7) -/

/-- How a stop ends a Haul operation. -/
def Sess.stopHaul (x : Sess) (c : Nat) (o : HaulOp) : State :=
  match x.stop with
  | some (.fault code a kind) => x.st.ropeFault c o.slot o.ctx o.pc code a kind
  | some (.poison va) => x.st.countConsumed.engineFault c 1 o.ctx Code.poison va 1
  | some (.refused l) => x.st.frameFault o.ctx l
  | some (.stall cause e va n) =>
    (x.st.xltFault ⟨.haul c, n.code, cause, o.ctx, va, e⟩).modHaul c fun h => { h with
      stall := some (o.ctx, blockOf va)
      queue := h.queue.map fun q =>
        if q.id = o.id then { q with begun := true, log := x.seen.reverse, written := x.written } else q }
  | none => x.st

/-- The descriptors of an operation, read and checked in the order of Table 8.7. -/
structure HaulPlan where
  src : Desc
  dst : Desc
  idx : Option Desc
  us : Place
  ud : Place
  ui : Place
  ax : Nat
  away : Bool
  deriving DecidableEq, Repr

/-- Read the descriptors and make the checks that need no data: RANK_RANGE, then the faults of Table 8.7 from the
descriptors that could be read, then a fault of reading one (06 R220). -/
def Sess.haulPlan (x : Sess) (c : Nat) (o : HaulOp) (p : Party) (cx : Ctx) : Sess × HaulPlan :=
  let own := (x.st.rankOf o.ctx).1
  let rank := o.kind.rank.getD own
  let here : Place := x.st.place o.ctx c cx
  let there : Place := { here with rank := rank }
  let isPut := match o.kind with
    | .put _ _ _ _ => true
    | _ => false
  let isGet := match o.kind with
    | .get _ => true
    | _ => false
  let x0 := x.need (o.kind.rank.isNone || decide (rank < (x.st.rankOf o.ctx).2)) Code.rankRange
  let away := o.kind.rank.isSome && x.st.rankNode o.ctx rank != x.st.rf .podNode .nodeId && rank != own
  let rs := x0.readDesc o.src
  let ri := if o.kind.indexed then rs.1.readDesc o.idx else (rs.1, none)
  let rd := ri.1.readDesc o.dst
  let ds := [rs.2, rd.2, ri.2]
  let some' := fun (f : Desc → Bool → Bool) => ds.any fun d => onDesc d f
  let get := fun (d : Option (Desc × Bool)) => (d.map Prod.fst).getD (Desc.ofNat 0)
  let src := get rs.2
  let dst := get rd.2
  let idx := ri.2.map Prod.fst
  let all := rd.1.later.isNone
  let ax := (match o.kind with
    | .gather => src.rank
    | _ => dst.rank) - 1
  let us := if isGet then there else here
  let ud := if isPut then there else here
  let foot := fun (d : Option (Desc × Bool)) (u : Place) => match d with
    | some e => e.1.footprint u
    | none => []
  let fs := foot rs.2 us
  let fd := foot rd.2 ud
  let fi := foot ri.2 here
  let j := match idx with
    | some d => d.localCount
    | none => 0
  let remoteLs := away && ((isPut && onDesc rd.2 fun d _ => d.ls) || (isGet && onDesc rs.2 fun d _ => d.ls))
  let x1 := rd.1.need (!some' (fun d res => res || !d.formOk cx.axes) && !remoteLs) Code.descForm
  let x2 := x1.need (!some' fun d _ => !d.mxShapeOk) Code.mxShape
  let x3 := x2.need (!all || haulTypes o.kind src dst idx ax) Code.descType
  let x4 := x3.need (!all || (haulShapes o.kind src dst ax j &&
    (o.kind.rank.isNone || decide (messageBytes src ≤ 2 ^ 32)))) Code.descShape
  let x5 := x4.need (o.kind.reduces.isSome || !onDesc rd.2 fun d _ => !d.nested) Code.descAlias
  let x6 := x5.need (away || !(meet fd fs || meet fd fi)) Code.descOverlap
  let x7 := x6.need (!(spanForm fs || spanForm fd || spanForm fi)) Code.addrForm
  let x8 := x7.need (!(spanOutside p.lsBytes fs || spanOutside p.lsBytes fd || spanOutside p.lsBytes fi)) Code.lsBounds
  (x8.takeOff, ⟨src, dst, idx, us, ud, here, ax, away⟩)

/-- The oldest operation that has not started does its work. -/
def State.haulRun (s : State) (c : Nat) (o : HaulOp) (p : Party) (cx : Ctx) (host : HostAnswer) : State :=
  let b := (s.session c o.ctx o.party host o.log o.written).haulPlan c o p cx
  let k := b.2
  let began := fun (n : Nat) (s : State) => s.modHaul c fun h =>
    { h with queue := h.queue.map fun q => if q.id = o.id then { q with started := true, drops := n } else q }
  let counted := fun (x : Sess) => ((x.st.countCl c 9 o.ctx x.reads).countCl c 10 o.ctx x.writes)
  let i := match k.idx with
    | some d => b.1.indices d k.ui
    | none => (b.1, [])
  let pairs := haulPairs o.kind k.src k.dst k.ax i.2
  if b.1.stop.isSome then b.1.stopHaul c o
  else
    match o.kind.reduces with
    | some op =>
      let g := i.1.contributions k.src k.dst k.us k.ud pairs
      let z := ((g.1.reduce op k.src k.dst g.2.1).drops k.dst g.2.2).commit
      if z.stop.isSome then z.stopHaul c o
      else
        let s1 := counted z
        let s2 := match Table.find (s1.cluster c).parties o.party with
          | some q => s1.setParty c o.party { q with tally := q.tally.join (redFlags k.src k.dst g.2.1) }
          | none => s1
        began g.2.2 s2
    | none =>
      let node := s.rankNode o.ctx (o.kind.rank.getD 0)
      match o.kind, k.away with
      | .put _ bell ring inc, true =>
        let w := i.1.moves false k.src k.dst k.us k.ud pairs
        let z := (w.1.drops k.dst w.2.2).commit
        if z.stop.isSome then z.stopHaul c o
        else
          let scale := w.2.1.filter fun x => typeMx k.dst.type && x.bytes.length == 1
          let data := w.2.1.filter fun x => !(typeMx k.dst.type && x.bytes.length == 1)
          began w.2.2 ((counted z).sendPut c o node (putRuns data ++ putRuns scale) (if ring then some (bell, inc) else none))
      | .get _, true =>
        let r := getRuns k.src k.dst k.us k.ud
        let z := ((i.1.writeAll r.2.1).drops k.dst r.2.2).commit
        if z.stop.isSome then z.stopHaul c o
        else began r.2.2 ((counted z).sendGet c o node (if k.dst.ls then some o.party else none) r.1)
      | kind, _ =>
        let w := i.1.moves (kind == .scatter false) k.src k.dst k.us k.ud pairs
        let z := ((w.1.writeAll w.2.1).drops k.dst w.2.2).commit
        if z.stop.isSome then z.stopHaul c o
        else
          let s1 := began w.2.2 (counted z)
          match kind with
          | .put _ bell true inc => s1.bellRemote bell (BitVec.ofNat 64 inc)
          | _ => s1

/-- A get of a cluster has runs that have not arrived. -/
def State.getOpen (s : State) (c : Nat) (o : HaulOp) : Bool :=
  s.pod.gets.any fun g => g.cluster == c && g.id == o.id

/-- HAUL_OP_START (R275): the oldest operation that has not started starts, with at most four in progress. It waits
for the translation fault of one before it, and for a get before it, whose bytes it may read (log 32). -/
def execHaulOpStart (c : Nat) (host : HostAnswer) (s : State) : Host.Outcome State Fault Refusal :=
  if !s.ready || s.clusterHalted c then .next s
  else
    let h := (s.cluster c).haul
    match h.queue.find? fun o => !o.started with
    | none => .next s
    | some o =>
      let running := h.queue.filter fun o => o.started
      if h.stall.isSome || decide (4 ≤ running.length) || running.any (s.getOpen c) then .next s
      else
        match Table.find (s.cluster c).parties o.party, Table.find s.ctxs o.ctx with
        | some p, some cx => .next (s.haulRun c o p cx host)
        | _, _ => .next s

/-- R276, R471: an operation in progress has reached its milestone. -/
def State.haulDone (s : State) (c : Nat) (o : HaulOp) : Bool :=
  o.started && !s.getOpen c o && s.pod.peers.all fun e => !(e.2.backlog.any fun b => b.owner == FrameOf.put c o.id)

/-- 06 R189: the oldest operation of which something holds and that no operation of its token precedes. -/
def HaulEngine.first (h : HaulEngine) (p : HaulOp → Bool) : Option HaulOp :=
  h.queue.find? fun o => p o && !h.queue.any fun q => decide (q.id < o.id) && q.party == o.party && q.token == o.token

/-- The opcode of an operation (06 Table 6.16). -/
def HaulKind.opcode : HaulKind → Nat
  | .copy => 0x90
  | .gather => 0x91
  | .scatter _ => 0x92
  | .red _ => 0x93
  | .put _ _ _ _ => 0x94
  | .get _ => 0x95

/-- HAUL_MILESTONE (R276; 06 R189): the oldest operation that has reached its milestone, and that is the oldest of its
token, leaves the queue and signals its token, as a release at device scope. -/
def execHaulMilestone (c : Nat) (s : State) : Host.Outcome State Fault Refusal :=
  if !s.ready || s.clusterHalted c then .next s
  else
    match (s.cluster c).haul.first (s.haulDone c) with
    | none => .next s
    | some o =>
      if !s.mayTrace (haulSrc c) o.ctx kHaulDone then .next s
      else
        let s1 := s.modHaul c fun h => { h with queue := h.queue.filter fun q => q.id != o.id }
        let s2 := s1.traceNow (haulSrc c) 0 o.ctx kHaulDone (o.kind.opcode * 256 + o.token) o.drops
        .next (s2.signalToken c o.party o.token)

end Sys2Proof.Machine
end

