-- ==== Sys2Proof/Machine/Uniform.lean ====
section
/-! DEFINITION. Uniform, move, predicate and immediate instructions (06_instruction_set.md R187, R192,
Table 6.9). -/

namespace Sys2Proof.Machine

/-- A uniform instruction of two sources: the fields it uses and its effect on the two values. -/
def uniformBin (i : Issue) (f : VFmt) (modMask : Nat) (op : Nat → Word → Word → Word) (s : State) :
    Host.Outcome State Fault Refusal :=
  issue i f.guard
    { legal := f.clean { dst := true, sa := true, sb := true, modMask := modMask } &&
        uLegal f.dst.toNat && uLegal f.sa.toNat && uLegal f.sb.toNat
      range := fun _ => true
      ropeLevel := true } s
    fun s k => s.finish k (k.rope.setU f.dst.toNat
      (op f.mod.toNat (k.rope.ureg f.sa.toNat) (k.rope.ureg f.sb.toNat)))

def execUadd (i : Issue) (f : VFmt) (s : State) : Host.Outcome State Fault Refusal :=
  uniformBin i f 0 (fun _ a b => a + b) s

def execUsub (i : Issue) (f : VFmt) (s : State) : Host.Outcome State Fault Refusal :=
  uniformBin i f 0 (fun _ a b => a - b) s

def execUmul (i : Issue) (f : VFmt) (s : State) : Host.Outcome State Fault Refusal :=
  uniformBin i f 0 (fun _ a b => a * b) s

/-- The high 64 bits of the unsigned 128-bit product. -/
def execUmulhu (i : Issue) (f : VFmt) (s : State) : Host.Outcome State Fault Refusal :=
  uniformBin i f 0 (fun _ a b => BitVec.ofNat 64 (a.toNat * b.toNat / 2 ^ 64)) s

def execUand (i : Issue) (f : VFmt) (s : State) : Host.Outcome State Fault Refusal :=
  uniformBin i f 0 (fun _ a b => a &&& b) s

def execUor (i : Issue) (f : VFmt) (s : State) : Host.Outcome State Fault Refusal :=
  uniformBin i f 0 (fun _ a b => a ||| b) s

def execUxor (i : Issue) (f : VFmt) (s : State) : Host.Outcome State Fault Refusal :=
  uniformBin i f 0 (fun _ a b => a ^^^ b) s

/-- R192: shift counts use bits 5:0. -/
def execUshl (i : Issue) (f : VFmt) (s : State) : Host.Outcome State Fault Refusal :=
  uniformBin i f 0 (fun _ a b => a <<< (b.toNat % 64)) s

def execUshr (i : Issue) (f : VFmt) (s : State) : Host.Outcome State Fault Refusal :=
  uniformBin i f 0 (fun _ a b => a >>> (b.toNat % 64)) s

def execUsar (i : Issue) (f : VFmt) (s : State) : Host.Outcome State Fault Refusal :=
  uniformBin i f 0 (fun _ a b => a.sshiftRight (b.toNat % 64)) s

/-- MOD bit 0: 0 unsigned, 1 signed. -/
def execUmin (i : Issue) (f : VFmt) (s : State) : Host.Outcome State Fault Refusal :=
  uniformBin i f 1 (fun m a b =>
    if asInt (bit m 0) 64 a.toNat ≤ asInt (bit m 0) 64 b.toNat then a else b) s

def execUmax (i : Issue) (f : VFmt) (s : State) : Host.Outcome State Fault Refusal :=
  uniformBin i f 1 (fun m a b =>
    if asInt (bit m 0) 64 a.toNat ≤ asInt (bit m 0) 64 b.toNat then b else a) s

/-- UCMP writes the lanes in E of p[DST]; conditions 6 and 7 are reserved (R192). -/
def execUcmp (i : Issue) (f : VFmt) (s : State) : Host.Outcome State Fault Refusal :=
  issue i f.guard
    { legal := f.clean { dst := true, sa := true, sb := true, modMask := 15 } && pLegal f.dst.toNat &&
        uLegal f.sa.toNat && uLegal f.sb.toNat && decide (bits f.mod.toNat 0 3 < 6)
      range := fun _ => true } s
    fun s k =>
      let sg := bit f.mod.toNat 3
      let t := icond (bits f.mod.toNat 0 3) (asInt sg 64 (k.rope.ureg f.sa.toNat).toNat)
        (asInt sg 64 (k.rope.ureg f.sb.toNat).toNat)
      s.finish k (k.rope.writeP f.dst.toNat k.e (if t then BitVec.allOnes 32 else 0))

/-- UTOV (TY 0 to 7): a narrow type takes the low bits of u[SA], the upper bits of its register 0 (R185). -/
def execUtov (i : Issue) (f : VFmt) (s : State) : Host.Outcome State Fault Refusal :=
  issue i f.guard
    { legal := f.clean { dst := true, sa := true, ty := true } && decide (f.ty.toNat < 8) &&
        vecLegal f.dst.toNat (tyRegs f.ty.toNat) && uLegal f.sa.toNat
      range := fun v => vecRange v f.dst.toNat (tyRegs f.ty.toNat) } s
    fun s k =>
      let x := (k.rope.ureg f.sa.toNat).toNat % 2 ^ tyBits f.ty.toNat
      s.finish k (k.rope.vwrite f.dst.toNat (tyRegs f.ty.toNat) k.e (List.replicate 32 x))

/-- VTOU (TY 0 to 7): lane (u[SB] mod 32) of v[SA], zero-extended, whatever the mask. -/
def execVtou (i : Issue) (f : VFmt) (s : State) : Host.Outcome State Fault Refusal :=
  issue i f.guard
    { legal := f.clean { dst := true, sa := true, sb := true, ty := true } && decide (f.ty.toNat < 8) &&
        uLegal f.dst.toNat && vecLegal f.sa.toNat (tyRegs f.ty.toNat) && uLegal f.sb.toNat
      range := fun v => vecRange v f.sa.toNat (tyRegs f.ty.toNat)
      ropeLevel := true } s
    fun s k =>
      let l := (k.rope.ureg f.sb.toNat).toNat % 32
      let x := ((k.rope.vread f.sa.toNat (tyRegs f.ty.toNat))[l]?.getD 0) % 2 ^ tyBits f.ty.toNat
      s.finish k (k.rope.setU f.dst.toNat (BitVec.ofNat 64 x))

def execPtou (i : Issue) (f : VFmt) (s : State) : Host.Outcome State Fault Refusal :=
  issue i f.guard
    { legal := f.clean { dst := true, sa := true } && uLegal f.dst.toNat && pLegal f.sa.toNat
      range := fun _ => true
      ropeLevel := true } s
    fun s k => s.finish k (k.rope.setU f.dst.toNat (BitVec.ofNat 64 (k.rope.preg f.sa.toNat).toNat))

/-- UTOP writes all 32 lanes of p[DST], whatever E. -/
def execUtop (i : Issue) (f : VFmt) (s : State) : Host.Outcome State Fault Refusal :=
  issue i f.guard
    { legal := f.clean { dst := true, sa := true } && pLegal f.dst.toNat && uLegal f.sa.toNat
      range := fun _ => true } s
    fun s k => s.finish k (k.rope.setP f.dst.toNat (BitVec.ofNat 32 (k.rope.ureg f.sa.toNat).toNat))

/-- The special registers of 06 Table 6.7; none for an index it does not list. DESIGN CHOICE (log 134): with no
valid job binding RANK reads 0; RANKS reads 1, the node count that 08 R257 gives such a context. -/
def State.special (s : State) (k : IssueCtx) (n : Nat) : Option Word :=
  let w := fun (x : Nat) => some (BitVec.ofNat 64 x)
  if n = 0 then some k.party.par.arg
  else if n = 1 then w k.party.index
  else if n = 2 then w k.party.par.parties
  else if n = 3 then w k.rope.index
  else if n = 4 then w k.party.par.ropes
  else if n = 5 then w k.c
  else if n = 6 then w (if s.rbit (.podCtxJob k.ctx) .valid then s.rf (.podCtxMap k.ctx) .myRank else 0)
  else if n = 7 then w (if s.rbit (.podCtxJob k.ctx) .valid then s.rf (.podCtxJob k.ctx) .ranks else 1)
  else if n = 8 then w k.ctx
  else if n = 9 then w k.rope.active.toNat
  else if n = 10 then w k.party.par.vregs
  else if n = 16 then w k.slot
  else if n = 17 then w s.time
  else if 32 ≤ n ∧ n ≤ 47 then
    -- 20 R574: the counter's value only under a filter that names the rope's own context
    w (if s.rf (.clCtrSel k.c (n - 32)) .ctx = k.ctx then s.rf (.clCtr k.c (n - 32)) .value else 0)
  else none

/-- The indices of 06 Table 6.7. -/
def specialIndex (n : Nat) : Bool := n ≤ 10 || n == 16 || n == 17 || (32 ≤ n && n ≤ 47)

/-- SREAD (R187): indices 16, 17 and 32 to 47 are timing-dependent. -/
def execSread (i : Issue) (f : VFmt) (s : State) : Host.Outcome State Fault Refusal :=
  issue i f.guard
    { legal := f.clean { dst := true, sa := true } && uLegal f.dst.toNat && specialIndex f.sa.toNat
      range := fun _ => true
      timed := decide (16 ≤ f.sa.toNat)
      ropeLevel := true } s
    fun s k => s.finish k (k.rope.setU f.dst.toNat ((s.special k f.sa.toNat).getD 0))

def execVlaneid (i : Issue) (f : VFmt) (s : State) : Host.Outcome State Fault Refusal :=
  issue i f.guard
    { legal := f.clean { dst := true }
      range := fun v => vecRange v f.dst.toNat 1 } s
    fun s k => s.finish k (k.rope.vwrite f.dst.toNat 1 k.e (List.range 32))

/-- Predicate logic on the lanes in E. -/
def predicateBin (i : Issue) (f : VFmt) (op : Mask → Mask → Mask) (s : State) :
    Host.Outcome State Fault Refusal :=
  issue i f.guard
    { legal := f.clean { dst := true, sa := true, sb := true } && pLegal f.dst.toNat &&
        pLegal f.sa.toNat && pLegal f.sb.toNat
      range := fun _ => true } s
    fun s k => s.finish k (k.rope.writeP f.dst.toNat k.e
      (op (k.rope.preg f.sa.toNat) (k.rope.preg f.sb.toNat)))

def execPand (i : Issue) (f : VFmt) (s : State) : Host.Outcome State Fault Refusal :=
  predicateBin i f (fun a b => a &&& b) s

def execPor (i : Issue) (f : VFmt) (s : State) : Host.Outcome State Fault Refusal :=
  predicateBin i f (fun a b => a ||| b) s

def execPxor (i : Issue) (f : VFmt) (s : State) : Host.Outcome State Fault Refusal :=
  predicateBin i f (fun a b => a ^^^ b) s

def execPandn (i : Issue) (f : VFmt) (s : State) : Host.Outcome State Fault Refusal :=
  predicateBin i f (fun a b => a &&& ~~~b) s

/-- An immediate instruction of a uniform register; `sa` says whether SA is used, `legal` what the immediate
must meet. -/
def uniformImm (i : Issue) (f : IFmt) (sa legal : Bool) (op : Word → Word → Word → Word) (s : State) :
    Host.Outcome State Fault Refusal :=
  issue i f.guard
    { legal := !f.res && uLegal f.dst.toNat && (if sa then uLegal f.sa.toNat else f.sa == 0) && legal
      range := fun _ => true
      ropeLevel := true } s
    fun s k => s.finish k (k.rope.setU f.dst.toNat
      (op (k.rope.ureg f.dst.toNat) (k.rope.ureg f.sa.toNat) (f.imm.signExtend 64)))

def execUmovi (i : Issue) (f : IFmt) (s : State) : Host.Outcome State Fault Refusal :=
  uniformImm i f false true (fun _ _ m => m) s

/-- UMOVHI replaces bits 63:32 and keeps bits 31:0. -/
def execUmovhi (i : Issue) (f : IFmt) (s : State) : Host.Outcome State Fault Refusal :=
  uniformImm i f false true (fun d _ m => BitVec.ofNat 64 (d.toNat % 2 ^ 32 + m.toNat % 2 ^ 32 * 2 ^ 32)) s

def execUaddi (i : Issue) (f : IFmt) (s : State) : Host.Outcome State Fault Refusal :=
  uniformImm i f true true (fun _ a m => a + m) s

def execUandi (i : Issue) (f : IFmt) (s : State) : Host.Outcome State Fault Refusal :=
  uniformImm i f true true (fun _ a m => a &&& m) s

def execUori (i : Issue) (f : IFmt) (s : State) : Host.Outcome State Fault Refusal :=
  uniformImm i f true true (fun _ a m => a ||| m) s

/-- IMM bits 31:6 are reserved. -/
def execUshli (i : Issue) (f : IFmt) (s : State) : Host.Outcome State Fault Refusal :=
  uniformImm i f true (decide (f.imm.toNat < 64)) (fun _ a m => a <<< m.toNat) s

def execUshri (i : Issue) (f : IFmt) (s : State) : Host.Outcome State Fault Refusal :=
  uniformImm i f true (decide (f.imm.toNat < 64)) (fun _ a m => a >>> m.toNat) s

end Sys2Proof.Machine
end

