-- ==== Sys2Proof/Machine/Dispatch.lean ====
section
/-! DEFINITION. What each command does: one arm for each constructor of `Instr`, in the opcode table's order. -/

namespace Sys2Proof.Machine

def exec (i : Instr) (s : State) : Host.Outcome State Fault Refusal :=
  match i with
  | .uadd iss f => Sys2Proof.Machine.execUadd iss f s
  | .usub iss f => Sys2Proof.Machine.execUsub iss f s
  | .umul iss f => Sys2Proof.Machine.execUmul iss f s
  | .umulhu iss f => Sys2Proof.Machine.execUmulhu iss f s
  | .uand iss f => Sys2Proof.Machine.execUand iss f s
  | .uor iss f => Sys2Proof.Machine.execUor iss f s
  | .uxor iss f => Sys2Proof.Machine.execUxor iss f s
  | .ushl iss f => Sys2Proof.Machine.execUshl iss f s
  | .ushr iss f => Sys2Proof.Machine.execUshr iss f s
  | .usar iss f => Sys2Proof.Machine.execUsar iss f s
  | .umin iss f => Sys2Proof.Machine.execUmin iss f s
  | .umax iss f => Sys2Proof.Machine.execUmax iss f s
  | .ucmp iss f => Sys2Proof.Machine.execUcmp iss f s
  | .utov iss f => Sys2Proof.Machine.execUtov iss f s
  | .vtou iss f => Sys2Proof.Machine.execVtou iss f s
  | .ptou iss f => Sys2Proof.Machine.execPtou iss f s
  | .utop iss f => Sys2Proof.Machine.execUtop iss f s
  | .sread iss f => Sys2Proof.Machine.execSread iss f s
  | .vlaneid iss f => Sys2Proof.Machine.execVlaneid iss f s
  | .pand iss f => Sys2Proof.Machine.execPand iss f s
  | .por iss f => Sys2Proof.Machine.execPor iss f s
  | .pxor iss f => Sys2Proof.Machine.execPxor iss f s
  | .pandn iss f => Sys2Proof.Machine.execPandn iss f s
  | .umovi iss f => Sys2Proof.Machine.execUmovi iss f s
  | .umovhi iss f => Sys2Proof.Machine.execUmovhi iss f s
  | .uaddi iss f => Sys2Proof.Machine.execUaddi iss f s
  | .uandi iss f => Sys2Proof.Machine.execUandi iss f s
  | .uori iss f => Sys2Proof.Machine.execUori iss f s
  | .ushli iss f => Sys2Proof.Machine.execUshli iss f s
  | .ushri iss f => Sys2Proof.Machine.execUshri iss f s
  | .vadd iss f => Sys2Proof.Machine.execVadd iss f s
  | .vsub iss f => Sys2Proof.Machine.execVsub iss f s
  | .vmul iss f => Sys2Proof.Machine.execVmul iss f s
  | .vmulh iss f => Sys2Proof.Machine.execVmulh iss f s
  | .vand iss f => Sys2Proof.Machine.execVand iss f s
  | .vor iss f => Sys2Proof.Machine.execVor iss f s
  | .vxor iss f => Sys2Proof.Machine.execVxor iss f s
  | .vshl iss f => Sys2Proof.Machine.execVshl iss f s
  | .vshr iss f => Sys2Proof.Machine.execVshr iss f s
  | .vsar iss f => Sys2Proof.Machine.execVsar iss f s
  | .vmin iss f => Sys2Proof.Machine.execVmin iss f s
  | .vmax iss f => Sys2Proof.Machine.execVmax iss f s
  | .vsel iss f => Sys2Proof.Machine.execVsel iss f s
  | .vcmp iss f => Sys2Proof.Machine.execVcmp iss f s
  | .vmov iss f => Sys2Proof.Machine.execVmov iss f s
  | .vpopc iss f => Sys2Proof.Machine.execVpopc iss f s
  | .vmovi iss f => Sys2Proof.Machine.execVmovi iss f s
  | .vaddi iss f => Sys2Proof.Machine.execVaddi iss f s
  | .vfadd iss f => Sys2Proof.Machine.execVfadd iss f s
  | .vfsub iss f => Sys2Proof.Machine.execVfsub iss f s
  | .vfmul iss f => Sys2Proof.Machine.execVfmul iss f s
  | .vfma iss f => Sys2Proof.Machine.execVfma iss f s
  | .vfmin iss f => Sys2Proof.Machine.execVfmin iss f s
  | .vfmax iss f => Sys2Proof.Machine.execVfmax iss f s
  | .vfcmp iss f => Sys2Proof.Machine.execVfcmp iss f s
  | .vfdiv iss f => Sys2Proof.Machine.execVfdiv iss f s
  | .vfsqrt iss f => Sys2Proof.Machine.execVfsqrt iss f s
  | .vfrcp iss f => Sys2Proof.Machine.execVfrcp iss f s
  | .vfrsq iss f => Sys2Proof.Machine.execVfrsq iss f s
  | .vfexp2 iss f => Sys2Proof.Machine.execVfexp2 iss f s
  | .vflog2 iss f => Sys2Proof.Machine.execVflog2 iss f s
  | .vcvt iss f => Sys2Proof.Machine.execVcvt iss f s
  | .vshfl iss f => Sys2Proof.Machine.execVshfl iss f s
  | .vred iss f => Sys2Proof.Machine.execVred iss f s
  | .twait iss f => Sys2Proof.Machine.execTwait iss f s
  | .taccOpen iss f => Sys2Proof.Machine.execTaccOpen iss f s
  | .tmma iss f => Sys2Proof.Machine.execTmma iss f s
  | .tstore iss f => Sys2Proof.Machine.execTstore iss f s
  | .taccLdp iss f => Sys2Proof.Machine.execTaccLdp iss f s
  | .tcomb iss f => Sys2Proof.Machine.execTcomb iss f s
  | .taccRel iss f => Sys2Proof.Machine.execTaccRel iss f s
  | .haulCopy iss f => Sys2Proof.Machine.execHaulCopy iss f s
  | .haulGather iss f => Sys2Proof.Machine.execHaulGather iss f s
  | .haulScatter iss f => Sys2Proof.Machine.execHaulScatter iss f s
  | .haulRed iss f => Sys2Proof.Machine.execHaulRed iss f s
  | .haulPut iss f => Sys2Proof.Machine.execHaulPut iss f s
  | .haulGet iss f => Sys2Proof.Machine.execHaulGet iss f s
  | .bellSig iss f => Sys2Proof.Machine.execBellSig iss f s
  | .bellWait iss f => Sys2Proof.Machine.execBellWait iss f s
  | .bellRead iss f => Sys2Proof.Machine.execBellRead iss f s
  | .bellXchg iss f => Sys2Proof.Machine.execBellXchg iss f s
  | .ld iss f => Sys2Proof.Machine.execLd iss f s
  | .st iss f => Sys2Proof.Machine.execSt iss f s
  | .atom iss f => Sys2Proof.Machine.execAtom iss f s
  | .red iss f => Sys2Proof.Machine.execRed iss f s
  | .tallyAdd iss f => Sys2Proof.Machine.execTallyAdd iss f s
  | .tallyCvt iss f => Sys2Proof.Machine.execTallyCvt iss f s
  | .tallyFlags iss f => Sys2Proof.Machine.execTallyFlags iss f s
  | .spinwait iss f => Sys2Proof.Machine.execSpinwait iss f s
  | .glock iss f => Sys2Proof.Machine.execGlock iss f s
  | .gunlock iss f => Sys2Proof.Machine.execGunlock iss f s
  | .fence iss f => Sys2Proof.Machine.execFence iss f s
  | .nop iss f => Sys2Proof.Machine.execNop iss f s
  | .bra iss f => Sys2Proof.Machine.execBra iss f s
  | .call iss f => Sys2Proof.Machine.execCall iss f s
  | .ret iss f => Sys2Proof.Machine.execRet iss f s
  | .exit iss f => Sys2Proof.Machine.execExit iss f s
  | .bar iss f => Sys2Proof.Machine.execBar iss f s
  | .cairn iss f => Sys2Proof.Machine.execCairn iss f s
  | .ropeLivelock cluster slot => Sys2Proof.Machine.execRopeLivelock cluster slot s
  | .spinwaitReread cluster slot host => Sys2Proof.Machine.execSpinwaitReread cluster slot host s
  | .glockPass cluster slot => Sys2Proof.Machine.execGlockPass cluster slot s
  | .partyLaunch cluster => Sys2Proof.Machine.execPartyLaunch cluster s
  | .partyEnd cluster party => Sys2Proof.Machine.execPartyEnd cluster party s
  | .tensorMilestone cluster host ecc silent => Sys2Proof.Machine.execTensorMilestone cluster host ecc silent s
  | .permitGrant die => Sys2Proof.Machine.execPermitGrant die s
  | .permitLoss cluster => Sys2Proof.Machine.execPermitLoss cluster s
  | .shadowCheck cluster => Sys2Proof.Machine.execShadowCheck cluster s
  | .haulOpStart cluster host => Sys2Proof.Machine.execHaulOpStart cluster host s
  | .haulMilestone cluster => Sys2Proof.Machine.execHaulMilestone cluster s
  | .nopCmd queue => Sys2Proof.Machine.execNopCmd queue s
  | .windowFence queue => Sys2Proof.Machine.execWindowFence queue s
  | .launch queue => Sys2Proof.Machine.execLaunch queue s
  | .bellWaitCmd queue => Sys2Proof.Machine.execBellWaitCmd queue s
  | .bellSignal queue => Sys2Proof.Machine.execBellSignal queue s
  | .hintHeavy queue => Sys2Proof.Machine.execHintHeavy queue s
  | .publish queue host => Sys2Proof.Machine.execPublish queue host s
  | .init queue => Sys2Proof.Machine.execInit queue s
  | .close queue => Sys2Proof.Machine.execClose queue s
  | .discard queue => Sys2Proof.Machine.execDiscard queue s
  | .xltInv queue => Sys2Proof.Machine.execXltInv queue s
  | .tableLoad queue host => Sys2Proof.Machine.execTableLoad queue host s
  | .ctxCreate queue host => Sys2Proof.Machine.execCtxCreate queue host s
  | .ctxDestroy queue => Sys2Proof.Machine.execCtxDestroy queue s
  | .allReduce queue => Sys2Proof.Machine.execAllReduce queue s
  | .reduceScatter queue => Sys2Proof.Machine.execReduceScatter queue s
  | .allGather queue => Sys2Proof.Machine.execAllGather queue s
  | .broadcast queue => Sys2Proof.Machine.execBroadcast queue s
  | .reduce queue => Sys2Proof.Machine.execReduce queue s
  | .barrier queue => Sys2Proof.Machine.execBarrier queue s
  | .muster queue => Sys2Proof.Machine.execMuster queue s
  | .commandComplete queue seq => Sys2Proof.Machine.execCommandComplete queue seq s
  | .doorbell master value => Sys2Proof.Machine.execDoorbell master value s
  | .fetch queue host => Sys2Proof.Machine.execFetch queue host s
  | .sealReread queue host => Sys2Proof.Machine.execSealReread queue host s
  | .sealCrc queue => Sys2Proof.Machine.execSealCrc queue s
  | .queueEnable master queue value => Sys2Proof.Machine.execQueueEnable master queue value s
  | .queueDisable master queue value => Sys2Proof.Machine.execQueueDisable master queue value s
  | .resume master queue value => Sys2Proof.Machine.execResume master queue value s
  | .ringEnable master ring value => Sys2Proof.Machine.execRingEnable master ring value s
  | .ringDisable master ring value => Sys2Proof.Machine.execRingDisable master ring value s
  | .headAdvance master ring value => Sys2Proof.Machine.execHeadAdvance master ring value s
  | .runtimeStop master value => Sys2Proof.Machine.execRuntimeStop master value s
  | .windowWrite tlp => Sys2Proof.Machine.execWindowWrite tlp s
  | .windowRead offset length => Sys2Proof.Machine.execWindowRead offset length s
  | .windowBaseWrite master window value => Sys2Proof.Machine.execWindowBaseWrite master window value s
  | .bootSramWrite offset data => Sys2Proof.Machine.execBootSramWrite offset data s
  | .registerWrite write rival => Sys2Proof.Machine.execRegisterWrite write rival s
  | .registerSignal master bell value => Sys2Proof.Machine.execRegisterSignal master bell value s
  | .ownerWrite master bell value => Sys2Proof.Machine.execOwnerWrite master bell value s
  | .invalidation master value => Sys2Proof.Machine.execInvalidation master value s
  | .drain cache => Sys2Proof.Machine.execDrain cache s
  | .applyOwner master value => Sys2Proof.Machine.execApplyOwner master value s
  | .applyOwnerDone => Sys2Proof.Machine.execApplyOwnerDone s
  | .walk agent ctx va need upset => Sys2Proof.Machine.execWalk agent ctx va need upset s
  | .retry master value => Sys2Proof.Machine.execRetry master value s
  | .fatal master value => Sys2Proof.Machine.execFatal master value s
  | .heldFaultAdmit => Sys2Proof.Machine.execHeldFaultAdmit s
  | .rds agent ctx line upset => Sys2Proof.Machine.execRds agent ctx line upset s
  | .rdx agent ctx line data mask upset => Sys2Proof.Machine.execRdx agent ctx line data mask upset s
  | .upg agent ctx line data mask upset => Sys2Proof.Machine.execUpg agent ctx line data mask upset s
  | .wbd agent line => Sys2Proof.Machine.execWbd agent line s
  | .wbc agent line => Sys2Proof.Machine.execWbc agent line s
  | .rdcur agent ctx line upset => Sys2Proof.Machine.execRdcur agent ctx line upset s
  | .wrnc agent ctx line data mask upset => Sys2Proof.Machine.execWrnc agent ctx line data mask upset s
  | .atomh agent ctx addr op upset => Sys2Proof.Machine.execAtomh agent ctx addr op upset s
  | .snpshr agent line => Sys2Proof.Machine.execSnpshr agent line s
  | .snpinv agent line => Sys2Proof.Machine.execSnpinv agent line s
  | .snpcur agent line => Sys2Proof.Machine.execSnpcur agent line s
  | .snprsp agent line => Sys2Proof.Machine.execSnprsp agent line s
  | .cmp agent line => Sys2Proof.Machine.execCmp agent line s
  | .nack agent line => Sys2Proof.Machine.execNack agent line s
  | .requestResend agent line upset => Sys2Proof.Machine.execRequestResend agent line upset s
  | .installAck agent line => Sys2Proof.Machine.execInstallAck agent line s
  | .lineData agent line upset => Sys2Proof.Machine.execLineData agent line upset s
  | .clean master engine value => Sys2Proof.Machine.execClean master engine value s
  | .cleanInv master engine value => Sys2Proof.Machine.execCleanInv master engine value s
  | .sweepDone engine => Sys2Proof.Machine.execSweepDone engine s
  | .scrubRead stack sector flips => Sys2Proof.Machine.execScrubRead stack sector flips s
  | .refresh stack bank => Sys2Proof.Machine.execRefresh stack bank s
  | .rfm stack bank => Sys2Proof.Machine.execRfm stack bank s
  | .hbmTempRead stack celsius => Sys2Proof.Machine.execHbmTempRead stack celsius s
  | .parityRetry stack sector again => Sys2Proof.Machine.execParityRetry stack sector again s
  | .d2dFrame link dir slice sent got => Sys2Proof.Machine.execD2dFrame link dir slice sent got s
  | .replayTimeout link dir slice => Sys2Proof.Machine.execReplayTimeout link dir slice s
  | .d2dWireFail link dir slice => Sys2Proof.Machine.execD2dWireFail link dir slice s
  | .lockLost generator => Sys2Proof.Machine.execLockLost generator s
  | .powerSample watts => Sys2Proof.Machine.execPowerSample watts s
  | .forcedPeriodEnd => Sys2Proof.Machine.execForcedPeriodEnd s
  | .powerTick vin10mV => Sys2Proof.Machine.execPowerTick vin10mV s
  | .hintEnd => Sys2Proof.Machine.execHintEnd s
  | .tempRead celsius => Sys2Proof.Machine.execTempRead celsius s
  | .thermtrip die celsius => Sys2Proof.Machine.execThermtrip die celsius s
  | .vin48OutOfRange above => Sys2Proof.Machine.execVin48OutOfRange above s
  | .pgDrop => Sys2Proof.Machine.execPgDrop s
  | .vauxLoss => Sys2Proof.Machine.execVauxLoss s
  | .powerOnReset => Sys2Proof.Machine.execPowerOnReset s
  | .cold source => Sys2Proof.Machine.execCold source s
  | .keepMem master value => Sys2Proof.Machine.execKeepMem master value s
  | .functionLevelReset => Sys2Proof.Machine.execFunctionLevelReset s
  | .verify master value => Sys2Proof.Machine.execVerify master value s
  | .romTime => Sys2Proof.Machine.execRomTime s
  | .verifyTime => Sys2Proof.Machine.execVerifyTime s
  | .clocks locked => Sys2Proof.Machine.execClocks locked s
  | .links failedSlices => Sys2Proof.Machine.execLinks failedSlices s
  | .clusters selftestFails => Sys2Proof.Machine.execClusters selftestFails s
  | .memory trained => Sys2Proof.Machine.execMemory trained s
  | .services => Sys2Proof.Machine.execServices s
  | .retirementRequest master value => Sys2Proof.Machine.execRetirementRequest master value s
  | .reeveWdt => Sys2Proof.Machine.execReeveWdt s
  | .beat master value => Sys2Proof.Machine.execBeat master value s
  | .runtimeStall => Sys2Proof.Machine.execRuntimeStall s
  | .routeWrite master source value => Sys2Proof.Machine.execRouteWrite master source value s
  | .linkDown => Sys2Proof.Machine.execLinkDown s
  | .completionTimeout id => Sys2Proof.Machine.execCompletionTimeout id s
  | .apertureReadCompletion id answer => Sys2Proof.Machine.execApertureReadCompletion id answer s
  | .msixUnmask mask => Sys2Proof.Machine.execMsixUnmask mask s
  | .doeDiscovery request => Sys2Proof.Machine.execDoeDiscovery request s
  | .doeAbort => Sys2Proof.Machine.execDoeAbort s
  | .getVersion request => Sys2Proof.Machine.execGetVersion request s
  | .getCapabilities request => Sys2Proof.Machine.execGetCapabilities request s
  | .negotiateAlgorithms request => Sys2Proof.Machine.execNegotiateAlgorithms request s
  | .getDigests request => Sys2Proof.Machine.execGetDigests request s
  | .getCertificate request => Sys2Proof.Machine.execGetCertificate request s
  | .challenge request => Sys2Proof.Machine.execChallenge request s
  | .getMeasurements request => Sys2Proof.Machine.execGetMeasurements request s
  | .keyExchange request => Sys2Proof.Machine.execKeyExchange request s
  | .finish request => Sys2Proof.Machine.execFinish request s
  | .endSession request => Sys2Proof.Machine.execEndSession request s
  | .heartbeat request => Sys2Proof.Machine.execHeartbeat request s
  | .data frame => Sys2Proof.Machine.execData frame s
  | .read frame => Sys2Proof.Machine.execRead frame s
  | .bell frame => Sys2Proof.Machine.execBell frame s
  | .ack frame => Sys2Proof.Machine.execAck frame s
  | .hold frame => Sys2Proof.Machine.execHold frame s
  | .refuse frame => Sys2Proof.Machine.execRefuse frame s
  | .ackTimer peer => Sys2Proof.Machine.execAckTimer peer s
  | .rtoResend peer psn => Sys2Proof.Machine.execRtoResend peer psn s
  | .portMaskRestore peer port => Sys2Proof.Machine.execPortMaskRestore peer port s
  | .peerLost peer => Sys2Proof.Machine.execPeerLost peer s
  | .portUp port => Sys2Proof.Machine.execPortUp port s
  | .portDown port => Sys2Proof.Machine.execPortDown port s
  | .bindingWrite master ctx value => Sys2Proof.Machine.execBindingWrite master ctx value s
  | .ptpMessage msg => Sys2Proof.Machine.execPtpMessage msg s
  | .ppsEdge => Sys2Proof.Machine.execPpsEdge s
  | .timeSet master value => Sys2Proof.Machine.execTimeSet master value s
  | .segmentRun frame => Sys2Proof.Machine.execSegmentRun frame s
  | .credit frame => Sys2Proof.Machine.execCredit frame s
  | .ready frame => Sys2Proof.Machine.execReady frame s
  | .musterAck frame => Sys2Proof.Machine.execMusterAck frame s
  | .go frame => Sys2Proof.Machine.execGo frame s
  | .abort frame => Sys2Proof.Machine.execAbort frame s
  | .timeout ctx => Sys2Proof.Machine.execTimeout ctx s
  | .readyHoldExpiry ctx => Sys2Proof.Machine.execReadyHoldExpiry ctx s
  | .pulse frame => Sys2Proof.Machine.execPulse frame s
  | .traceAdmit source => Sys2Proof.Machine.execTraceAdmit source s
  | .traceRingWrite master value => Sys2Proof.Machine.execTraceRingWrite master value s
  | .shadowRingWrite master value => Sys2Proof.Machine.execShadowRingWrite master value s
  | .errorRingWrite master value => Sys2Proof.Machine.execErrorRingWrite master value s
  | .freeze master value => Sys2Proof.Machine.execFreeze master value s
  | .clearAll master value => Sys2Proof.Machine.execClearAll master value s
  | .counterWrite write hit => Sys2Proof.Machine.execCounterWrite write hit s
  | .sbTransfer address write parityOk => Sys2Proof.Machine.execSbTransfer address write parityOk s
  | .tripClear value => Sys2Proof.Machine.execTripClear value s
  | .entdaa address => Sys2Proof.Machine.execEntdaa address s
  | .setdasa address => Sys2Proof.Machine.execSetdasa address s
  | .rstdaa => Sys2Proof.Machine.execRstdaa s
  | .getstatus => Sys2Proof.Machine.execGetstatus s
  | .bypass bits => Sys2Proof.Machine.execBypass bits s
  | .idcode tap => Sys2Proof.Machine.execIdcode tap s
  | .samplePreload pins bits => Sys2Proof.Machine.execSamplePreload pins bits s
  | .extest bits => Sys2Proof.Machine.execExtest bits s
  | .coreParity core => Sys2Proof.Machine.execCoreParity core s
  | .linkUp speed width flit => Sys2Proof.Machine.execLinkUp speed width flit s
  | .perstRelease => Sys2Proof.Machine.execPerstRelease s
  | .vin48InRange => Sys2Proof.Machine.execVin48InRange s
  | .vaux3v3Present => Sys2Proof.Machine.execVaux3v3Present s
  | .bootStageOverrun => Sys2Proof.Machine.execBootStageOverrun s
  | .l1Evict cluster ctx line invalidate => Sys2Proof.Machine.execL1Evict cluster ctx line invalidate s
  | .unsupportedDoeObject request => Sys2Proof.Machine.execUnsupportedDoeObject request s
  | .unsupportedSpdmRequest request => Sys2Proof.Machine.execUnsupportedSpdmRequest request s

end Sys2Proof.Machine
end

