-- ==== Sys2Proof/Machine/Tick.lean ====
section
/-! DEFINITION. One ac of the block's own time: what happens with no command waiting (log 1; 00_scope.md R16; 04 R128;
05 R174; 15 R478; 18 R532; 20 Tables 20.3 and 20.4). -/

namespace Sys2Proof.Machine

/-! ### The time counter (15 R478) -/

/-- One ac at an operating point (01 R29), in units of 1/819 ns. -/
def acUnits (op : Nat) : Nat := if op = 0 then 780 else if op = 1 then 840 else 910

/-- The clocks run: the root PLL is locked and no generator has lost lock. -/
def State.clocksRun (s : State) : Bool :=
  s.board.rails && s.rbit .glbClkStatus .rootLock && !s.rbit .glbClkStatus .lockLost

/-- The time counter advances by one ac at the rate that the servo steers; what is still held is taken first. -/
def State.timeTick (s : State) : State :=
  let unit := 819 * 1000000
  let t := s.timeFrac + acUnits (s.rf .pwrOp .op) * (1000000 + s.pod.rate).toNat
  let ns := t / unit
  let hold := min ns s.pod.timeHold
  { s with acCount := s.acCount + 1
           time := (s.time + (ns - hold)) % 2 ^ 64
           timeFrac := t % unit
           pod := { s.pod with timeHold := s.pod.timeHold - hold } }

/-! ### Clusters -/

/-- R174: every active lane of a rope waits in SPINWAIT, or in a GLOCK pass that won nothing. A lane whose
condition held has left SPINWAIT (R173), so it no longer counts as waiting there. -/
def Rope.spinning (r : Rope) : Bool :=
  r.stall.isNone && (match r.wait with
  | .spin _ left => left == r.active
  | .glock _ e => e == r.active
  | _ => false)

/-- Count one ac of an event for the contexts that it happens in. -/
def State.countAc (s : State) (c ev : Nat) (ctxs : List Nat) : State :=
  if !s.counting || ctxs.isEmpty then s
  else (List.range 16).foldl (fun s k =>
    let f := s.rf (.clCtrSel c k) .ctx
    if s.rbit (.clCtrSel c k) .en && s.rf (.clCtrSel c k) .event == ev && (f == 63 || ctxs.contains f)
    then s.bump (.clCtr c k) (.clCtrOvf c) k 1 else s) s

/-- The contexts of a cluster's resident parties. -/
def Cluster.ctxs (k : Cluster) : List Nat := k.parties.map fun e => e.2.par.ctx

/-- The contexts of the ropes of which something holds. -/
def Cluster.ctxsOf (k : Cluster) (f : Rope → Bool) : List Nat :=
  k.ropes.filterMap fun e => if f e.2 then (Table.find k.parties e.2.party).map fun p => p.par.ctx else none

/-- A rope waits in BELL.WAIT. -/
def Rope.inBellWait (r : Rope) : Bool :=
  match r.wait with
  | .bell _ _ _ => true
  | _ => false

/-- The agents of a cluster that are stalled on a translation fault, by context. -/
def Cluster.stalls (k : Cluster) : List Nat :=
  k.ctxsOf (fun r => r.stall.isSome) ++ (k.te.stall.map Prod.fst).toList ++ (k.haul.stall.map Prod.fst).toList

/-- R128: the array of an engine has nothing to do. -/
def TensorEngine.arrayIdle (t : TensorEngine) : Bool :=
  match t.head with
  | some o => (match o.kind with
    | .mma _ _ _ _ _ => false
    | _ => true)
  | none => true

/-- One ac of a cluster: counters, livelock counts and permits. -/
def State.clusterTick (s : State) (c : Nat) (k : Cluster) : State :=
  let bubble := s.bubbleAc c s.acCount
  let asks := if k.te.asked.isSome then (k.te.head.map fun o => o.ctx).toList else []
  let s1 := s.countAc c 1 k.ctxs
  let s2 := if bubble then s1.countAc c 3 k.ctxs else s1
  let s3 := ((s2.countAc c 8 asks).countAc c 12 k.stalls).countAc c 13 (k.ctxsOf Rope.inBellWait)
  let s4 := if k.te.asked.isSome then s3.satRf (.clTeStat c) .permitWait 1 else s3
  let s5 := if k.haul.stall.isSome then s4.satRf (.clHaulStat c) .xltStall 1 else s4
  if bubble then s5
  else s5.setCluster c { k with
    ropes := k.ropes.map fun e => (e.1, if e.2.spinning then { e.2 with livelock := e.2.livelock + 1 } else e.2)
    te := if k.te.permit && k.te.arrayIdle then { k.te with idleAc := k.te.idleAc + 1 } else k.te }

/-- One ac of every cluster that is not idle, and two fc of the package. -/
def State.acTick (s : State) : State :=
  let s1 := s.countPkg 1 0 63 2
  s1.clusters.foldl (fun t e => if t.clusterHalted e.1 then t else t.clusterTick e.1 e.2) s1

/-- An ac with no command waiting: the ROM stage and VERIFY come to their ends; once the clocks run, the time counter
advances, and in READY waiting home transactions, cores that have met poison, and the clusters go on. -/
def State.tick (s : State) : State :=
  if s.inStage 0 then s.endRom
  else if s.inStage stVerify then s.endVerify
  else if s.clocksRun then
    let s1 := s.timeTick
    if s.ready then s1.settled.coresMeet.acTick else s1
  else s

end Sys2Proof.Machine
end

