-- ==== Sys2Proof/Safety.lean ====
section
/-! DEFINITION. What holds of every state the block can be in, and what a step must not do: the terms statements use. -/

namespace Sys2Proof.Machine

/-- A step goes on: it answers a next state. -/
def goesOn (s : State) : Prop := ∃ t, step s = .next t

/-! ### Issuing an instruction -/

/-- The rope that `i` names can issue an instruction under guard `g`, finding `k`, and its operand reads meet no SRAM
error. -/
def State.issues (s : State) (i : Issue) (g : Guard) (k : IssueCtx) : Prop := s.issuing i g = some k ∧ i.ecc = .none

/-- The state after an instruction that leaves its rope as `r`, pc and all: the rope put back, and the issue counted
(20 Table 20.3 event 2). -/
def State.placed (s : State) (k : IssueCtx) (r : Rope) : State := (s.putRope k r).countCl k.c 2 k.ctx 1

/-- The state after an instruction that leaves its rope as `r` but for the pc, which is on the next instruction
(06 R177). -/
def State.retired (s : State) (k : IssueCtx) (r : Rope) : State := s.placed k { r with pc := r.pc + 8, issueLog := [] }

/-- Lane `l` of the value of `n` vector registers from `reg`, its low bits in the lowest register (06 R183). -/
def Rope.lane (r : Rope) (n reg l : Nat) : Nat :=
  (List.range n).foldl (fun a j => a + 2 ^ (32 * j) * bits (r.vreg (reg + j)).toNat (32 * l) 32) 0

/-- Lane `l` of a source operand: a uniform register broadcast, the zero operand, or a vector value (06 R183). -/
def Rope.operand (r : Rope) (uni : Bool) (n field l : Nat) : Nat :=
  if uni then (r.ureg field).toNat % 2 ^ (32 * n) else if field = 255 then 0 else r.lane n field l

/-- Rope `b` is rope `a` with `v` in uniform register `n`. -/
def wroteU (a b : Rope) (n : Nat) (v : Word) : Prop :=
  b = { a with u := b.u } ∧ b.ureg n = v ∧ ∀ j, j ≠ n → b.ureg j = a.ureg j

/-- Rope `b` is rope `a` with the lanes in `e` of predicate register `n` written. -/
def wroteP (a b : Rope) (n : Nat) (e : Mask) (val : Nat → Bool) : Prop :=
  b = { a with p := b.p } ∧
    (∀ l, l < 32 → (b.preg n).getLsbD l = if e.getLsbD l then val l else (a.preg n).getLsbD l) ∧
    ∀ j, j ≠ n → b.preg j = a.preg j

/-- Rope `b` is rope `a` with the lanes in `e` of the value of `n` vector registers from `field` written; a write to
field 255 changes nothing (06 R183). -/
def wroteV (a b : Rope) (n field : Nat) (e : Mask) (val : Nat → Nat) : Prop :=
  b = { a with v := b.v } ∧ (field = 255 → b = a) ∧
    (field ≠ 255 →
      (∀ l, l < 32 → b.lane n field l = if e.getLsbD l then val l else a.lane n field l) ∧
      ∀ j, j < field ∨ field + n ≤ j → b.vreg j = a.vreg j)

/-! ### Addresses of memory instructions -/

/-- A vector field that names `n` registers lies below VREGS and is aligned, or is the zero operand (06 R183). -/
def inReach (vregs n field : Nat) : Prop := field = 255 ∨ (field % n = 0 ∧ field + n ≤ vregs)

/-- The address operand of a format M word is legal and in range, as is its DATA of `nr` registers (06 R183, R200). -/
def operandsFit (vregs nr : Nat) (f : MFmt) : Prop :=
  f.ch.toNat ≤ 1 ∧ (f.uaddr = true → f.addr.toNat < 64) ∧
    (f.uaddr = false → inReach vregs (if f.spc then 1 else 2) f.addr.toNat) ∧ inReach vregs nr f.data.toNat

/-- The address of lane `l` (06 R200): a uniform address, with `stride` per lane, or the lane's own, plus `off`. -/
def Rope.addrOf (r : Rope) (f : MFmt) (off : Int) (stride l : Nat) : Nat :=
  let b := if f.uaddr then (r.ureg f.addr.toNat).toNat + stride * l
    else r.operand false (if f.spc then 1 else 2) f.addr.toNat l
  let a := (((b : Int) + off) % 2 ^ 64).toNat
  if f.spc then a % 2 ^ 32 else a

/-- The registers that an access of 2 to the `size` bytes moves (06 R183, R201). -/
def widthRegs (size : Nat) : Nat := if size ≤ 2 then 1 else 2 ^ (size - 2)

/-- The new value that an atomic of `w` bits leaves (05 R160, 06 Table 6.14): memory `m`, operand `v`, compare value
`c`. -/
def atomNew (sub w : Nat) (m v c : BitVec w) : BitVec w :=
  if sub = 0 then m + v else if sub = 1 then m &&& v else if sub = 2 then m ||| v else if sub = 3 then m ^^^ v
  else if sub = 4 then (if v.slt m then v else m) else if sub = 5 then (if m.slt v then v else m)
  else if sub = 6 then (if v.ult m then v else m) else if sub = 7 then (if m.ult v then v else m)
  else if sub = 8 then v else if sub = 9 then (if m = c then v else m)
  else BitVec.ofNat w (rneAdd (if w = 32 then fp32 else fp64) m.toNat v.toNat)

/-- The lanes of a list in turn, each applying its operand and compare value. -/
def atomRun (sub w : Nat) (val cmp : Nat → Nat) (start : Nat) (ls : List Nat) : Nat :=
  ls.foldl (fun m l => (atomNew sub w (BitVec.ofNat w m) (BitVec.ofNat w (val l)) (BitVec.ofNat w (cmp l))).toNat) start

/-- No rope and no command waits on bell `b`. -/
def State.unawaited (s : State) (b : Nat) : Prop :=
  (∀ c ∈ s.clusters, ∀ r ∈ c.2.ropes, ∀ t sc, r.2.wait ≠ .bell b t sc) ∧
    ∀ q ∈ s.queues, ∀ x ∈ q.2.cmds, x.state = .waiting 2 → x.word 1 ≠ b

/-! ### Commands of the queues -/

/-- Command `c` of queue `n` may start or go on now (13 R407), and its header's reserved flags are 0 (13 R412). -/
def State.startable (s : State) (n : Nat) (c : Cmd) : Prop :=
  s.nextCmd n (fun _ => true) = some c ∧ s.mayStart n c = true ∧ c.flags / 4 = 0

/-! ### Frames of the pod -/

/-- A frame of the transport for this port, which a node takes part in receiving and does not discard (15 R455, R460); `t` is `s` with the frame counted and
what its sender is answered with kept. -/
def State.reaches (s : State) (f : Frame) (t : State) : Prop :=
  s.ready = true ∧ s.rbit .podNode .valid = true ∧ s.portUp f.port = true ∧ s.addressed f = true ∧ s.discards f = false ∧
    let s1 := s.wrapRf (.podPortFrames f.port) .rx 1
    t = s1.setPeer f.src { s1.peer f.src with stamp := f.stamp, port := f.port, job := f.job }

/-- The job of a sequenced frame is bound to context `n`, and its PSN is one of the next 4,096 that has neither been
received nor waits (15 R460, R462). -/
def State.fresh (s : State) (f : Frame) (n : Nat) : Prop :=
  let p := s.peer f.src
  s.jobCtx f.job = some n ∧ 0 < p.above f.psn ∧ p.above f.psn ≤ 4096 ∧ f.psn ∉ p.rxGot ∧
    (∀ h ∈ s.pod.held, ¬(h.peer = f.src ∧ h.psn = f.psn)) ∧ ∀ b ∈ p.backlog, b.owner ≠ FrameOf.answer f.psn

/-- The state after an outcome, if it is a next state. -/
def after (o : Host.Outcome State Fault Refusal) : Option State :=
  match o with
  | .next t => some t
  | _ => none

end Sys2Proof.Machine
end

