-- ==== Sys2Proof/Certificates/Slice0/Obligations.lean ====
section
/-! DEFINITION. The statements about this block for the provers. -/

section

open Sys2Proof Sys2Proof.Machine

/-! ### Issue of cluster instructions -/

/-- For every state, rope that can issue under its guard with a non-empty effective mask, and format V word whose
used registers are below 64 and whose unused fields are 0: UADD, USUB, UMUL, UMULHU, UAND, UOR, UXOR, USHL, USHR,
USAR, UMIN and UMAX answer the next state in which only u[DST] of the rope has changed, to the value Table 6.9 gives
(shift counts are bits 5:0; MOD bit 0 of UMIN and UMAX selects signed order), with the pc on the next instruction
and the issue counted. -/
def Obligations.UniformArithmetic : Prop :=
  ∀ (s : State) (i : Issue) (f : VFmt) (k : IssueCtx), s.issues i f.guard k → k.e ≠ 0 →
    f.dst.toNat < 64 → f.sa.toNat < 64 → f.sb.toNat < 64 →
    f.sc = 0 → f.ua = false → f.ub = false → f.uc = false → f.ty = 0 →
    let a := k.rope.ureg f.sa.toNat
    let b := k.rope.ureg f.sb.toNat
    let gives := fun (c : Instr) (v : Word) =>
      ∃ r, exec c s = .next (s.retired k r) ∧ wroteU k.rope r f.dst.toNat v
    (f.mod = 0 →
      gives (.uadd i f) (BitVec.ofNat 64 (a.toNat + b.toNat)) ∧
      gives (.usub i f) (BitVec.ofInt 64 (a.toInt - b.toInt)) ∧
      gives (.umul i f) (BitVec.ofNat 64 (a.toNat * b.toNat)) ∧
      gives (.umulhu i f) ((a.zeroExtend 128 * b.zeroExtend 128).extractLsb' 64 64) ∧
      gives (.uand i f) (a &&& b) ∧ gives (.uor i f) (a ||| b) ∧ gives (.uxor i f) (a ^^^ b) ∧
      gives (.ushl i f) (a <<< (b.extractLsb' 0 6).toNat) ∧
      gives (.ushr i f) (a >>> (b.extractLsb' 0 6).toNat) ∧
      gives (.usar i f) (a.sshiftRight (b.extractLsb' 0 6).toNat)) ∧
    (f.mod = 0 → gives (.umin i f) (if a.ult b then a else b) ∧ gives (.umax i f) (if a.ult b then b else a)) ∧
    (f.mod = 1 → gives (.umin i f) (if a.slt b then a else b) ∧ gives (.umax i f) (if a.slt b then b else a))

/-- For every rope that can issue: UMOVI, UMOVHI, UADDI, UANDI, UORI, USHLI, USHRI (format I, reserved bit 0; SA 0
where unused; IMM below 64 for the shifts; non-empty effective mask) and PTOU change only u[DST], to the value Table
6.9 gives; VMOVI and VADDI write the lanes in E of v[DST] with IMM, or v[SA] + IMM modulo 2^32. -/
def Obligations.UniformImmediates : Prop :=
  ∀ (s : State) (i : Issue) (k : IssueCtx),
    (∀ f : IFmt, s.issues i f.guard k → k.e ≠ 0 → f.res = false → f.dst.toNat < 64 →
      let a := k.rope.ureg f.sa.toNat
      let d := k.rope.ureg f.dst.toNat
      let m := f.imm.signExtend 64
      let gives := fun (c : Instr) (v : Word) =>
        ∃ r, exec c s = .next (s.retired k r) ∧ wroteU k.rope r f.dst.toNat v
      (f.sa = 0 → gives (.umovi i f) m ∧ gives (.umovhi i f) (f.imm ++ d.extractLsb' 0 32)) ∧
      (f.sa.toNat < 64 →
        gives (.uaddi i f) (a + m) ∧ gives (.uandi i f) (a &&& m) ∧ gives (.uori i f) (a ||| m) ∧
        (f.imm.toNat < 64 → gives (.ushli i f) (a <<< f.imm.toNat) ∧ gives (.ushri i f) (a >>> f.imm.toNat)))) ∧
    (∀ f : VFmt, s.issues i f.guard k → k.e ≠ 0 → f.dst.toNat < 64 → f.sa.toNat < 8 →
      f.sb = 0 → f.sc = 0 → f.ua = false → f.ub = false → f.uc = false → f.ty = 0 → f.mod = 0 →
      ∃ r, exec (.ptou i f) s = .next (s.retired k r) ∧
        wroteU k.rope r f.dst.toNat ((k.rope.preg f.sa.toNat).zeroExtend 64)) ∧
    (∀ f : IFmt, s.issues i f.guard k → f.res = false →
      (f.dst.toNat = 255 ∨ f.dst.toNat < k.party.par.vregs) →
      (f.sa = 0 → ∃ r, exec (.vmovi i f) s = .next (s.retired k r) ∧
        wroteV k.rope r 1 f.dst.toNat k.e fun _ => f.imm.toNat) ∧
      ((f.sa.toNat = 255 ∨ f.sa.toNat < k.party.par.vregs) →
        ∃ r, exec (.vaddi i f) s = .next (s.retired k r) ∧
          wroteV k.rope r 1 f.dst.toNat k.e fun l =>
            (k.rope.operand false 1 f.sa.toNat l + f.imm.toNat) % 2 ^ 32))

/-- For every rope that can issue and legal words: UCMP writes the lanes in E of p[DST] with the comparison (MOD
bits 2:0 the condition, bit 3 signed); UTOP writes all 32 lanes of p[DST]; PAND, POR, PXOR and PANDN write the lanes
in E of p[DST]; UTOV writes the lanes in E of v[DST] with the low bits of u[SA] (64 for TY 2, 3 and 5, 16 for 6 and
7, 32 for 0, 1 and 4); VTOU writes u[DST] with lane u[SB] mod 32 of v[SA], zero-extended; VLANEID writes lane
numbers. -/
def Obligations.UniformMoves : Prop :=
  ∀ (s : State) (i : Issue) (f : VFmt) (k : IssueCtx), s.issues i f.guard k → f.sc = 0 → f.ua = false → f.ub = false →
    f.uc = false →
    let vregs := k.party.par.vregs
    let n := if f.ty.toNat = 2 ∨ f.ty.toNat = 3 ∨ f.ty.toNat = 5 then 2 else 1
    let w := if n = 2 then 64 else if f.ty.toNat = 6 ∨ f.ty.toNat = 7 then 16 else 32
    let inReach := fun (field : Nat) => field = 255 ∨ (field % n = 0 ∧ field + n ≤ vregs)
    (∀ cond sgn, cond < 6 → f.mod.toNat = cond + 8 * bval sgn → f.ty = 0 → f.dst.toNat < 8 → f.sa.toNat < 64 →
      f.sb.toNat < 64 →
      let a := k.rope.ureg f.sa.toNat
      let b := k.rope.ureg f.sb.toNat
      let less := fun (x y : Word) => if sgn then x.slt y else x.ult y
      ∃ r, exec (.ucmp i f) s = .next (s.retired k r) ∧ wroteP k.rope r f.dst.toNat k.e fun _ =>
        if cond = 0 then a == b else if cond = 1 then a != b else if cond = 2 then less a b
        else if cond = 3 then !less b a else if cond = 4 then less b a else !less a b) ∧
    (f.mod = 0 →
      (f.ty = 0 → f.sb = 0 → f.dst.toNat < 8 → f.sa.toNat < 64 →
        ∃ r, exec (.utop i f) s = .next (s.retired k r) ∧
          wroteP k.rope r f.dst.toNat (BitVec.allOnes 32) fun l => (k.rope.ureg f.sa.toNat).getLsbD l) ∧
      (f.ty = 0 → f.dst.toNat < 8 → f.sa.toNat < 8 → f.sb.toNat < 8 →
        let a := k.rope.preg f.sa.toNat
        let b := k.rope.preg f.sb.toNat
        let gives := fun (c : Instr) (v : Nat → Bool) =>
          ∃ r, exec c s = .next (s.retired k r) ∧ wroteP k.rope r f.dst.toNat k.e v
        gives (.pand i f) (fun l => a.getLsbD l && b.getLsbD l) ∧ gives (.por i f) (fun l => a.getLsbD l || b.getLsbD l) ∧
          gives (.pxor i f) (fun l => a.getLsbD l ^^ b.getLsbD l) ∧
          gives (.pandn i f) (fun l => a.getLsbD l && !b.getLsbD l)) ∧
      (f.ty.toNat < 8 → f.sb = 0 → inReach f.dst.toNat → f.sa.toNat < 64 →
        ∃ r, exec (.utov i f) s = .next (s.retired k r) ∧
          wroteV k.rope r n f.dst.toNat k.e fun _ => (k.rope.ureg f.sa.toNat).toNat % 2 ^ w) ∧
      (f.ty.toNat < 8 → k.e ≠ 0 → f.dst.toNat < 64 → inReach f.sa.toNat → f.sb.toNat < 64 →
        ∃ r, exec (.vtou i f) s = .next (s.retired k r) ∧
          wroteU k.rope r f.dst.toNat (BitVec.ofNat 64
            (k.rope.operand false n f.sa.toNat ((k.rope.ureg f.sb.toNat).toNat % 32) % 2 ^ w))) ∧
      (f.ty = 0 → f.sa = 0 → f.sb = 0 → (f.dst.toNat = 255 ∨ f.dst.toNat < vregs) →
        ∃ r, exec (.vlaneid i f) s = .next (s.retired k r) ∧ wroteV k.rope r 1 f.dst.toNat k.e fun l => l))

/-- For every rope that can issue with a non-empty effective mask, SREAD of each index of Table 6.7 (timing-
dependent ones, 16 and above, in a context without STRICT) changes only u[DST]: 0 to 10 the launch argument, party
index and count, rope index and count, logical cluster, rank and ranks (0 and 1 without a binding), context, active
mask and VREGS; 16 the rope slot; 17 the package time; 32 to 47 the cluster counter, 0 unless its filter names the
rope's context. -/
def Obligations.SpecialRegisters : Prop :=
  ∀ (s : State) (i : Issue) (f : VFmt) (k : IssueCtx), s.issues i f.guard k → k.e ≠ 0 → f.dst.toNat < 64 →
    f.sb = 0 → f.sc = 0 → f.ua = false → f.ub = false → f.uc = false → f.ty = 0 → f.mod = 0 →
    (f.sa.toNat < 16 ∨ k.cx.strict = false) →
    let gives := fun (v : Word) => ∃ r, exec (.sread i f) s = .next (s.retired k r) ∧ wroteU k.rope r f.dst.toNat v
    let num := fun (x : Nat) => gives (BitVec.ofNat 64 x)
    let isBound := s.rbit (.podCtxJob k.ctx) .valid = true
    (f.sa = 0 → gives k.party.par.arg) ∧ (f.sa = 1 → num k.party.index) ∧ (f.sa = 2 → num k.party.par.parties) ∧
    (f.sa = 3 → num k.rope.index) ∧ (f.sa = 4 → num k.party.par.ropes) ∧ (f.sa = 5 → num k.c) ∧
    (f.sa = 6 → (isBound → num (s.rf (.podCtxMap k.ctx) .myRank)) ∧ (¬isBound → num 0)) ∧
    (f.sa = 7 → (isBound → num (s.rf (.podCtxJob k.ctx) .ranks)) ∧ (¬isBound → num 1)) ∧
    (f.sa = 8 → num k.ctx) ∧ (f.sa = 9 → gives (k.rope.active.zeroExtend 64)) ∧ (f.sa = 10 → num k.party.par.vregs) ∧
    (f.sa = 16 → num k.slot) ∧ (f.sa = 17 → num s.time) ∧
    (∀ j, j < 16 → f.sa.toNat = 32 + j →
      (s.rf (.clCtrSel k.c j) .ctx = k.ctx → num (s.rf (.clCtr k.c j) .value)) ∧
      (s.rf (.clCtrSel k.c j) .ctx ≠ k.ctx → num 0))

/-- For every rope that can issue and legal word (TY 0 to 3, vector fields aligned and in range or 255, uniform
fields below 64, unused fields 0): each of VADD, VSUB, VMUL, VMULH, VAND, VOR, VXOR, VSHL, VSHR, VSAR, VMIN, VMAX,
VSEL, VMOV and VPOPC writes the lanes in E of v[DST] with the result of R193 (modulo 2^32 or 2^64, VSHR logical,
VSAR arithmetic, order and VMULH signed for TY 0 and 2, shift counts bits 4:0 or 5:0), and VCMP the lanes in E of
p[DST]; nothing else of the rope changes but its pc. -/
def Obligations.VectorIntegers : Prop :=
  ∀ (s : State) (i : Issue) (f : VFmt) (k : IssueCtx), s.issues i f.guard k → f.uc = false → f.ty.toNat < 4 →
    let vregs := k.party.par.vregs
    let n := if f.ty.toNat < 2 then 1 else 2
    let w := 32 * n
    let sgn := f.ty = 0 ∨ f.ty = 2
    let inReach := fun (field : Nat) => field = 255 ∨ (field % n = 0 ∧ field + n ≤ vregs)
    let source := fun (uni : Bool) (field : Nat) => if uni then field < 64 else inReach field
    let a := fun l => BitVec.ofNat w (k.rope.operand f.ua n f.sa.toNat l)
    let b := fun l => BitVec.ofNat w (k.rope.operand f.ub n f.sb.toNat l)
    let gives := fun (c : Instr) (v : Nat → BitVec w) =>
      ∃ r, exec c s = .next (s.retired k r) ∧ wroteV k.rope r n f.dst.toNat k.e fun l => (v l).toNat
    let less := fun (x y : BitVec w) => if sgn then x.slt y else x.ult y
    source f.ua f.sa.toNat →
    (f.mod = 0 → inReach f.dst.toNat →
      (source f.ub f.sb.toNat →
        (f.sc = 0 →
          gives (.vadd i f) (fun l => a l + b l) ∧ gives (.vsub i f) (fun l => a l - b l) ∧
          gives (.vmul i f) (fun l => a l * b l) ∧
          gives (.vmulh i f) (fun l =>
            if sgn then ((a l).signExtend (2 * w) * (b l).signExtend (2 * w)).extractLsb' w w
            else ((a l).zeroExtend (2 * w) * (b l).zeroExtend (2 * w)).extractLsb' w w) ∧
          gives (.vand i f) (fun l => a l &&& b l) ∧ gives (.vor i f) (fun l => a l ||| b l) ∧
          gives (.vxor i f) (fun l => a l ^^^ b l) ∧
          gives (.vshl i f) (fun l => a l <<< ((b l).toNat % w)) ∧
          gives (.vshr i f) (fun l => a l >>> ((b l).toNat % w)) ∧
          gives (.vsar i f) (fun l => (a l).sshiftRight ((b l).toNat % w)) ∧
          gives (.vmin i f) (fun l => if less (b l) (a l) then b l else a l) ∧
          gives (.vmax i f) (fun l => if less (a l) (b l) then b l else a l)) ∧
        (f.sc.toNat < 8 →
          gives (.vsel i f) fun l => if (k.rope.preg f.sc.toNat).getLsbD l then a l else b l)) ∧
      (f.sb = 0 → f.sc = 0 → f.ub = false →
        gives (.vmov i f) a ∧
        gives (.vpopc i f) fun l => BitVec.ofNat w ((List.range w).filter fun j => (a l).getLsbD j).length)) ∧
    (f.mod.toNat < 6 → f.sc = 0 → f.dst.toNat < 8 → source f.ub f.sb.toNat →
      ∃ r, exec (.vcmp i f) s = .next (s.retired k r) ∧ wroteP k.rope r f.dst.toNat k.e fun l =>
        if f.mod = 0 then a l == b l else if f.mod = 1 then a l != b l else if f.mod = 2 then less (a l) (b l)
        else if f.mod = 3 then !less (b l) (a l) else if f.mod = 4 then less (b l) (a l) else !less (a l) (b l))

/-- For every rope that can issue and legal word (TY 4 to 7, or 4 alone for VFDIV to VFLOG2; unused fields 0):
VFADD, VFSUB, VFMUL and VFMA write the lanes in E of v[DST] with the exact sum, difference, product or product plus
c of the operands under NEG and ABS (absolute value first, then negation), rounded once in the format of TY; VFMIN
and VFMAX with the smaller or larger operand of R195; VFCMP the lanes in E of p[DST] with the condition of MOD bits
2:0; VFDIV, VFSQRT, VFRCP, VFRSQ, VFEXP2 and VFLOG2 with their FP32 function. -/
def Obligations.VectorFloats : Prop :=
  ∀ (s : State) (i : Issue) (f : VFmt) (k : IssueCtx), s.issues i f.guard k →
    let vregs := k.party.par.vregs
    let n := if f.ty = 5 then 2 else 1
    let inReach := fun (field : Nat) => field = 255 ∨ (field % n = 0 ∧ field + n ≤ vregs)
    let source := fun (uni : Bool) (field : Nat) => if uni then field < 64 else inReach field
    let fm := if f.ty = 4 then fp32 else if f.ty = 5 then fp64 else if f.ty = 6 then fp16 else bf16
    let bitsOf := fun (x : Nat) => if f.ty = 4 then x % 2 ^ 32 else if f.ty = 5 then x % 2 ^ 64 else x % 2 ^ 16
    let sign := fun (abs neg : Bool) (v : Fp) => (fun u => if neg then Fp.neg u else u) (if abs then v.abs else v)
    let x := fun l => fm.decode (bitsOf (k.rope.operand f.ua n f.sa.toNat l))
    let y := fun l => fm.decode (bitsOf (k.rope.operand f.ub n f.sb.toNat l))
    let z := fun l => fm.decode (bitsOf (k.rope.operand f.uc n f.sc.toNat l))
    let a := fun l => sign (f.mod.getLsbD 3) (f.mod.getLsbD 0) (x l)
    let b := fun l => sign (f.mod.getLsbD 4) (f.mod.getLsbD 1) (y l)
    let c := fun l => sign false (f.mod.getLsbD 2) (z l)
    let gives := fun (c : Instr) (v : Nat → Nat) =>
      ∃ r, exec c s = .next (s.retired k r) ∧ wroteV k.rope r n f.dst.toNat k.e v
    source f.ua f.sa.toNat →
    (4 ≤ f.ty.toNat → f.ty.toNat ≤ 7 → source f.ub f.sb.toNat →
      (f.mod.toNat < 32 → inReach f.dst.toNat → source f.uc f.sc.toNat →
        gives (.vfma i f) fun l => fm.round (((a l).mul (b l)).add (c l))) ∧
      (f.sc = 0 → f.uc = false →
        (f.mod.toNat < 32 → f.mod.getLsbD 2 = false → inReach f.dst.toNat →
          gives (.vfadd i f) (fun l => fm.round ((a l).add (b l))) ∧
          gives (.vfsub i f) (fun l => fm.round ((a l).add (b l).neg)) ∧
          gives (.vfmul i f) (fun l => fm.round ((a l).mul (b l)))) ∧
        (f.mod = 0 → inReach f.dst.toNat →
          gives (.vfmin i f) (fun l => fm.round (Fp.minmax false (x l) (y l))) ∧
          gives (.vfmax i f) (fun l => fm.round (Fp.minmax true (x l) (y l)))) ∧
        (f.mod.toNat < 7 → f.dst.toNat < 8 →
          ∃ r, exec (.vfcmp i f) s = .next (s.retired k r) ∧
            wroteP k.rope r f.dst.toNat k.e fun l => Fp.test f.mod.toNat (x l) (y l)))) ∧
    (f.ty = 4 → f.mod = 0 → f.sc = 0 → f.uc = false → inReach f.dst.toNat →
      (source f.ub f.sb.toNat → gives (.vfdiv i f) fun l => fp32.div (x l) (y l)) ∧
      (f.sb = 0 → f.ub = false →
        gives (.vfsqrt i f) (fun l => fp32.sqrt (x l)) ∧ gives (.vfrcp i f) (fun l => fpRcp (x l)) ∧
        gives (.vfrsq i f) (fun l => fpRsq (x l)) ∧ gives (.vfexp2 i f) (fun l => fpExp2 (x l)) ∧
        gives (.vflog2 i f) (fun l => fpLog2 (x l))))

/-- For every rope that can issue and legal word: VCVT writes the lanes in E of v[DST] with the conversion of v[SA]
from TY to the type of MOD bits 3:0 (integer to integer keeps the low bits of the extended value; float to integer
rounds toward zero under RTZ, else to nearest even, and saturates; a NaN gives 0, an infinity saturates; float to
float is the format conversion; integer to float rounds once); VSHFL gives lane i of E the bits that its type uses
of the lane that its mode selects (R198's table), read whatever the mask, with the upper bits 0; VRED writes u[DST]
with the reduction of v[SA] over the lanes of E in ascending order: a float sum is one group in the accumulator and
window of Table 2.4, an integer sum wraps, MIN and MAX follow R195 or integer order, and with E empty the identity
of R199 is written. -/
def Obligations.ConvertShuffleReduce : Prop :=
  ∀ (s : State) (i : Issue) (f : VFmt) (k : IssueCtx), s.issues i f.guard k → f.sc = 0 → f.uc = false →
    let vregs := k.party.par.vregs
    let regsOf := fun (ty : Nat) => if ty = 2 ∨ ty = 3 ∨ ty = 5 then 2 else 1
    let widthOf := fun (ty : Nat) =>
      if ty = 2 ∨ ty = 3 ∨ ty = 5 then 64 else if ty = 6 ∨ ty = 7 then 16 else if ty = 8 ∨ ty = 9 then 8 else 32
    let isFloat := fun (ty : Nat) => 4 ≤ ty
    let fmtOf := fun (ty : Nat) => if ty = 4 then fp32 else if ty = 5 then fp64 else if ty = 6 then fp16
      else if ty = 7 then bf16 else if ty = 8 then e4m3 else e5m2
    let inReach := fun (n field : Nat) => field = 255 ∨ (field % n = 0 ∧ field + n ≤ vregs)
    let source := fun (uni : Bool) (n field : Nat) => if uni then field < 64 else inReach n field
    let src := f.ty.toNat
    let dst := f.mod.toNat % 16
    let intOf := fun (ty x : Nat) => if ty = 0 ∨ ty = 2 then (BitVec.ofNat (widthOf ty) x).toInt else (x % 2 ^ widthOf ty : Nat)
    (f.sb = 0 → f.ub = false → src < 10 → dst < 10 → f.mod.toNat < 32 → (isFloat dst → f.mod.toNat < 16) →
      inReach (regsOf dst) f.dst.toNat → source f.ua (regsOf src) f.sa.toNat →
      ∃ r v, exec (.vcvt i f) s = .next (s.retired k r) ∧ wroteV k.rope r (regsOf dst) f.dst.toNat k.e v ∧
        ∀ l, l < 32 →
          let x := k.rope.operand f.ua (regsOf src) f.sa.toNat l % 2 ^ widthOf src
          (¬isFloat src → ¬isFloat dst → v l = (BitVec.ofInt (widthOf dst) (intOf src x)).toNat) ∧
          (¬isFloat src → isFloat dst → v l = (fmtOf dst).round (Fp.ofInt (intOf src x))) ∧
          (isFloat src → isFloat dst → v l = convert (fmtOf src) (fmtOf dst) x) ∧
          (isFloat src → ¬isFloat dst →
            let lo : Int := if dst = 0 ∨ dst = 2 then -(2 ^ (widthOf dst - 1) : Nat) else 0
            let hi : Int := if dst = 0 ∨ dst = 2 then (2 ^ (widthOf dst - 1) : Nat) - 1 else (2 ^ widthOf dst : Nat) - 1
            (∀ neg m e, (fmtOf src).decode x = .fin neg m e → v l =
              (BitVec.ofInt (widthOf dst) (max lo (min hi (Fp.toInt (f.mod.getLsbD 4) m e neg)))).toNat) ∧
            ((fmtOf src).decode x = .nan → v l = 0) ∧
            ((fmtOf src).decode x = .inf false →
              v l = if dst = 0 ∨ dst = 2 then 2 ^ (widthOf dst - 1) - 1 else 2 ^ widthOf dst - 1) ∧
            ((fmtOf src).decode x = .inf true → v l = if dst = 0 ∨ dst = 2 then 2 ^ (widthOf dst - 1) else 0))) ∧
    (f.mod.toNat < 4 → src < 8 → inReach (regsOf src) f.dst.toNat → source f.ua (regsOf src) f.sa.toNat →
      let value := fun l => k.rope.operand f.ua (regsOf src) f.sa.toNat l % 2 ^ widthOf src
      let d := f.sb.toNat
      let gives := fun (lane : Nat → Nat) => ∃ r, exec (.vshfl i f) s = .next (s.retired k r) ∧
        wroteV k.rope r (regsOf src) f.dst.toNat k.e fun l => value (lane l)
      (f.mod = 0 → source f.ub 1 f.sb.toNat → gives fun l => k.rope.operand f.ub 1 f.sb.toNat l % 32) ∧
      (f.ub = false → d < 32 →
        (f.mod = 1 → gives fun l => if l < d then l else l - d) ∧
        (f.mod = 2 → gives fun l => if 31 < l + d then l else l + d) ∧
        (f.mod = 3 → gives fun l => l ^^^ d))) ∧
    (f.sb = 0 → f.ub = false → f.mod.toNat < 3 → src < 8 → f.dst.toNat < 64 → source f.ua (regsOf src) f.sa.toNat →
      let vals := (lanes k.e).map fun l => k.rope.operand f.ua (regsOf src) f.sa.toNat l % 2 ^ widthOf src
      let reals := vals.map (fmtOf src).decode
      let ints := vals.map (intOf src)
      let least : Int := if src = 0 ∨ src = 2 then -(2 ^ (widthOf src - 1) : Nat) else 0
      let greatest : Int := if src = 0 ∨ src = 2 then (2 ^ (widthOf src - 1) : Nat) - 1 else (2 ^ widthOf src : Nat) - 1
      let gives := fun (v : Nat) =>
        ∃ r, exec (.vred i f) s = .next (s.retired k r) ∧ wroteU k.rope r f.dst.toNat (BitVec.ofNat 64 v)
      (f.mod = 0 → isFloat src → k.e ≠ 0 → gives (if src = 5 then groupSum fp64 160 reals
        else groupSum fp32 (if src = 4 then 96 else 48) reals)) ∧
      (0 < f.mod.toNat → isFloat src → ∀ x t, reals = x :: t →
        gives ((fmtOf src).round (t.foldl (Fp.minmax (f.mod == 2)) x))) ∧
      (f.mod = 0 → ¬isFloat src → gives (vals.foldl (fun t x => t + x) 0 % 2 ^ widthOf src)) ∧
      (f.mod = 1 → ¬isFloat src →
        gives (BitVec.ofInt (widthOf src) (ints.foldl (fun x y => min x y) greatest)).toNat) ∧
      (f.mod = 2 → ¬isFloat src →
        gives (BitVec.ofInt (widthOf src) (ints.foldl (fun x y => max x y) least)).toNat) ∧
      (k.e = 0 →
        (f.mod = 0 → gives 0) ∧
        (f.mod = 1 → isFloat src → gives ((fmtOf src).round (.inf false))) ∧
        (f.mod = 2 → isFloat src → gives ((fmtOf src).round (.inf true)))))

/-- For every rope that can issue and legal word: VFCMP writes a lane with a NaN operand with false, but true for NE
and UN, and a lane with two zeros of either sign as equal (true for EQ, LE and GE alone); VFMIN and VFMAX write the
value of the other operand where exactly one is NaN, the canonical NaN of the format where both are, and order -0
below +0. VFRCP, VFRSQ, VFEXP2 and VFLOG2 give the special cases of Table 6.12. -/
def Obligations.FloatComparisons : Prop :=
  (∀ (s : State) (i : Issue) (f : VFmt) (k : IssueCtx), s.issues i f.guard k →
    let vregs := k.party.par.vregs
    let n := if f.ty = 5 then 2 else 1
    let source := fun (uni : Bool) (field : Nat) => if uni then field < 64 else inReach vregs n field
    let fm := if f.ty = 4 then fp32 else if f.ty = 5 then fp64 else if f.ty = 6 then fp16 else bf16
    let bitsOf := fun (x : Nat) => if f.ty = 4 then x % 2 ^ 32 else if f.ty = 5 then x % 2 ^ 64 else x % 2 ^ 16
    let quiet : Nat := if f.ty = 4 then 0x7FC00000 else if f.ty = 5 then 0x7FF8000000000000
      else if f.ty = 6 then 0x7E00 else 0x7FC0
    let x := fun l => fm.decode (bitsOf (k.rope.operand f.ua n f.sa.toNat l))
    let y := fun l => fm.decode (bitsOf (k.rope.operand f.ub n f.sb.toNat l))
    let zero := fun (v : Fp) (neg : Bool) => ∃ e, v = .fin neg 0 e
    4 ≤ f.ty.toNat → f.ty.toNat ≤ 7 → f.sc = 0 → f.uc = false → source f.ua f.sa.toNat → source f.ub f.sb.toNat →
    (f.mod.toNat < 7 → f.dst.toNat < 8 → ∃ r c, exec (.vfcmp i f) s = .next (s.retired k r) ∧
      wroteP k.rope r f.dst.toNat k.e c ∧ ∀ l,
        ((x l = .nan ∨ y l = .nan) → (c l = true ↔ f.mod = 1 ∨ f.mod = 6)) ∧
        (∀ a b, zero (x l) a → zero (y l) b → (c l = true ↔ f.mod = 0 ∨ f.mod = 3 ∨ f.mod = 5))) ∧
    (f.mod = 0 → inReach vregs n f.dst.toNat → ∀ hi : Bool, ∃ r v,
      exec (if hi then .vfmax i f else .vfmin i f) s = .next (s.retired k r) ∧ wroteV k.rope r n f.dst.toNat k.e v ∧ ∀ l,
        (x l = .nan → y l ≠ .nan → v l = fm.round (y l)) ∧ (x l ≠ .nan → y l = .nan → v l = fm.round (x l)) ∧
        (x l = .nan → y l = .nan → v l = quiet) ∧
        (∀ a b, zero (x l) a → zero (y l) b → v l =
          fm.round (.fin (if hi then a && b else a || b) 0 0)))) ∧
  fpRcp (fp32.decode 0) = 0x7F800000 ∧ fpRsq (fp32.decode 0) = 0x7F800000 ∧ fpExp2 (fp32.decode 0) = 0x3F800000 ∧
    fpLog2 (fp32.decode 0) = 0xFF800000 ∧
  fpRcp (fp32.decode 0x80000000) = 0xFF800000 ∧ fpRsq (fp32.decode 0x80000000) = 0xFF800000 ∧
    fpExp2 (fp32.decode 0x80000000) = 0x3F800000 ∧ fpLog2 (fp32.decode 0x80000000) = 0xFF800000 ∧
  fpRcp (fp32.decode 0x7F800000) = 0 ∧ fpRsq (fp32.decode 0x7F800000) = 0 ∧
    fpExp2 (fp32.decode 0x7F800000) = 0x7F800000 ∧ fpLog2 (fp32.decode 0x7F800000) = 0x7F800000 ∧
  fpRcp (fp32.decode 0xFF800000) = 0x80000000 ∧ fpRsq (fp32.decode 0xFF800000) = 0x7FC00000 ∧
    fpExp2 (fp32.decode 0xFF800000) = 0 ∧ fpLog2 (fp32.decode 0xFF800000) = 0x7FC00000 ∧
  (∀ m e, m ≠ 0 → fpRsq (.fin true m e) = 0x7FC00000 ∧ fpLog2 (.fin true m e) = 0x7FC00000) ∧
  fpRcp .nan = 0x7FC00000 ∧ fpRsq .nan = 0x7FC00000 ∧ fpExp2 .nan = 0x7FC00000 ∧ fpLog2 .nan = 0x7FC00000

/-- For every rope that can issue and legal word: NOP only moves on; BRA, with the predicate all ones under ALW,
else p[BP] or its complement, follows R142: no lane taken, every lane taken, or a divergence whose first path is the
branch target when that lies behind, with the later lanes added to the top entry where its join and pending address
match, else pushed as a new entry below depth 32; CALL below 16 entries pushes the next address and the mask stack's
depth and jumps; RET pops an entry whose depth matches and jumps to its address. -/
def Obligations.BranchesAndCalls : Prop :=
  ∀ (s : State) (i : Issue) (f : CFmt) (k : IssueCtx), s.issues i noGuard k → f.res = 0 →
    let r := k.rope
    let next := r.pc + 8
    let target := r.pc + 8 * f.tgt.signExtend 64
    let join := r.pc + 8 * f.jn.zeroExtend 64
    let lane := fun l => f.alw || ((r.preg f.bp.toNat).getLsbD l ^^ f.bn)
    let plain := f.bp = 0 ∧ f.bn = false
    (plain → f.alw = false → f.tgt = 0 → f.jn = 0 → exec (.nop i f) s = .next (s.retired k r)) ∧
    (plain → f.alw = false → f.jn = 0 → r.ret.length < 16 →
      exec (.call i f) s = .next (s.placed k { r with ret := (next, r.stack.length) :: r.ret, pc := target })) ∧
    (plain → f.alw = false → f.tgt = 0 → f.jn = 0 → ∀ a rest, r.ret = (a, r.stack.length) :: rest →
      exec (.ret i f) s = .next (s.placed k { r with ret := rest, pc := a })) ∧
    ((f.alw = true → plain ∧ f.jn = 0) → (f.alw = false → f.jn ≠ 0) →
      ((∀ l, r.active.getLsbD l = true → lane l = false) → exec (.bra i f) s = .next (s.retired k r)) ∧
      (r.active ≠ 0 → (∀ l, r.active.getLsbD l = true → lane l = true) →
        exec (.bra i f) s = .next (s.placed k { r with pc := target })) ∧
      (∀ taken fall : Mask, taken ≠ 0 → fall ≠ 0 →
        (∀ l, taken.getLsbD l = (r.active.getLsbD l && lane l)) →
        (∀ l, fall.getLsbD l = (r.active.getLsbD l && !lane l)) →
        ∀ firstPc firstMask laterPc laterMask,
          (target.ult next = true → firstPc = target ∧ firstMask = taken ∧ laterPc = next ∧ laterMask = fall) →
          (target.ult next = false → firstPc = next ∧ firstMask = fall ∧ laterPc = target ∧ laterMask = taken) →
          (∀ e rest, r.stack = e :: rest → e.join = join → e.pendingPc = laterPc →
            exec (.bra i f) s = .next (s.placed k { r with
              active := firstMask, pc := firstPc
              stack := { e with pendingMask := e.pendingMask ||| laterMask } :: rest })) ∧
          (r.stack.length < 32 → (∀ e, r.stack.head? = some e → ¬(e.join = join ∧ e.pendingPc = laterPc)) →
            exec (.bra i f) s = .next (s.placed k { r with
              active := firstMask, pc := firstPc, stack := ⟨join, r.active, laterPc, laterMask⟩ :: r.stack }))))

/-- What an issue finds of a rope is the rope with the loop of R143 applied. Each turn, with the pc on the top
entry's join: pending lanes that have not exited are taken up at the pending address and their entry's pending mask
is cleared; without such lanes the active mask becomes the saved lanes that have not exited and the entry is popped.
The loop ends only on an empty stack or with the pc off the top entry's join, for every stack of at most 32 entries
(R145 allows no more); a rope in either of those cases is found unchanged. -/
def Obligations.JoinBeforeIssue : Prop :=
  (∀ (s : State) (i : Issue) (g : Guard) (k : IssueCtx), s.issuing i g = some k →
    ∃ r, Table.find (s.cluster i.cluster).ropes i.slot = some r ∧
      k.rope = (Rope.join 70 r false).1 ∧
      (r.stack = [] → k.rope = r) ∧
      (∀ e rest, r.stack = e :: rest → r.pc ≠ e.join → k.rope = r) ∧
      (r.stack.length ≤ 32 → k.rope.stack = [] ∨ ∃ e rest, k.rope.stack = e :: rest ∧ k.rope.pc ≠ e.join)) ∧
  (∀ (n : Nat) (r : Rope) (b : Bool) (e : MaskEntry) (rest : List MaskEntry), r.stack = e :: rest → r.pc = e.join →
    ((∃ l, l < 32 ∧ e.pendingMask.getLsbD l = true ∧ r.exited.getLsbD l = false) →
      Rope.join (n + 1) r b = Rope.join n { r with
        active := e.pendingMask &&& ~~~r.exited, pc := e.pendingPc
        stack := { e with pendingMask := 0 } :: rest } true) ∧
    ((∀ l, l < 32 → e.pendingMask.getLsbD l = true → r.exited.getLsbD l = true) →
      Rope.join (n + 1) r b = Rope.join n { r with active := e.saved &&& ~~~r.exited, stack := rest } false))

/-- For every rope that can issue and legal word: EXIT of some but not all active lanes adds them to the exited
mask, takes them out of the active mask and every saved and pending mask, and moves on; with no active lane left it
goes to the top entry's join and takes up its pending, else its saved lanes; EXIT of the last lanes ends the rope,
all 32 lanes exited, and then releases a barrier that the other ropes wait at; BAR with every non-exited lane active
leaves the rope waiting and then releases the barrier if every rope of the party that has not ended waits at the
same BAR, all of them on the next instruction. -/
def Obligations.ExitAndBarrier : Prop :=
  (∀ (s : State) (i : Issue) (f : CFmt) (k : IssueCtx), s.issues i noGuard k → f.res = 0 → f.tgt = 0 → f.jn = 0 →
    let r := k.rope
    let lane := fun l => f.alw || ((r.preg f.bp.toNat).getLsbD l ^^ f.bn)
    ((f.alw = true → f.bp = 0 ∧ f.bn = false) → ∀ gone : Mask,
      (∀ l, gone.getLsbD l = (r.active.getLsbD l && lane l)) →
      (r.active &&& ~~~gone ≠ 0 → r.exited ||| gone ≠ BitVec.allOnes 32 →
        exec (.exit i f) s = .next (s.retired k { r with
          exited := r.exited ||| gone, active := r.active &&& ~~~gone
          stack := r.stack.map fun e =>
            { e with saved := e.saved &&& ~~~gone, pendingMask := e.pendingMask &&& ~~~gone } })) ∧
      (r.active &&& ~~~gone = 0 → r.exited ||| gone ≠ BitVec.allOnes 32 → ∀ e rest, r.stack = e :: rest →
        let x := r.exited ||| gone
        let cut := fun (e : MaskEntry) =>
          { e with saved := e.saved &&& ~~~gone, pendingMask := e.pendingMask &&& ~~~gone }
        (e.pendingMask &&& ~~~x ≠ 0 →
          exec (.exit i f) s = .next (s.placed k { r with
            exited := x, active := e.pendingMask &&& ~~~x, pc := e.pendingPc
            stack := { cut e with pendingMask := 0 } :: rest.map cut })) ∧
        (e.pendingMask &&& ~~~x = 0 → e.saved &&& ~~~x ≠ 0 →
          exec (.exit i f) s = .next (s.placed k { r with
            exited := x, active := e.saved &&& ~~~x, pc := e.join, stack := rest.map cut }))) ∧
      (r.exited ||| gone = BitVec.allOnes 32 →
        ∃ q, q.ended = true ∧ q.party = r.party ∧
          exec (.exit i f) s = .next (((s.putRope k q).setCluster k.c
            (((s.putRope k q).cluster k.c).releaseBar r.party)).countCl k.c 2 k.ctx 1))) ∧
    (f.bp = 0 → f.bn = false → f.alw = false → r.active = ~~~r.exited →
      let s1 := s.putRope k { r with wait := .bar }
      exec (.bar i f) s = .next ((s1.setCluster k.c ((s1.cluster k.c).releaseBar r.party)).countCl k.c 2 k.ctx 1))) ∧
  (∀ (c : Cluster) (party : Nat),
    ((∀ e ∈ c.ropes, e.2.party = party → e.2.ended = false →
        e.2.wait = .bar ∧ ∀ e' ∈ c.ropes, e'.2.party = party → e'.2.ended = false → e'.2.pc = e.2.pc) →
      c.releaseBar party = { c with ropes := c.ropes.map fun e =>
        if e.2.party = party ∧ e.2.ended = false then (e.1, { e.2 with pc := e.2.pc + 8, wait := .none }) else e }) ∧
    (∀ e ∈ c.ropes, e.2.party = party → e.2.ended = false → e.2.wait ≠ .bar → c.releaseBar party = c))

/-- For a rope that can issue, on the vector integer add as representative of the shared issue: an SRAM double-bit
error of its operand reads makes the cluster's hardware fault, a corrected one is counted and the instruction
completes; a reserved field that is not 0, a uniform field of 64 or more, or an odd field of a pair raises
ILLEGAL_INSTR; a register at or above VREGS then raises REG_RANGE; for SREAD of a timing-dependent register in a
STRICT context STRICT_CLASS; a rope-level instruction with an empty effective mask only issues; and a rope that
waits, has ended, or is on a halted cluster is left as it is. -/
def Obligations.IssueChecks : Prop :=
  ∀ (s : State) (i : Issue) (f : VFmt),
    (s.issuing i f.guard = none → exec (.vadd i f) s = .next s ∧ exec (.sread i f) s = .next s) ∧
    (∀ k, s.issuing i f.guard = some k →
      (i.ecc = .uncorrectable →
        exec (.vadd i f) s = .next ((s.setRf (.clMemEcc k.c) .uncorr 1).clusterFail k.c Code.clusterUncorr)) ∧
      (i.ecc = .none →
        let s1 := s.countCl k.c 2 k.ctx 1
        let n := if f.ty.toNat < 2 then 1 else 2
        let misfit := fun (uni : Bool) (field : Nat) => if uni then 64 ≤ field else field ≠ 255 ∧ field % n ≠ 0
        let beyond := fun (field : Nat) => field ≠ 255 ∧ k.party.par.vregs < field + n
        ((f.mod ≠ 0 ∨ f.sc ≠ 0 ∨ f.uc = true ∨ 4 ≤ f.ty.toNat ∨ misfit false f.dst.toNat ∨ misfit f.ua f.sa.toNat ∨
            misfit f.ub f.sb.toNat) →
          exec (.vadd i f) s = .next (s1.fail k Code.illegalInstr)) ∧
        (f.mod = 0 → f.sc = 0 → f.uc = false → f.ty.toNat < 4 → ¬misfit false f.dst.toNat → ¬misfit f.ua f.sa.toNat →
          ¬misfit f.ub f.sb.toNat →
          (beyond f.dst.toNat ∨ (f.ua = false ∧ beyond f.sa.toNat) ∨ (f.ub = false ∧ beyond f.sb.toNat)) →
          exec (.vadd i f) s = .next (s1.fail k Code.regRange)) ∧
        (f.dst.toNat < 64 → f.sb = 0 → f.sc = 0 → f.ua = false → f.ub = false → f.uc = false → f.ty = 0 → f.mod = 0 →
          (f.sa = 16 ∨ f.sa = 17 ∨ (32 ≤ f.sa.toNat ∧ f.sa.toNat ≤ 47) → k.cx.strict = true →
            exec (.sread i f) s = .next (s1.fail k Code.strictClass)) ∧
          (f.sa.toNat ≤ 10 → k.e = 0 → exec (.sread i f) s = .next (s1.finish k k.rope)))) ∧
      (i.ecc = .corrected →
        let s2 := (s.satRf (.clMemEcc k.c) .corrected 1).clusterCe k.c
        let inReach := fun (field : Nat) => field = 255 ∨ field < k.party.par.vregs
        f.mod = 0 → f.sc = 0 → f.uc = false → f.ua = false → f.ub = false → f.ty = 0 → inReach f.dst.toNat →
        inReach f.sa.toNat → inReach f.sb.toNat →
        ∃ r, exec (.vadd i f) s = .next (s2.retired k r) ∧ wroteV k.rope r 1 f.dst.toNat k.e fun l =>
          (k.rope.operand false 1 f.sa.toNat l + k.rope.operand false 1 f.sb.toNat l) % 2 ^ 32))

/-- The state in which the instructions of Tables 6.9 to 6.11 and the control instructions leave the block (their
statements name it): the issuing rope is the one given, every other rope, party, queue, table and engine of every
cluster is unchanged, every state field but clusters and registers is unchanged, so every byte of memory and every
bell, queue and link is, and of the registers only the sixteen counters of that cluster, their overflow bits and
CTR_OVF of OBS_EVENT can change. -/
def Obligations.RetiredFrame : Prop :=
  ∀ (s : State) (k : IssueCtx) (r : Rope), (Table.find (s.cluster k.c).ropes k.slot).isSome = true →
    let t := s.placed k r
    Table.find (t.cluster k.c).ropes k.slot = some r ∧
    (∀ j, j ≠ k.slot → Table.find (t.cluster k.c).ropes j = Table.find (s.cluster k.c).ropes j) ∧
    (∃ q, t.cluster k.c = { s.cluster k.c with ropes := q }) ∧
    (∀ c, c ≠ k.c → t.cluster c = s.cluster c) ∧
    (∃ regs clusters, t = { s with regs := regs, clusters := clusters }) ∧
    (∀ a, t.mem.read a = s.mem.read a) ∧
    (∀ g : Reg, (∀ n, n < 16 → g.addr ≠ (Reg.clCtr k.c n).addr) → g.addr ≠ (Reg.clCtrOvf k.c).addr →
      g.addr ≠ Reg.obsEvent.addr → t.reg g = s.reg g)

/-! ### Memory instructions -/

/-- For every rope that can issue and legal word with SPC = 1 (every SIZE, LIDX with a uniform address, SEXT for
LD): where every lane of E lies inside the local store, LD writes the lanes in E of DATA with the little-endian
bytes at their addresses, sign-extended under SEXT when narrower than 4 bytes; ST leaves each byte it covers with
the byte of the highest lane that covers it, and every other byte of the local store as it was; the distinct sectors
are counted. An access past the bound raises LS_BOUNDS and moves nothing. -/
def Obligations.LoadsStoresLocal : Prop :=
  ∀ (s : State) (i : Issue) (f : MFmt) (k : IssueCtx), s.issues i f.guard k → f.spc = true → f.scope = 0 →
    f.size.toNat ≤ 5 → (f.sub.getLsbD 1 = true → f.uaddr = true) →
    operandsFit k.party.par.vregs (widthRegs f.size.toNat) f →
    let n := 2 ^ f.size.toNat
    let addr := k.rope.addrOf f f.off.toInt (if f.sub.getLsbD 1 then n else 0)
    let value := k.rope.operand false (widthRegs f.size.toNat) f.data.toNat
    let counted := fun (t : State) =>
      t.countCl k.c 4 k.ctx (sectorCount ((lanes k.e).map fun l => (l, addr l)) n)
    let inside := ∀ l ∈ lanes k.e, addr l + n ≤ k.party.par.lsKib * 1024
    (inside → f.sub.toNat < 4 →
      ∃ r, exec (.ld i f) s = .next ((counted s).retired k r) ∧
        wroteV k.rope r (widthRegs f.size.toNat) f.data.toNat k.e fun l =>
          let x := k.party.lsRead (addr l) n
          if f.sub.getLsbD 0 = true ∧ n < 4 then ((BitVec.ofNat (8 * n) x).signExtend 32).toNat else x) ∧
    (inside → f.sub = 0 ∨ f.sub = 2 → k.e ≠ 0 →
      ∃ ls, exec (.st i f) s =
          .next ((counted (s.setParty k.c k.rope.party { k.party with ls := ls })).retired k k.rope) ∧
        (∀ l ∈ lanes k.e, ∀ j, j < n →
          (∀ m ∈ lanes k.e, l < m → addr l + j < addr m ∨ addr m + n ≤ addr l + j) →
          Table.get 0 ls (addr l + j) = BitVec.ofNat 8 (value l / 256 ^ j)) ∧
        ∀ o, (∀ l ∈ lanes k.e, o < addr l ∨ addr l + n ≤ o) → Table.get 0 ls o = Table.get 0 k.party.ls o) ∧
    (k.e = 0 → f.sub = 0 ∨ f.sub = 2 → exec (.st i f) s = .next (s.retired k k.rope)) ∧
    (¬inside →
      (f.sub.toNat < 4 → exec (.ld i f) s = .next ((s.fail k Code.lsBounds).countCl k.c 2 k.ctx 1)) ∧
      (f.sub = 0 ∨ f.sub = 2 → exec (.st i f) s = .next ((s.fail k Code.lsBounds).countCl k.c 2 k.ctx 1)))

/-- For every rope that can issue, and legal word (a context with STRICT takes ATOM and FADD at rope scope only)
with SPC = 1 whose lanes are aligned and inside the local store: ATOM writes each lane in E of DATA with the value
that the lower lanes of its address left (R160, the operations of Table 6.14, CAS with its new value in the next
register or pair), and ATOM and RED leave at each address the value after all its lanes, and every other byte of the
local store as it was. A misaligned lane raises ATOMIC_ALIGN. -/
def Obligations.AtomicsLocal : Prop :=
  ∀ (s : State) (i : Issue) (f : MFmt) (k : IssueCtx), s.issues i f.guard k → f.spc = true →
    (f.size = 2 ∨ f.size = 3) →
    operandsFit k.party.par.vregs (widthRegs f.size.toNat) f →
    (f.sub = 9 → f.data.toNat = 255 ∨ f.data.toNat + 2 * widthRegs f.size.toNat ≤ k.party.par.vregs) →
    let n := 2 ^ f.size.toNat
    let nr := widthRegs f.size.toNat
    let addr := k.rope.addrOf f f.off.toInt 0
    let first := k.rope.operand false nr f.data.toNat
    let second := fun l => if f.data.toNat = 255 then 0 else k.rope.operand false nr (f.data.toNat + nr) l
    let run := fun (ls : List Nat) (start : Nat) =>
      atomRun f.sub.toNat (8 * n) (if f.sub = 9 then second else first) first start ls
    let before := fun l => run ((lanes k.e).filter fun m => decide (m < l) && addr m == addr l) (k.party.lsRead (addr l) n)
    let legalAtom := f.sub.toNat ≤ 10 ∧ (f.scope = 0 ∨ k.cx.strict = false)
    let legalRed := f.sub.toNat ≤ 7 ∨ (f.sub = 10 ∧ (f.scope = 0 ∨ k.cx.strict = false))
    let final := fun l => run ((lanes k.e).filter fun m => addr m == addr l) (k.party.lsRead (addr l) n)
    let counted := fun (t : State) =>
      t.countCl k.c 4 k.ctx (sectorCount ((lanes k.e).map fun l => (l, addr l)) n)
    let leaves := fun (ls : Table Byte) =>
      (∀ l ∈ lanes k.e, ({ k.party with ls := ls } : Party).lsRead (addr l) n = final l) ∧
        ∀ o, (∀ l ∈ lanes k.e, o < addr l ∨ addr l + n ≤ o) → Table.get 0 ls o = Table.get 0 k.party.ls o
    (k.e ≠ 0 → (∀ l ∈ lanes k.e, addr l % n = 0 ∧ addr l + n ≤ k.party.par.lsKib * 1024) →
      (legalAtom → ∃ r ls,
        exec (.atom i f) s =
          .next ((counted (s.setParty k.c k.rope.party { k.party with ls := ls })).retired k r) ∧
        wroteV k.rope r nr f.data.toNat k.e before ∧ leaves ls) ∧
      (legalRed → ∃ ls,
        exec (.red i f) s =
          .next ((counted (s.setParty k.c k.rope.party { k.party with ls := ls })).retired k k.rope) ∧ leaves ls)) ∧
    (k.e = 0 → (legalAtom → exec (.atom i f) s = .next (s.retired k k.rope)) ∧
      (legalRed → exec (.red i f) s = .next (s.retired k k.rope))) ∧
    ((∃ l ∈ lanes k.e, addr l % n ≠ 0) →
      (legalAtom → exec (.atom i f) s = .next ((s.fail k Code.atomicAlign).countCl k.c 2 k.ctx 1)) ∧
      (legalRed →
        exec (.red i f) s = .next ((s.fail k Code.atomicAlign).countCl k.c 2 k.ctx 1)))

/-- An exact finite value v adds trunc(v / 2^Q), truncated toward zero; INEXACT is set exactly if truncation drops a
non-zero part; RANGE exactly if |v| is at least 2^(Q + 224); a NaN or an infinity adds 0 and sets NONFINITE alone;
and the cell's new integer is the sum modulo 2^256. For every rope that can issue and legal word: TALLY.ADD with SPC
= 1 on aligned cells inside the local store leaves at each cell X plus the addends of all its lanes modulo 2^256,
every other byte as it was, and the party's flags joined with those of the lanes; TALLY.CVT writes the lanes in E of
DATA with X times 2^Q rounded once to FP32 or FP64, a zero as +0; TALLY.FLAGS (non-empty E) writes u[DATA] with
INEXACT, RANGE and NONFINITE in bits 0 to 2, and then clears them under CLEAR. A misaligned cell raises TALLY_ALIGN.
-/
def Obligations.TallyCells : Prop :=
  (
    (∀ (q : Int) (neg : Bool) (m : Nat) (e : Int),
      let sgn : Int := if neg then -1 else 1
      let a := tallyAddend q (.fin neg m e)
      (q ≤ e → a.1 = sgn * (m * 2 ^ (e - q).toNat : Nat) ∧ a.2.inexact = false) ∧
      (e < q → a.1 = sgn * (m / 2 ^ (q - e).toNat : Nat) ∧ (a.2.inexact = true ↔ ¬ 2 ^ (q - e).toNat ∣ m)) ∧
      (e ≤ q + 224 → (a.2.range = true ↔ 2 ^ (q + 224 - e).toNat ≤ m)) ∧
      (q + 224 < e → (a.2.range = true ↔ m ≠ 0)) ∧
      a.2.nonfinite = false) ∧
    (∀ q, tallyAddend q .nan = (0, ⟨false, false, true⟩)) ∧
    (∀ q neg, tallyAddend q (.inf neg) = (0, ⟨false, false, true⟩)) ∧
    (∀ (x : Nat) (d : Int), (tallySum x d : Int) = (x + d) % 2 ^ 256)) ∧
  (
    ∀ (s : State) (i : Issue) (f : MFmt) (k : IssueCtx), s.issues i f.guard k →
      let ty := f.sub.toNat
      let nr := widthRegs f.size.toNat
      let q := (f.off.extractLsb' 8 12).toInt
      let addr := k.rope.addrOf f (32 * (f.off.extractLsb' 0 8).toNat : Nat) 0
      let value := k.rope.operand false nr f.data.toNat
      let fp := fun l => if ty = 0 then fp32.decode (value l) else if ty = 1 then fp64.decode (value l)
        else if ty = 2 then bf16.decode (value l % 2 ^ 16)
        else if ty = 3 then Fp.ofInt (BitVec.ofNat 32 (value l)).toInt else Fp.ofInt (BitVec.ofNat 64 (value l)).toInt
      let joined := fun (t : TallyFlags) (l : Nat) =>
        (⟨t.inexact || (tallyAddend q (fp l)).2.inexact, t.range || (tallyAddend q (fp l)).2.range,
          t.nonfinite || (tallyAddend q (fp l)).2.nonfinite⟩ : TallyFlags)
      let counted := fun (t : State) =>
        t.countCl k.c 4 k.ctx (sectorCount ((lanes k.e).map fun l => (l, addr l)) 32)
      let aligned := ∀ l ∈ lanes k.e, addr l % 32 = 0
      let inside := ∀ l ∈ lanes k.e, addr l + 32 ≤ k.party.par.lsKib * 1024
      (f.spc = true → operandsFit k.party.par.vregs nr f → f.size = (if ty = 1 ∨ ty = 4 then 3 else 2) →
        (ty ≤ 4 → k.e ≠ 0 → aligned → inside → ∃ ls,
          let party : Party := { k.party with ls := ls, tally := (lanes k.e).foldl joined k.party.tally }
          exec (.tallyAdd i f) s = .next (((counted (s.setParty k.c k.rope.party { k.party with ls := ls })).setParty k.c
            k.rope.party party).retired k k.rope) ∧
          (∀ l ∈ lanes k.e, (party.lsRead (addr l) 32 : Int) = (k.party.lsRead (addr l) 32 +
            (((lanes k.e).filter fun m => addr m == addr l).map fun m => (tallyAddend q (fp m)).1).sum) % 2 ^ 256) ∧
          ∀ o, (∀ l ∈ lanes k.e, o < addr l ∨ addr l + 32 ≤ o) → Table.get 0 ls o = Table.get 0 k.party.ls o) ∧
        (ty ≤ 4 → k.e = 0 → exec (.tallyAdd i f) s = .next (s.retired k k.rope)) ∧
        (ty ≤ 1 → aligned → inside → ∃ r, exec (.tallyCvt i f) s = .next ((counted s).retired k r) ∧
          wroteV k.rope r nr f.data.toNat k.e fun l =>
            let x := (BitVec.ofNat 256 (k.party.lsRead (addr l) 32)).toInt
            (if ty = 0 then fp32 else fp64).round (.fin (decide (x < 0)) x.natAbs q)) ∧
        (¬aligned →
          (ty ≤ 4 → exec (.tallyAdd i f) s = .next ((s.fail k Code.tallyAlign).countCl k.c 2 k.ctx 1)) ∧
          (ty ≤ 1 → exec (.tallyCvt i f) s = .next ((s.fail k Code.tallyAlign).countCl k.c 2 k.ctx 1)))) ∧
      (k.e ≠ 0 → ty ≤ 1 → f.addr = 0 → f.uaddr = false → f.spc = false → f.scope = 0 → f.size = 0 → f.ch = 0 → f.off = 0 →
        f.data.toNat < 64 →
        ∃ r, wroteU k.rope r f.data.toNat (BitVec.ofNat 64
            (bval k.party.tally.inexact + 2 * bval k.party.tally.range + 4 * bval k.party.tally.nonfinite)) ∧
          exec (.tallyFlags i f) s = .next ((if ty = 1 then
            s.setParty k.c k.rope.party { k.party with tally := ⟨false, false, false⟩ } else s).retired k r)))

/-- For every rope that can issue and legal word with SPC = 1 whose lanes are aligned (locks) and inside the local
store (a context with STRICT takes SPINWAIT and GLOCK at rope scope only): SPINWAIT retires where the condition
holds on every lane of E, else leaves the rope waiting for the rest; a GLOCK pass, the first below depth 32 pushing
an entry, lets the lowest lane of each free lock write its owner value, keeps the other contenders pending, and goes
on with the winners, or waits where none won; GUNLOCK of locks that every lane of E holds writes 0 to them, and
raises LOCK_OWNER where some lane does not hold its lock. An empty E takes no lock: GLOCK goes to its join. -/
def Obligations.SpinAndLocksLocal : Prop :=
  ∀ (s : State) (i : Issue) (f : MFmt) (k : IssueCtx), s.issues i f.guard k → f.spc = true →
    k.c < 704 → k.slot < 64 →
    let owner := fun l => 1 + 2048 * k.c + 32 * k.slot + l
    let timely := f.scope = 0 ∨ k.cx.strict = false
    let within := fun (n : Nat) (addr : Nat → Nat) => ∀ l ∈ lanes k.e, addr l + n ≤ k.party.par.lsKib * 1024
    let counted := fun (t : State) (n : Nat) (addr : Nat → Nat) =>
      t.countCl k.c 4 k.ctx (sectorCount ((lanes k.e).map fun l => (l, addr l)) n)
    let word := fun (ls : Table Byte) (a : Nat) => ({ k.party with ls := ls } : Party).lsRead a 8
    let elsewhere := fun (ls : Table Byte) (e : Mask) (addr : Nat → Nat) =>
      ∀ o, (∀ l ∈ lanes e, o < addr l ∨ addr l + 8 ≤ o) → Table.get 0 ls o = Table.get 0 k.party.ls o
    (∀ n addr, n = 2 ^ f.size.toNat → addr = k.rope.addrOf f f.off.toInt 0 → (f.size = 2 ∨ f.size = 3) →
      f.sub.toNat < 4 → timely → operandsFit k.party.par.vregs (widthRegs f.size.toNat) f → within n addr →
      ∀ left : Mask, (∀ l, left.getLsbD l = (k.e.getLsbD l &&
        !(let x := k.party.lsRead (addr l) n
          let y := k.rope.operand false (widthRegs f.size.toNat) f.data.toNat l
          if f.sub = 0 then x == y else if f.sub = 1 then x != y else if f.sub = 2 then decide (y ≤ x)
          else decide (x < y)))) →
      (k.e = 0 → exec (.spinwait i f) s = .next (s.retired k k.rope)) ∧
      (k.e ≠ 0 →
        let r := { k.rope with livelock := if left = k.e then k.rope.livelock else 0 }
        exec (.spinwait i f) s = .next (if left = 0 then (counted s n addr).retired k r
          else (counted s n addr).placed k { r with wait := .spin f left }))) ∧
    (f.size = 3 → f.sub = 0 → f.data = 0 → f.ch.toNat ≤ 1 →
      (if f.uaddr then f.addr.toNat < 64 else inReach k.party.par.vregs 1 f.addr.toNat) →
      (∀ addr, addr = k.rope.addrOf f 0 0 → f.off ≠ 0 → timely →
        let join := k.rope.pc + 8 * f.off.zeroExtend 64
        let later := ∃ e rest, k.took = true ∧ k.rope.stack = e :: rest ∧ e.join = join ∧ e.pendingPc = k.rope.pc
        (k.e = 0 → ¬later → exec (.glock i f) s = .next (s.placed k { k.rope with pc := join })) ∧
        ((∀ l ∈ lanes k.e, addr l % 8 = 0) → within 8 addr → k.e ≠ 0 →
          ∀ won : Mask, (∀ l, won.getLsbD l = (k.e.getLsbD l && k.party.lsRead (addr l) 8 == 0 &&
            (lanes k.e).all fun m => !(decide (m < l) && addr m == addr l))) →
          ∃ ls, (∀ l ∈ lanes won, word ls (addr l) = owner l) ∧ elsewhere ls won addr ∧
            ∀ stack : List MaskEntry,
              (¬later → k.rope.stack.length < 32 ∧
                stack = ⟨join, k.rope.active, k.rope.pc, k.e &&& ~~~won⟩ :: k.rope.stack) →
              (later → ∀ e rest, k.rope.stack = e :: rest → stack = { e with pendingMask := k.e &&& ~~~won } :: rest) →
              let t := counted (s.setParty k.c k.rope.party { k.party with ls := ls }) 8 addr
              exec (.glock i f) s =
                .next (if won = 0 then t.placed k { k.rope with stack := stack, wait := .glock f k.e }
                  else t.retired k { k.rope with stack := stack, active := won, livelock := 0 }))) ∧
      (∀ addr, addr = k.rope.addrOf f f.off.toInt 0 →
        (k.e = 0 → exec (.gunlock i f) s = .next (s.retired k k.rope)) ∧
        ((∀ l ∈ lanes k.e, addr l % 8 = 0) → within 8 addr → k.e ≠ 0 →
          ((∀ l ∈ lanes k.e, k.party.lsRead (addr l) 8 = owner l) →
            ∃ ls, (∀ l ∈ lanes k.e, word ls (addr l) = 0) ∧ elsewhere ls k.e addr ∧
              exec (.gunlock i f) s =
                .next ((counted (s.setParty k.c k.rope.party { k.party with ls := ls }) 8 addr).retired k k.rope)) ∧
          ((∃ l ∈ lanes k.e, k.party.lsRead (addr l) 8 ≠ owner l) →
            exec (.gunlock i f) s = .next ((s.fail k Code.lockOwner).countCl k.c 2 k.ctx 1)))))

/-- For every rope that can issue, legal word with SPC = 0, and lanes in E whose lines translate and read without
fault, refusal or poison (the shared read answers their values): LD writes DATA with them, ATOM, RED, TALLY.ADD,
TALLY.CVT, SPINWAIT, GLOCK and GUNLOCK act on them as on local-store words, and ST, once its lines translate, writes
the bytes of its lanes through the L1; the final state is the one the shared write of those lines gives, with the
rope retired and the issue counted. -/
def Obligations.DeviceAccesses : Prop :=
  ∀ (s : State) (i : Issue) (f : MFmt) (k : IssueCtx), s.issues i f.guard k → f.spc = false → k.e ≠ 0 →
    let nr := widthRegs f.size.toNat
    let n := 2 ^ f.size.toNat
    let alloc := f.ch == 0
    let home := decide (2 ≤ f.scope.toNat)
    let timely := f.scope = 0 ∨ k.cx.strict = false
    let counted := fun (t : State) (accs : List (Nat × Nat)) (n : Nat) => t.countCl k.c 4 k.ctx (sectorCount accs n)
    let issued := fun (t : State) => if t.stalled k then t else t.countCl k.c 2 k.ctx 1
    (operandsFit k.party.par.vregs nr f → f.scope = 0 → f.size.toNat ≤ 5 → (f.sub.getLsbD 1 = true → f.uaddr = true) →
      let accs := k.rope.addrs f f.off.toInt (if f.sub.getLsbD 1 then n else 0) k.e
      (f.sub.toNat < 4 → ∀ s1 vals, s.ropeLoadVals k false f none accs n = (s1, some vals) →
        exec (.ld i f) s = .next (issued ((counted s1 accs n).finish k (({ k.rope with wait := .none }).vwrite
          f.data.toNat nr k.e (laneList (vals.map fun (v : Nat × Nat) => (v.1, extendLoad (f.sub.getLsbD 0) n v.2))))))) ∧
      (f.sub = 0 ∨ f.sub = 2 → ∀ s1 ls, s.ropeXlat k needWrite accs n = (s1, some ls) →
        exec (.st i f) s = .next (issued (((counted s1 accs n).finish k k.rope).ropeWriteLines k false alloc ls
          (gatherLines (accs.map fun a => (a.2, k.rope.operand false nr f.data.toNat a.1)) n))))) ∧
    (operandsFit k.party.par.vregs nr f → (f.size = 2 ∨ f.size = 3) →
      (f.sub = 9 → f.data.toNat = 255 ∨ f.data.toNat + 2 * nr ≤ k.party.par.vregs) →
      let accs := k.rope.addrs f f.off.toInt 0 k.e
      let first := k.rope.operand false nr f.data.toNat
      let second := fun l => if f.data.toNat = 255 then 0 else k.rope.operand false nr (f.data.toNat + nr) l
      (∀ a ∈ accs, a.2 % n = 0) → ∀ s1 ls vals, s.ropeRead k needAtomic home alloc none accs n = (s1, some (ls, vals)) →
        let run := atomLanes f.sub.toNat (8 * n) (valueAt accs vals) accs (if f.sub = 9 then second else first) first
        let wrote := (counted s1 accs n).ropeWriteLines k home alloc ls (gatherLines run.1 n)
        (f.sub.toNat ≤ 10 → timely → exec (.atom i f) s =
          .next (issued (wrote.finish k (k.rope.vwrite f.data.toNat nr k.e (laneList run.2))))) ∧
        ((f.sub.toNat ≤ 7 ∨ (f.sub = 10 ∧ timely)) → exec (.red i f) s = .next (issued (wrote.finish k k.rope)))) ∧
    (operandsFit k.party.par.vregs nr f → f.sub.toNat ≤ 4 → f.size.toNat = tallySize f.sub.toNat →
      let accs := k.rope.addrs f (tallyOffset f) 0 k.e
      (∀ a ∈ accs, a.2 % 32 = 0) →
      (∀ s1 ls vals, s.ropeRead k needAtomic true alloc none accs 32 = (s1, some (ls, vals)) →
        let add := fun l => tallyAddend (tallyQ f) (tallyValue f.sub.toNat (k.rope.operand false nr f.data.toNat l))
        let cells := accs.foldl (fun t a => Table.insert t a.2
          (tallySum ((Table.find t a.2).getD (valueAt accs vals a.2)) (add a.1).1)) []
        let flags := accs.foldl (fun t a => t.join (add a.1).2) k.party.tally
        let wrote := (counted s1 accs 32).ropeWriteLines k true alloc ls (gatherLines cells 32)
        ∀ p, Table.find (wrote.cluster k.c).parties k.rope.party = some p →
          exec (.tallyAdd i f) s =
            .next (issued ((wrote.setParty k.c k.rope.party { p with tally := flags }).finish k k.rope))) ∧
      (f.sub.toNat ≤ 1 → ∀ s1 vals, s.ropeLoadVals k true f none accs 32 = (s1, some vals) →
        exec (.tallyCvt i f) s = .next (issued ((counted s1 accs 32).finish k (({ k.rope with wait := .none }).vwrite
          f.data.toNat nr k.e (laneList (vals.map fun (v : Nat × Nat) => (v.1,
            tallyConvert (if f.sub = 0 then fp32 else fp64) (tallyQ f) v.2)))))))) ∧
    (operandsFit k.party.par.vregs nr f → (f.size = 2 ∨ f.size = 3) → f.sub.toNat < 4 → timely →
      exec (.spinwait i f) s = .next (issued (s.spin k f k.e none))) ∧
    (f.size = 3 → f.sub = 0 → f.data = 0 → f.ch.toNat ≤ 1 →
      (if f.uaddr then f.addr.toNat < 64 else inReach k.party.par.vregs 2 f.addr.toNat) →
      (f.off ≠ 0 → timely → (∀ a ∈ k.rope.addrs f 0 0 k.e, a.2 % 8 = 0) → k.took = false → k.rope.stack.length < 32 →
        exec (.glock i f) s = .next (issued (s.lockPass k f { k.rope with stack :=
          ⟨k.rope.pc + 8 * f.off.zeroExtend 64, k.rope.active, k.rope.pc, 0⟩ :: k.rope.stack } k.e))) ∧
      (let accs := k.rope.addrs f f.off.toInt 0 k.e
       (∀ a ∈ accs, a.2 % 8 = 0) → ∀ s1 ls vals,
          s.ropeRead k needAtomic home alloc none accs 8 = (s1, some (ls, vals)) →
          (∀ v ∈ vals, v.2 = 1 + 2048 * k.c + 32 * k.slot + v.1) →
          exec (.gunlock i f) s = .next (issued (((counted s1 accs 8).finish k k.rope).ropeWriteLines k home alloc ls
            (gatherLines (accs.map fun a => (a.2, 0)) 8)))))

/-- The shared read of a load below the host aperture, where it answers values, leaves every byte of device memory,
every poison bit, every copy in the coherence fabric, every party and rope, every other cluster, and every field but
registers, that cluster and what the stacks and their memory-side copies hold open as they were. -/
def Obligations.DeviceLoadFrame : Prop :=
  ∀ (s s1 : State) (k : IssueCtx) (cvt : Bool) (f : MFmt) (accs : List (Nat × Nat)) (n : Nat) (vals : List (Nat × Nat)),
    (∀ a ∈ accs, a.2 + n < 2 ^ 55) → 0 < n → n ≤ 32 →
    s.ropeLoadVals k cvt f none accs n = (s1, some vals) →
    s1.mem = s.mem ∧ s1.coh = s.coh ∧ (∀ c, c ≠ k.c → s1.cluster c = s.cluster c) ∧
      (s1.cluster k.c).parties = (s.cluster k.c).parties ∧ (s1.cluster k.c).ropes = (s.cluster k.c).ropes ∧
      ∃ regs clusters hbm, s1 = { s with regs := regs, clusters := clusters, hbm := hbm }

/-- In a state whose memory is canonical, where no transaction holds the line and no dirty data of it is in flight,
a masked write at the home leaves the coherent value of the line with the masked bytes replaced and the poison of
the sectors it covers whole cleared, the coherent value and poison of every other line unchanged, no caching agent
with a copy of the line, and no directory entry for it. -/
def Obligations.CoherentWrite : Prop :=
  ∀ (s : State) (line : Nat) (d : Line) (mask : BitVec 128), s.mem.wf = true → Table.find s.coh.trans line = none →
    (∀ dst b p g, CMsg.data dst line b p true g ∉ s.coh.msgs) →
    (∀ e ∈ s.coh.agents, ∀ r b p, Table.find e.2.reqs line = some r → r.gotData ≠ some (b, p, true)) →
    let t := s.cohWrite line d mask
    t.cohLine line = (mergeLine (s.cohLine line).1 d mask, (s.cohLine line).2 &&& ~~~ wholeSectors mask) ∧
      (∀ other, other ≠ line → t.cohLine other = s.cohLine other) ∧
      (∀ e ∈ t.coh.agents, Table.find e.2.lines line = none) ∧ Table.find t.coh.dir line = none

/-- For every rope that can issue with a non-empty E and legal word: a FENCE at rope or party scope only retires; at
device or system scope it counts the wide fence, retires, and writes the dirty bytes of every line of the cluster's
L1 at their home, leaving the line clean; an acquire or acquire-release then empties the L1. Where no home refuses a
line, no line of the L1 is left dirty and every other cluster, every bell and every frame owner is as it was. -/
def Obligations.Fences : Prop :=
  ∀ (s : State) (i : Issue) (f : MFmt) (k : IssueCtx), s.issues i f.guard k → k.e ≠ 0 → f.sub.toNat ≤ 2 →
    f.data = 0 → f.addr = 0 → f.uaddr = false → f.spc = false → f.size = 0 → f.ch = 0 → f.off = 0 →
    (f.scope.toNat < 2 → exec (.fence i f) s = .next (s.retired k k.rope)) ∧
    (2 ≤ f.scope.toNat →
      let wide := (s.countCl k.c 14 k.ctx 1).finish k k.rope
      let dirty := (wide.cluster k.c).l1.filter fun l => l.dirty != 0
      let cleaned := (dirty.foldl (fun t l => t.l1Clean k.c l) wide).countCl k.c 6 k.ctx dirty.length
      let empty := cleaned.setCluster k.c { cleaned.cluster k.c with l1 := [] }
      (f.sub = 1 → exec (.fence i f) s = .next (cleaned.countCl k.c 2 k.ctx 1)) ∧
      (f.sub ≠ 1 → exec (.fence i f) s = .next (empty.countCl k.c 2 k.ctx 1)) ∧
      ((∀ l ∈ (s.cluster k.c).l1, s.ownerOk l.ctx l.pa = true) →
        (∀ l ∈ (cleaned.cluster k.c).l1, l.dirty = 0) ∧ (∀ c, c ≠ k.c → cleaned.cluster c = s.cluster c) ∧
          (∀ f b, cleaned.reg (.bellVal b) = s.reg (.bellVal b) ∧ cleaned.frameOwner f = s.frameOwner f))) ∧
    (∀ (c : Nat) (l : L1Line), l.dirty ≠ 0 → s.ownerOk l.ctx l.pa = true → l.pa < memLines →
      s.l1Clean c l = (s.setCluster c ((s.cluster c).l1Put { l with dirty := 0 })).cohWrite l.pa l.data l.dirty)

/-- For every rope that can issue with a non-empty E, legal word, bell index below 16,384, and a bell whose owner
admits the context: BELL.SIG makes the release of its scope and adds its increment modulo 2^64; BELL.WAIT goes on
with the acquire of its scope where the value is at least the threshold, unsigned, else leaves the rope waiting;
BELL.READ and BELL.XCHG (without STRICT) change u[DST] to the old value, and XCHG writes the new one; a written bell
then ends the waits that its value satisfies, and changes nothing more where nobody waits on it. An index at or
above 16,384 raises BELL_RANGE; a bell whose CTX is neither the context nor 63 refuses the operation. -/
def Obligations.BellInstructions : Prop :=
  ∀ (s : State) (i : Issue) (f : VFmt) (k : IssueCtx), s.issues i f.guard k → k.e ≠ 0 → f.sa.toNat < 64 →
    f.sc = 0 → f.ua = false → f.ub = false → f.uc = false → f.ty = 0 → f.mod.toNat < 4 →
    let b := (k.rope.ureg f.sa.toNat).toNat
    let x := k.rope.ureg f.sb.toNat
    let scope := f.mod.toNat
    let pulsed := fun (t : State) => t.countPkg 12 0 k.ctx 1
    let counted := fun (t : State) => t.countCl k.c 2 k.ctx 1
    let wide := s.countWide k scope
    let freed := wide.releaseAt k.c k.ctx scope
    (b < 16384 →
      (f.dst = 0 → f.sb.toNat < 64 →
        (freed.bellOk k.ctx b = true → exec (.bellSig i f) s =
          .next (counted ((pulsed ((freed.finish k k.rope).setReg (.bellVal b) (freed.bell b + x))).bellWake b))) ∧
        (freed.bellOk k.ctx b = false →
          exec (.bellSig i f) s = .next (counted (freed.bellRefuse k.c k.slot k.ctx k.rope.pc b))) ∧
        (s.bellOk k.ctx b = true → x.toNat ≤ (s.bell b).toNat →
          exec (.bellWait i f) s = .next (counted (((pulsed wide).finish k k.rope).acquireAt k.c k.ctx scope))) ∧
        (s.bellOk k.ctx b = true → (s.bell b).toNat < x.toNat →
          exec (.bellWait i f) s =
            .next (counted ((pulsed wide).putRope k { k.rope with wait := .bell b x scope }))) ∧
        (s.bellOk k.ctx b = false →
          exec (.bellWait i f) s = .next (counted (wide.bellRefuse k.c k.slot k.ctx k.rope.pc b)))) ∧
      (f.mod = 0 → f.dst.toNat < 64 → k.cx.strict = false →
        (s.bellOk k.ctx b = true → ∃ r, wroteU k.rope r f.dst.toNat (s.bell b) ∧
          (f.sb = 0 → exec (.bellRead i f) s = .next (counted ((pulsed s).finish k r))) ∧
          (f.sb.toNat < 64 → exec (.bellXchg i f) s =
            .next (counted ((((pulsed s).finish k r).setReg (.bellVal b) x).bellWake b)))) ∧
        (s.bellOk k.ctx b = false →
          (f.sb = 0 → exec (.bellRead i f) s = .next (counted (s.bellRefuse k.c k.slot k.ctx k.rope.pc b))) ∧
          (f.sb.toNat < 64 →
            exec (.bellXchg i f) s = .next (counted (s.bellRefuse k.c k.slot k.ctx k.rope.pc b)))))) ∧
    (16384 ≤ b →
      (f.dst = 0 → f.sb.toNat < 64 →
        exec (.bellSig i f) s = .next (counted (s.fail k Code.bellRange)) ∧
        exec (.bellWait i f) s = .next (counted (s.fail k Code.bellRange))) ∧
      (f.mod = 0 → f.dst.toNat < 64 → k.cx.strict = false →
        (f.sb = 0 → exec (.bellRead i f) s = .next (counted (s.fail k Code.bellRange))) ∧
        (f.sb.toNat < 64 → exec (.bellXchg i f) s = .next (counted (s.fail k Code.bellRange))))) ∧
    (∀ (t : State) (n : Nat), t.unawaited n → t.bellWake n = t) ∧
    (∀ (t : State) (ctx n : Nat), t.bellOk ctx n = true ↔
      t.rf (.bellOwner n) .ctx = ctx ∨ t.rf (.bellOwner n) .ctx = 63)

/-- For every rope that can issue with a non-empty E and legal word: TWAIT goes on, and changes nothing else, where
the outstanding count (ISSUED minus DONE modulo 2^16) of its token, or of each of the party's 16 under ALL, is at
most N, and otherwise leaves the rope waiting; CAIRN, where its source need not wait for room, retires in the state
that its trace record (kind CAIRN, marker IMM, payload u[SA]) leaves. -/
def Obligations.TokensAndCairns : Prop :=
  ∀ (s : State) (i : Issue) (k : IssueCtx),
    (∀ f : VFmt, s.issues i f.guard k → k.e ≠ 0 → f.dst = 0 → f.sb = 0 → f.sc = 0 → f.ua = false → f.ub = false →
      f.uc = false → f.ty = 0 → f.mod.toNat ≤ 16 →
      let count := fun (t : Nat) =>
        let x := Table.get (⟨0, 0, .none⟩ : Token) k.party.tokens t
        (x.issued.toNat + 2 ^ 16 - x.done.toNat) % 2 ^ 16
      let holds := if f.mod.toNat = 16 then ∀ t, t < 16 → count t ≤ f.sa.toNat else count f.mod.toNat ≤ f.sa.toNat
      (holds → exec (.twait i f) s = .next (s.retired k k.rope)) ∧
      (¬holds → exec (.twait i f) s = .next (s.placed k { k.rope with wait := .token f.mod.toNat f.sa.toNat }))) ∧
    (∀ f : IFmt, s.issues i f.guard k → k.e ≠ 0 → f.dst = 0 → f.sa.toNat < 64 → f.res = false →
      ∀ t, s.trace (ropeSrc k.c k.slot) 0 k.ctx 0 f.imm.toNat (k.rope.ureg f.sa.toNat).toNat = some t →
        exec (.cairn i f) s = .next (t.retired k k.rope))

/-! ### Tensor engine -/

/-- For every rope that can issue with a non-empty E and legal word: TACC.OPEN with a pair of Table 4.1, K range
legal under Table 4.7, handle free and slots at hand opens the handle on an accumulation that holds no value, with
the tag of its K range; TACC.REL closes an open handle; TCOMB of two loaded or accumulated handles whose tags
combine queues the sum under its token, gives the first the combined tag, and closes the second. Opening one handle
leaves every other open handle on the accumulation it had, and a closed handle names none. -/
def Obligations.TensorHandles : Prop :=
  (∀ (s : State) (i : Issue) (f : VFmt) (k : IssueCtx), s.issues i f.guard k → k.e ≠ 0 → f.dst.toNat < 16 →
    f.ua = false → f.ub = false → f.uc = false → f.ty = 0 → f.dst.toNat < k.party.par.handles →
    let h := f.dst.toNat
    let party := k.rope.party
    let named := fun (g : Nat) => (s.cluster k.c).handle party g
    let issued := fun (t : State) => t.countCl k.c 2 k.ctx 1
    (f.sa.toNat < 64 → f.sb.toNat < 64 → f.sc.toNat < 64 → f.mod.toNat < 256 → named h = none →
      ∀ af w t, tensorPair (f.mod.toNat % 16) (f.mod.toNat / 16) = some (af, w, t) →
      let kt := (k.rope.ureg f.sa.toNat).toNat
      let ks := (k.rope.ureg f.sb.toNat).toNat
      let ke := (k.rope.ureg f.sc.toNat).toNat
      let tag : Tag := ⟨decide (kt = 0), af.code, kt, ke, ks⟩
      let need := slotsFor (chunks ke - ks / 1024)
      kt ≤ 2 ^ 34 → tag.legal = true → (s.cluster k.c).slotsHeld party + need ≤ k.party.par.slots →
      (s.cluster k.c).slotsKept party + need ≤ k.party.par.slots →
        ∃ a : Acc, a.party = party ∧ a.ctx = k.ctx ∧ a.fmtA = f.mod.toNat % 16 ∧ a.fmtB = f.mod.toNat / 16 ∧
          a.accFmt = af ∧ a.tag = tag ∧ a.queuedTo = ks ∧ a.doneTo = ks ∧ a.slots = need ∧ a.closed = false ∧
          a.loaded = false ∧ a.origin = none ∧ a.value = List.replicate af.elems 0 ∧
          exec (.taccOpen i f) s =
            .next (issued ((s.modTe k.c fun t => t.openHandle party h a).finish k k.rope))) ∧
    (f.sa = 0 → f.sb = 0 → f.sc = 0 → f.mod = 0 → ∀ n a, named h = some (n, a) →
      exec (.taccRel i f) s = .next (issued ((s.modTe k.c fun t => t.close party h n).finish k k.rope))) ∧
    (f.sa.toNat < 16 → f.sb = 0 → f.sc = 0 → f.mod.toNat < 16 → f.sa.toNat < k.party.par.handles → h ≠ f.sa.toNat →
      k.party.tokenMix f.mod.toNat .tensor = false → (k.party.token f.mod.toNat).outstanding ≠ 255 →
      ∀ nh x ng y tag, named h = some (nh, x) → named f.sa.toNat = some (ng, y) → x.loading = false → y.loading = false →
      let low := decide (x.tag.kStart ≤ y.tag.kStart)
      (if low then x.tag.combine y.tag else y.tag.combine x.tag) = some tag →
        let o : TensorOp := ⟨.comb nh (if low then nh else ng) (if low then ng else nh), h, party, k.slot, k.ctx,
          k.rope.pc, f.mod.toNat, 0, [], 0⟩
        ∃ x1 : Acc, x1.tag = tag ∧ x1.queuedTo = tag.kEnd ∧ x1.stack = x.stack ∧
          (x1.origin = if x.origin.isSome then x.origin else y.origin) ∧
          exec (.tcomb i f) s = .next (issued (((s.modTe k.c fun t => t.setAcc nh x1).queueTensor k o).modTe k.c
            fun t => t.close party f.sa.toNat ng)))) ∧
  (∀ (s : State) (c party h : Nat) (a : Acc), (s.cluster c).te.accs.length < 64 →
    let t := s.modTe c fun t => t.openHandle party h a
    ∃ n, Table.find (s.cluster c).te.accs n = none ∧ (t.cluster c).handle party h = some (n, a) ∧
      ∀ q g b, 16 * q + g ≠ 16 * party + h → (s.cluster c).handle q g = some b → (t.cluster c).handle q g = some b) ∧
  (∀ (s : State) (c party h n : Nat),
    let t := s.modTe c fun t => t.close party h n
    (t.cluster c).handle party h = none ∧
      ∀ q g m b, 16 * q + g ≠ 16 * party + h → m ≠ n → b.closed = false →
        (s.cluster c).handle q g = some (m, b) → (t.cluster c).handle q g = some (m, b))

/-- For every rope that can issue with a non-empty E, legal word, handle below HANDLES, and a token without
outstanding Haul operations and below 255 outstanding: TMMA on an open handle whose formats match the panels, with
well-formed panels and a piece within the K range at the tile's origin, queues the piece and moves the
accumulation's position; TSTORE, where its descriptors read and pass every check of 08 Table 8.7 and its handle is
open, queues the store and closes the handle; TACC.LDP, where its descriptor passes, its handle is free and a slot
is at hand, opens the handle on a loading accumulation and queues the load. Queueing appends the operation, adds one
to ISSUED of the token, and changes no other token and no byte of memory. -/
def Obligations.TensorOperations : Prop :=
  (∀ (s : State) (i : Issue) (f : VFmt) (k : IssueCtx), s.issues i f.guard k → k.e ≠ 0 → f.dst.toNat < 16 →
    f.ua = false → f.ub = false → f.uc = false → f.ty = 0 → f.dst.toNat < k.party.par.handles →
    f.sa.toNat < 64 → f.sb.toNat < 64 →
    let h := f.dst.toNat
    let party := k.rope.party
    let named := (s.cluster k.c).handle party h
    let issued := fun (t : State) => t.countCl k.c 2 k.ctx 1
    let op := fun (o : TensorOpKind) (tok : Nat) => TensorOp.mk o h party k.slot k.ctx k.rope.pc tok 0 [] 0
    let free := fun (tok : Nat) => k.party.tokenMix tok .tensor = false ∧ (k.party.token tok).outstanding ≠ 255
    let opening := s.session k.c k.ctx party ⟨[], []⟩ k.rope.issueLog 0
    let u := s.place k.ctx k.c k.cx
    let va := (k.rope.ureg f.sa.toNat).toNat
    let vb := (k.rope.ureg f.sb.toNat).toNat
    (f.sa.toNat % 2 = 0 → f.sb.toNat % 2 = 0 → f.sc.toNat < 64 → f.sc.toNat % 2 = 0 → f.mod.toNat < 16 →
      free f.mod.toNat → panelOk (k.rope.upair f.sa.toNat) false = true → panelOk (k.rope.upair f.sb.toNat) true = true →
      let a := Panel.ofNat (k.rope.upair f.sa.toNat)
      let b := Panel.ofNat (k.rope.upair f.sb.toNat)
      let kc := (k.rope.ureg f.sc.toNat).toNat
      let og := (k.rope.ureg (f.sc.toNat + 1)).toNat
      (tensorPair a.fmt b.fmt).isSome = true → ∀ n x, named = some (n, x) →
      x.loaded = false → x.fmtA = a.fmt → x.fmtB = b.fmt → (∀ o, x.origin = some o → o = (og % 2 ^ 32, og / 2 ^ 32)) →
      x.queuedTo ≠ x.tag.kEnd → x.queuedTo + kc ≤ x.tag.kEnd → (kc % 1024 = 0 ∨ x.queuedTo + kc = x.tag.kEnd) →
        let seq := Table.get 0 (s.cluster k.c).te.ops k.ctx
        ∃ x1 : Acc, x1.queuedTo = x.queuedTo + kc ∧ x1.origin = some (og % 2 ^ 32, og / 2 ^ 32) ∧
          x1.stack = x.stack ∧ x1.doneTo = x.doneTo ∧
          (x1.tag.valid = true ↔ x.tag.valid = true ∨ x.queuedTo + kc = x.tag.kEnd) ∧
          exec (.tmma i f) s = .next (issued ((s.modTe k.c fun t =>
            { t.setAcc n x1 with ops := Table.set 0 t.ops k.ctx (seq + 1) }).queueTensor k
              (op (.mma n a b kc seq) f.mod.toNat)))) ∧
    (let mode := f.mod.toNat % 4
     let addc := f.mod.getLsbD 2
     let sr := f.mod.getLsbD 3
     let trans := f.mod.getLsbD 4
     let tok := f.mod.toNat / 64
     let second := mode == 1 || addc
     let step := (k.rope.ureg f.sc.toNat).toNat
     f.mod.getLsbD 5 = false → f.sc.toNat < 64 → (addc = true → mode = 0) → (sr = true → mode = 2) → free tok →
     va % 128 = 0 → (second = true → vb % 128 = 0) → (mode = 3 → step % 16 = 0) →
     ∀ n x, named = some (n, x) → x.loading = false →
     let r1 := opening.readDesc va
     let r2 := if second then r1.1.readDesc vb else (r1.1, none)
     let fine := fun (d : Desc) => d.formOk k.cx.axes = true ∧ d.rank ≤ 2 ∧ d.mxShapeOk = true
     ∀ d, r1.2 = some (d, false) → fine d → (second = true → ∃ e, r2.2 = some (e, false) ∧ fine e) →
     r2.1.stop = none → storeDescFault u k.party.lsBytes mode r1.2 r2.2 = none →
     storeModeFault k.cx x mode sr trans r1.2 r2.2 = none →
     let l := if mode = 3 then (r2.1, true) else r2.1.ledgersOk k.cx (r1.2 :: if mode = 1 then [r2.2] else [])
     l.1.stop = none → l.1.takeOff.stop = none → l.2 = true → (mode = 3 → d.type = x.accFmt.descType) →
       exec (.tstore i f) s = .next (issued ((l.1.st.queueTensor k
         (op (.store n mode addc sr trans d (r2.2.map Prod.fst) step) tok)).modTe k.c fun t => t.close party h n))) ∧
    (f.sc = 0 → f.mod.toNat < 16 → free f.mod.toNat → va % 128 = 0 → vb % 16 = 0 → named = none →
     let r := opening.readDesc va
     ∀ d, r.2 = some (d, false) → r.1.stop = none → d.formOk k.cx.axes = true → d.rank ≤ 2 → d.mxShapeOk = true →
     spanForm (d.footprint u) = false → spanOutside k.party.lsBytes (d.footprint u) = false →
     (s.cluster k.c).slotsHeld party + 1 ≤ k.party.par.slots → (s.cluster k.c).slotsKept party + 1 ≤ k.party.par.slots →
     (r.1.st.cluster k.c).te.accs.length < 64 →
       ∃ (a : Acc) (n : Nat), a.loading = true ∧ a.loaded = true ∧ a.party = party ∧ a.ctx = k.ctx ∧ a.slots = 1 ∧
         a.stack = [] ∧ ((r.1.st.modTe k.c fun t => t.openHandle party h a).cluster k.c).handle party h = some (n, a) ∧
         exec (.taccLdp i f) s = .next (issued ((r.1.st.modTe k.c fun t => t.openHandle party h a).queueTensor k
           (op (.ldp n d vb) f.mod.toNat))))) ∧
  (∀ (s : State) (k : IssueCtx) (o : TensorOp), Table.find (s.cluster k.c).parties k.rope.party = some k.party →
    (Table.find (s.cluster k.c).ropes k.slot).isSome = true →
    let t := s.queueTensor k o
    (t.cluster k.c).te.queue = (s.cluster k.c).te.queue ++ [{ o with id := (s.cluster k.c).te.nextId }] ∧ t.mem = s.mem ∧
      Table.find (t.cluster k.c).ropes k.slot = some { k.rope with pc := k.rope.pc + 8, issueLog := [] } ∧
      ∃ p, Table.find (t.cluster k.c).parties k.rope.party = some p ∧
        p.token o.token = ⟨(k.party.token o.token).issued + 1, (k.party.token o.token).done, .tensor⟩ ∧
        ∀ n, n ≠ o.token → p.token n = k.party.token n)

/-! ### Haul engine -/

/-- For every rope that can issue with a non-empty E and legal word, whose token has no outstanding tensor operation
and is below 255 outstanding, whose descriptor addresses are multiples of 128 and whose Haul queue holds fewer than
32: HAUL.COPY, GATHER, SCATTER, RED, PUT and GET append to the queue their operation with the addresses and
parameters that 06 Table 6.16 gives, not started; add one to ISSUED of the token; leave every other token; and move
on. -/
def Obligations.HaulInstructions : Prop :=
  ∀ (s : State) (i : Issue) (f : VFmt) (k : IssueCtx), s.issues i f.guard k → k.e ≠ 0 → f.dst = 0 →
    f.ua = false → f.ub = false → f.uc = false → f.ty = 0 → f.sa.toNat < 64 → f.sb.toNat < 64 →
    let reg := fun (n : BitVec 8) => (k.rope.ureg n.toNat).toNat
    let tok := f.mod.toNat % 16
    let second := (k.rope.ureg (f.sc.toNat + 1)).toNat
    k.party.tokenMix tok .haul = false → (k.party.token tok).outstanding ≠ 255 →
    (s.cluster k.c).haul.queue.length < 32 → reg f.sa % 128 = 0 → reg f.sb % 128 = 0 →
    ∃ p : Party, p = { k.party with tokens := p.tokens } ∧
      p.token tok = ⟨(k.party.token tok).issued + 1, (k.party.token tok).done, .haul⟩ ∧
      (∀ n, n ≠ tok → p.token n = k.party.token n) ∧
      let queued := fun (kind : HaulKind) (src idx dst : Nat) =>
        (Host.Outcome.next ((((s.setParty k.c k.rope.party p).modHaul k.c fun h =>
          { h with queue := h.queue ++ [⟨kind, src, idx, dst, k.rope.party, k.slot, k.ctx, k.rope.pc, tok, false, 0, h.nextId,
            false, [], 0⟩]
                   nextId := h.nextId + 1 }).finish k k.rope).countCl k.c 2 k.ctx 1) : Host.Outcome State Fault Refusal)
      (f.sc = 0 → f.mod.toNat < 16 → exec (.haulCopy i f) s = queued .copy (reg f.sa) 0 (reg f.sb)) ∧
      (f.sc.toNat < 64 → f.mod.toNat < 16 → reg f.sc % 128 = 0 →
        exec (.haulGather i f) s = queued .gather (reg f.sa) (reg f.sb) (reg f.sc)) ∧
      (f.sc.toNat < 64 → f.mod.toNat < 32 → reg f.sc % 128 = 0 →
        exec (.haulScatter i f) s = queued (.scatter (f.mod.getLsbD 4)) (reg f.sa) (reg f.sb) (reg f.sc)) ∧
      (f.sc = 0 → f.mod.toNat < 48 →
        exec (.haulRed i f) s = queued (.red (f.mod.toNat / 16)) (reg f.sa) 0 (reg f.sb)) ∧
      (f.sc.toNat < 64 → f.sc.toNat % 2 = 0 → f.mod.toNat < 16 →
        exec (.haulPut i f) s = queued (.put (reg f.sc % 65536) (second % 2 ^ 14) (second.testBit 15) (second / 2 ^ 32))
          (reg f.sa) 0 (reg f.sb)) ∧
      (f.sc.toNat < 64 → f.mod.toNat < 16 →
        exec (.haulGet i f) s = queued (.get (reg f.sc % 65536)) (reg f.sa) 0 (reg f.sb))

/-- On a cluster that runs, where the completion record has room: TENSOR_MILESTONE runs the oldest queued operation
to its end (a TMMA whose groups read in bounds and whose permit is held or not needed accumulates its piece, counts
the array time, completes a tile at K_END; a TCOMB adds; a store commits its writes; a load takes the tile in) and
signals its token; HAUL_OP_START starts the oldest operation not started, a move or reduction without a stop
performing its gathered writes; HAUL_MILESTONE takes the oldest operation that has reached its milestone off the
queue and signals its token. PERMIT_GRANT gives the permit to the oldest request of the die, the lowest cluster
among equals, unless 16 were granted within the last 64 ac, and counts it; PERMIT_LOSS takes a permit away after 16
idle ac; SHADOW_CHECK empties the shadow unit and, where the tile does not agree, counts it SOFT or HARD and puts
its record in the ring; a hard tile is a hardware fault of the cluster. -/
def Obligations.EngineWorkAndPermits : Prop :=
  (
    ∀ (s : State) (c : Nat) (host : HostAnswer) (silent : Option (Nat × Word)), s.ready = true → s.clusterHalted c = false →
      let te := (s.cluster c).te
      let hq := (s.cluster c).haul
      (∀ o p cx, te.first = some o → Table.find (s.cluster c).parties o.party = some p →
        Table.find s.ctxs o.ctx = some cx → te.stall = none → s.mayTrace (tensorSrc c) o.ctx kTensorDone = true →
        let x := s.session c o.ctx o.party host o.log o.written
        let u := s.place o.ctx c cx
        (∀ n a b kc seq acc, o.kind = .mma n a b kc seq → Table.find te.accs n = some acc →
          (arrayTime acc kc ≤ 256 ∨ te.permit = true) → pieceFault p.ls p.lsBytes a b acc.accFmt.cols kc = none →
          let ends := acc.doneTo + kc = acc.tag.kEnd ∧ 0 < kc
          let w := s.arrayWaits c acc kc (decide ends)
          let acc1 := { acc.piece p.ls a b kc with freeAt := w.2 }
          let s1 := (w.1.modTe c fun t => { t.setAcc n acc1 with idleAc := 0 }).countCl c 7 o.ctx (arrayTime acc kc)
          (¬ends → exec (.tensorMilestone c host .none silent) s = .next (s1.tensorDone c o)) ∧
          (ends → s.sampled c o.ctx = false ∨ te.shadow = none →
            exec (.tensorMilestone c host .none none) s = .next ((s1.tileDone c o acc1 seq).tensorDone c o))) ∧
        (∀ into lo hi a v w, o.kind = .comb into lo hi → Table.find te.accs into = some a → Table.find te.accs lo = some v →
          Table.find te.accs hi = some w →
          exec (.tensorMilestone c host .none silent) s = .next ((s.modTe c fun t => t.setAcc into { a with
            stack := [(0, List.zipWith (accAdd a.accFmt) v.value w.value)], doneTo := a.tag.kEnd
            slots := 1 }).tensorDone c o)) ∧
        (∀ n mode addc sr trans d rc step acc, o.kind = .store n mode addc sr trans d rc step →
          Table.find te.accs n = some acc →
          let y := x.storeTile acc cx u mode addc sr trans d rc step
          y.stop = none → y.commit.stop = none →
          exec (.tensorMilestone c host .none silent) s = .next (y.commit.st.tensorDone c o)) ∧
        (∀ n d tagVa acc, o.kind = .ldp n d tagVa → Table.find te.accs n = some acc →
          let y := x.loadTile acc u d tagVa
          y.1.stop = none →
          exec (.tensorMilestone c host .none silent) s = .next ((y.1.st.modTe c fun t => t.setAcc n y.2).tensorDone c o))) ∧
      (∀ o p cx, (hq.queue.find? fun o => !o.started) = some o → Table.find (s.cluster c).parties o.party = some p →
        Table.find s.ctxs o.ctx = some cx → hq.stall = none → (hq.queue.filter fun o => o.started).length < 4 →
        (∀ q ∈ hq.queue, q.started = true → s.getOpen c q = false) →
        exec (.haulOpStart c host) s = .next (s.haulRun c o p cx host) ∧
        (let b := (s.session c o.ctx o.party host o.log o.written).haulPlan c o p cx
         b.1.stop = none → (o.kind = .copy ∨ o.kind = .red 0 ∨ o.kind = .red 1 ∨ o.kind = .red 2) → b.2.idx = none →
         let pairs := haulPairs o.kind b.2.src b.2.dst b.2.ax []
         let began := fun (n : Nat) (t : State) => t.modHaul c fun h =>
           { h with queue := h.queue.map fun q => if q.id = o.id then { q with started := true, drops := n } else q }
         let counted := fun (z : Sess) => (z.st.countCl c 9 o.ctx z.reads).countCl c 10 o.ctx z.writes
         (o.kind = .copy →
           let w := b.1.moves false b.2.src b.2.dst b.2.us b.2.ud pairs
           let z := ((w.1.writeAll w.2.1).drops b.2.dst w.2.2).commit
           z.stop = none → exec (.haulOpStart c host) s = .next (began w.2.2 (counted z))) ∧
         (∀ op, o.kind = .red op →
           let g := b.1.contributions b.2.src b.2.dst b.2.us b.2.ud pairs
           let z := ((g.1.reduce op b.2.src b.2.dst g.2.1).drops b.2.dst g.2.2).commit
           z.stop = none → ∀ q, Table.find ((counted z).cluster c).parties o.party = some q →
             exec (.haulOpStart c host) s = .next (began g.2.2 ((counted z).setParty c o.party
               { q with tally := q.tally.join (redFlags b.2.src b.2.dst g.2.1) }))))) ∧
      (∀ o, hq.first (s.haulDone c) = some o → s.mayTrace (haulSrc c) o.ctx kHaulDone = true →
        exec (.haulMilestone c) s = .next (((s.modHaul c fun h => { h with queue := h.queue.filter fun q => q.id != o.id }).traceNow
          (haulSrc c) 0 o.ctx kHaulDone (o.kind.opcode * 256 + o.token) o.drops).signalToken c o.party o.token))) ∧
  (
    ∀ (s : State), s.ready = true →
      (∀ die c asked, c / 176 = die → (s.cluster c).te.asked = some asked → (Table.find s.clusters c).isSome = true →
        (∀ e ∈ s.clusters, e.1 / 176 = die → ∀ t, e.2.te.asked = some t → asked < t ∨ (asked = t ∧ c ≤ e.1)) →
        s.clusters.Pairwise (fun a b => a.1 < b.1) →
        let recent := (Table.get [] s.grants die).filter fun t => decide (s.acCount < t + 64)
        recent.length < 16 →
          let s1 := s.modTe c fun t => { t with permit := true, asked := none, idleAc := 0 }
          let s2 : State := { s1 with grants := Table.set [] s1.grants die (recent ++ [s.acCount]) }
          let wait := s.acCount - asked
          let s3 := if wait = 0 then s2 else s2.satRf (.pwrPoolStat die) .waits 1
          exec (.permitGrant die) s = .next ((s3.wrapRf (.pwrPoolStat die) .grants 1).setRf (.pwrPoolStat die) .maxWait
            (max (s3.rf (.pwrPoolStat die) .maxWait) (min wait 704)))) ∧
      (∀ c, (s.cluster c).te.permit = true → 16 ≤ (s.cluster c).te.idleAc →
        exec (.permitLoss c) s = .next (s.modTe c fun t => { t with permit := false, idleAc := 0 })) ∧
      (∀ c j cx, s.clusterHalted c = false → (s.cluster c).te.shadow = some j → Table.find s.ctxs j.ctx = some cx →
        let s1 := s.modTe c fun t => { t with shadow := none }
        let r := checkTile j (if j.accFmt = .fp64 then cx.tolExp64 else cx.tolExp32) cx.hardExp
        let s2 := s1.satRf (.fltShadowCnt j.ctx) (if r.1 = 1 then .soft else .hard) 1
        let s3 := (s2.ringPut .fltShadowRing .fltShadowPtr (leBytes 64 (s2.shadowBits c j r))).1
        (r.1 = 0 → exec (.shadowCheck c) s = .next s1) ∧
        (r.1 = 1 → exec (.shadowCheck c) s = .next s3) ∧
        (2 ≤ r.1 → exec (.shadowCheck c) s = .next (s3.clusterFail c Code.shadowHard [j.ctx]))))

/-- Signalling a token of a resident party, where no rope of the party has a satisfied TWAIT after it: DONE of that
token is one more modulo 2^16, its ISSUED and engine and every other token are as they were, every other party and
every rope of the cluster is as it was, and every other cluster and every other field of the state is as it was. -/
def Obligations.TokenSignal : Prop :=
  ∀ (s : State) (c party n : Nat) (p : Party), Table.find (s.cluster c).parties party = some p →
    (∀ e ∈ (s.cluster c).ropes, e.2.party = party → ∀ m a, e.2.wait ≠ .token m a) →
    let t := s.signalToken c party n
    (∃ q, Table.find (t.cluster c).parties party = some q ∧ q = { p with tokens := q.tokens } ∧
      q.token n = ⟨(p.token n).issued, (p.token n).done + 1, (p.token n).engine⟩ ∧
      ∀ j, j ≠ n → q.token j = p.token j) ∧
    (∀ j, j ≠ party → Table.find (t.cluster c).parties j = Table.find (s.cluster c).parties j) ∧
    (∃ ps, t.cluster c = { s.cluster c with parties := ps }) ∧
    (∀ d, d ≠ c → t.cluster d = s.cluster d) ∧ t = { s with clusters := t.clusters }

/-! ### Ropes and parties -/

/-- Where the package runs and the cluster is not halted: a rope whose livelock count has reached 2^20 raises
ROPE_LIVELOCK; a rope in SPINWAIT reads its unsatisfied lanes again, one in GLOCK repeats its pass; PARTY_LAUNCH
takes the first waiting party, where the split agrees or the cluster is empty and every resource fits, gives it the
lowest free party slot and rope slots, its ropes as R186 gives; PARTY_END of a party whose ropes have all ended and
whose tokens are idle gives back its party slot, rope slots, accumulations and handles, and counts it at its launch.
-/
def Obligations.RopeAndPartyEvents : Prop :=
  ∀ (s : State) (c : Nat), s.ready = true → s.clusterHalted c = false →
    let cl := s.cluster c
    (∀ slot k, s.waiting c slot noGuard = some k →
      (2 ^ 20 ≤ k.rope.livelock →
        exec (.ropeLivelock c slot) s = .next (s.ropeFault c slot k.ctx k.rope.pc Code.ropeLivelock 0 0)) ∧
      (∀ f rest host, k.rope.wait = .spin f rest →
        exec (.spinwaitReread c slot host) s = .next (s.spin k f rest (some host))) ∧
      (∀ f e, k.rope.wait = .glock f e → exec (.glockPass c slot) s = .next (s.lockPass k f k.rope e))) ∧
    (∀ l idx rest x, cl.waiting = (l, idx) :: rest → Table.find s.launches l = some x →
      (cl.split = x.par.split ∨ cl.parties = []) → cl.fits x.par = true →
      let slots := ((List.range 64).filter fun j => (Table.find cl.ropes j).isNone).take x.par.ropes
      s.mayTraceRopes c slots x.par.ctx kPartyStart = true →
      let s0 := ((s.setReg (.clTeStat c) 0).setRf (.clHaulStat c) .xltStall 0).setRf (.clRcStat c) .misses 0
      let s1 := (s0.takeSplit c x.par.ctx x.par.split).acquireAt c x.par.ctx 2
      (Table.find s1.launches l).isSome = true →
      let k1 := s1.cluster c
      let n := (Table.firstFree k1.parties 0 16).getD 0
      let ropes := (slots.zip (List.range x.par.ropes)).foldl
        (fun t e => Table.insert t e.1 (Rope.launched n e.2 c idx x.par)) k1.ropes
      exec (.partyLaunch c) s = .next ((s1.setCluster c { k1 with
        waiting := rest, parties := Table.insert k1.parties n ⟨l, idx, x.par, [], [], .clear⟩
        ropes := ropes }).traceRopes c slots x.par.ctx kPartyStart idx x.par.code.toNat)) ∧
    (∀ n p, Table.find cl.parties n = some p → (∀ e ∈ cl.ropes, e.2.party = n → e.2.ended = true) →
      (∀ t, t < 16 → (p.token t).outstanding = 0) →
      let slots := (cl.ropes.filter fun e => e.2.party == n).map Prod.fst
      s.mayTraceRopes c slots p.par.ctx kPartyEnd = true →
      exec (.partyEnd c n) s = .next (((s.traceRopes c slots p.par.ctx kPartyEnd p.index 0).setCluster c { cl with
        parties := Table.erase cl.parties n
        ropes := cl.ropes.filter fun e => e.2.party != n
        te := { cl.te with
          accs := cl.te.accs.filter fun e => e.2.party != n
          handles := cl.te.handles.filter fun e => e.1 / 16 != n } }).partyGone c p.launch)) ∧
    (∀ party index idx (par : LaunchParams) (n : Nat),
      let r := Rope.launched party index c idx par
      r.pc = par.code ∧ r.active = BitVec.allOnes 32 ∧ r.exited = 0 ∧ r.stack = [] ∧ r.ret = [] ∧
        r.ureg 0 = par.arg ∧ r.ureg 1 = BitVec.ofNat 64 idx ∧ r.ureg 2 = BitVec.ofNat 64 index ∧
        r.ureg 3 = BitVec.ofNat 64 c ∧ (4 ≤ n → r.ureg n = 0) ∧ r.preg n = 0 ∧ r.vreg n = 0)

/-! ### Commands of the queues -/

/-- For every command that may start, with its reserved bits 0 (and, for XLT_INV and CTX_DESTROY, on a queue of
context 0): NOP ends OK; WINDOW_FENCE ends OK with its count where the window has reached it, else waits; LAUNCH of
a legal shape on clusters none of which is halted runs, its parties placed in order; BELL_WAIT, with fewer than 16
waits of its queue registered, ends OK where the bell has its value, else waits; with 16 it stays at its start;
BELL_SIGNAL adds to the bell and ends OK; HINT_HEAVY is ignored or sets PWR_HINT and ends OK; XLT_INV starts the
invalidation; CTX_DESTROY of a live context ends the work, disables the queues and completes with the last of them;
each first makes its start record. For every command that may start, of a live context: a collective with legal
operands, whose engine runs no collective of the context and was last used by this queue, joins the collectives with
the next sequence number, its group by R482, and begins to run; a MUSTER in a context that musters with no one ends
OK with its epoch; in an unmustered context it starts with the 64 bytes of its digest. -/
def Obligations.QueueCommands : Prop :=
  (
    ∀ (s : State) (n : Nat) (c : Cmd), s.startable n c →
      let t := s.traceStart n c
      let ctx := s.queueCtx n
      let done := fun (u : State) (result : Nat) => u.endCmd n c.index stOk result 0
      let zeros := fun (first : Nat) => ∀ i, first ≤ i → i ≤ 6 → c.word i = 0
      (c.opcode = 1 → zeros 1 → exec (.nopCmd n) s = .next (done t 0)) ∧
      (c.opcode = 2 → c.word 1 < 4 → zeros 3 →
        (t.windowReached (c.word 1) (c.word 2) = true →
          exec (.windowFence n) s = .next (done (t.fenceDone (c.word 1)) (c.word 2))) ∧
        (t.windowReached (c.word 1) (c.word 2) = false →
          exec (.windowFence n) s = .next (t.setCmd n c.index (.waiting waitWindow)))) ∧
      (c.opcode = 3 → c.reserved [allBits, allBits, span 0 42 + span 48 10,
          span 0 6 + span 8 8 + span 16 2 + span 20 12 + span 32 6 + span 40 5] = none →
        let p := c.launchParams ctx
        p.parties ≠ 0 → p.clusters ≠ 0 → p.first + p.clusters ≤ 704 → p.shapeOk = true →
        (∀ j, j < p.clustersUsed → t.clusterHalted (p.first + j) = false) →
          let t1 := t.setCmd n c.index .running
          exec (.launch n) s = .next (({ t1 with
            launches := Table.insert t1.launches t1.nextLaunch ⟨p, n, c.index, [], 0⟩
            nextLaunch := t1.nextLaunch + 1 } : State).placeParties t1.nextLaunch p)) ∧
      (c.opcode = 4 → 16 ≤ s.bellWaits n → exec (.bellWaitCmd n) s = .next s) ∧
      (c.opcode = 4 → s.bellWaits n < 16 → c.word 1 < 16384 → zeros 3 → (ctx = 0 ∨ t.bellOk ctx (c.word 1) = true) →
        let u := t.countPkg 12 0 ctx 1
        (c.word 2 ≤ (t.bell (c.word 1)).toNat → exec (.bellWaitCmd n) s = .next (done u (c.word 2))) ∧
        ((t.bell (c.word 1)).toNat < c.word 2 → exec (.bellWaitCmd n) s = .next (u.setCmd n c.index (.waiting waitBell)))) ∧
      (c.opcode = 5 → c.word 1 < 16384 → zeros 3 → (ctx = 0 ∨ t.bellOk ctx (c.word 1) = true) →
        exec (.bellSignal n) s = .next (done (t.bellAdd (c.word 1) (BitVec.ofNat 64 (c.word 2)) ctx) 0)) ∧
      (c.opcode = 6 → c.word 1 < 2 ^ 52 → zeros 2 →
        let d := c.word 1 % 2 ^ 32
        let u := t.wrapRf .pwrHintCnt .accepted 1
        (t.rbit .pwrCtl .hintEn = false → exec (.hintHeavy n) s = .next (done (t.satRf .pwrHintCnt .ignored 1) 0)) ∧
        (t.rbit .pwrCtl .hintEn = true → d = 0 → exec (.hintHeavy n) s = .next (done (u.setReg .pwrHint 0) 0)) ∧
        (t.rbit .pwrCtl .hintEn = true → d ≠ 0 → exec (.hintHeavy n) s = .next (done ((((u.setRf .pwrHint .active 1).setRf
          .pwrHint .mask (bits (c.word 1) 48 4)).setRf .pwrHint .powerW (bits (c.word 1) 32 16)).setRf
            .pwrHint .remainUs d) 0))) ∧
      (c.opcode = 9 → ctx = 0 → c.reserved [span 0 6 + span 8 1, span 16 39, span 16 40] = none →
        c.word 1 % 64 ≠ 63 → t.invBusy = false →
        exec (.xltInv n) s = .next ((t.setCmd n c.index .running).startInv (c.word 1 % 64) ((c.word 1).testBit 8)
          (c.word 2) (c.word 3) (some (n, c.index)))) ∧
      (c.opcode = 12 → ctx = 0 → c.word 1 < 63 → c.word 1 ≠ 0 → zeros 2 → (Table.find t.ctxs (c.word 1)).isSome = true →
        let x := c.word 1
        let t0 := t.setCmd n c.index .running
        let t1 := (t0.clusters.foldl (fun u e =>
          if e.2.parties.any fun p => p.2.par.ctx == x then u.releaseAt e.1 x 3 else u) t0).endCtxWork x
        let t2 := t1.mapClusters fun _ k => { k with te := { k.te with shadow := match k.te.shadow with
          | some j => if j.ctx = x then none else some j
          | none => none } }
        let t3 := (List.range 256).foldl (fun u q =>
          if u.sqState q ≠ qDisabled ∧ u.queueCtx q = x then u.sqDisable q true else u) t2
        exec (.ctxDestroy n) s = .next t3.destroyDone)) ∧
  (
    ∀ (s : State) (n : Nat) (c : Cmd), s.startable n c →
      let t := s.traceStart n c
      let ctx := s.queueCtx n
      let e := bits (c.word 3) 52 2
      let key := 4 * ctx + e
      let seq := Table.get 0 t.pod.cseq key
      let begun := fun (cx : Ctx) =>
        let rank := (t.rankOf ctx).1
        let mask := bits (c.word 3) 56 4
        let k : Coll := ⟨ctx, e, (seq + 1) % 65536, n, c.index, c.record,
          (List.range (groupSize cx.axes mask)).map (groupRank cx.axes mask rank), groupIndex cx.axes mask rank, [], [], [],
          [], 0, none⟩
        let t1 : State := { t with pod := { t.pod with
          colls := t.pod.colls ++ [k]
          cseq := Table.insert t.pod.cseq key (seq + 1)
          collQueue := Table.insert t.pod.collQueue key n } }
        ((k.badWord, t.coll ctx e), (t1.setCmd n c.index .running).showColl.collRun ctx e)
      (∀ cx, Table.find t.ctxs ctx = some cx → (begun cx).1 = (none, none) →
        (∀ q, Table.find t.pod.collQueue key = some q → q = n) →
        (c.opcode = 0x10 → exec (.allReduce n) s = .next (begun cx).2) ∧
        (c.opcode = 0x11 → exec (.reduceScatter n) s = .next (begun cx).2) ∧
        (c.opcode = 0x12 → exec (.allGather n) s = .next (begun cx).2) ∧
        (c.opcode = 0x13 → exec (.broadcast n) s = .next (begun cx).2) ∧
        (c.opcode = 0x14 → exec (.reduce n) s = .next (begun cx).2) ∧
        (c.opcode = 0x15 → exec (.barrier n) s = .next (begun cx).2)) ∧
      (c.opcode = 0x16 → c.word 2 < 2 ^ 32 → (∀ i, 3 ≤ i → i ≤ 6 → c.word i = 0) →
        (t.musters ctx = false → exec (.muster n) s = .next (t.endCmd n c.index stOk (c.word 2) 0)) ∧
        (t.musters ctx = true → (t.muster ctx).stage = .unmustered → c.word 1 < apertureBase →
          ∀ t1 d, t.unitRead ctx (c.word 1) 64 needReadDev = (t1, .ok, d) →
            exec (.muster n) s = .next (t1.musterStart n ctx c d))))

/-- For every command that may start, with operands in range, whose reads and writes succeed: PUBLISH writes the LEN
bytes of SRC at DST and ends OK with LEN; TABLE_LOAD (context 0) writes the host's bytes at the physical address and
ends OK with LEN; INIT writes a ledger header with STEP 0 and every entry at the initial scale; CLOSE and DISCARD
read header and entries and write them closed, scales changed only by CLOSE of a ledger-mode recipe with an element
type; CTX_CREATE (context 0) of a free context number with a legal record makes that context live and ends OK with
its number. -/
def Obligations.QueueMemoryCommands : Prop :=
  ∀ (s : State) (n : Nat) (c : Cmd), s.startable n c →
    let t := s.traceStart n c
    let ctx := s.queueCtx n
    let done := fun (u : State) (result : Nat) => u.endCmd n c.index stOk result 0
    let zeros := fun (first : Nat) => ∀ i, first ≤ i → i ≤ 6 → c.word i = 0
    (∀ host, c.opcode = 7 → zeros 4 → publishBad (c.word 1) (c.word 2) (c.word 3) = none →
      ∀ t1 t2 bs, t.unitRead ctx (c.word 1) (c.word 3) needReadDev = (t1, .ok, bs) →
      t1.unitWrite ctx (c.word 2) bs = (t2, .ok) → exec (.publish n host) s = .next (done t2 (c.word 3))) ∧
    (∀ host, c.opcode = 10 → ctx = 0 → zeros 4 → tableLoadBad (c.word 1) (c.word 2) (c.word 3) = none →
      (∀ cause e, (t.translate .square 0 (c.word 1) needRead).2 ≠ .fault cause e) →
      t.rbit .hqLinkStatus .up = true → host.failed = [] →
      exec (.tableLoad n host) s = .next (done ((t.translate .square 0 (c.word 1) needRead).1.physWrite (c.word 2)
        (hostBytes host (c.word 1 - apertureBase) (c.word 3))) (c.word 3))) ∧
    (c.opcode = 8 → zeros 3 → c.word 1 % 128 = 0 → c.word 1 < apertureBase →
      let va := c.word 1
      (c.reserved [allBits, span 0 2 + span 8 4 + span 16 3 + span 24 40] = none → c.word 2 % 4 = 0 →
        (c.word 2 / 2 ^ 16) % 8 ≤ 5 → (c.word 2 / 2 ^ 24) % 256 ≠ 255 → ∀ t1,
        t.unitWrite ctx va (leBytes 4 0 ++ leBytes 4 (c.word 2 / 2 ^ 32) ++ leBytes 1 ((c.word 2 / 2 ^ 8) % 16) ++
          leBytes 1 ((c.word 2 / 2 ^ 16) % 8) ++ leBytes 118 0 ++
          (List.replicate (c.word 2 / 2 ^ 32) (leBytes 4 ((c.word 2 / 2 ^ 24) % 256))).flatten) needWriteDev = (t1, .ok) →
        exec (.init n) s = .next (done t1 0)) ∧
      (∀ discard : Bool, c.word 2 = (if discard then 2 else 1) → ∀ t1 h, t.unitRead ctx va 128 needReadDev = (t1, .ok, h) →
        hdrNat h 8 1 ≤ 15 → hdrNat h 9 1 ≤ 5 → ∀ t2 es,
        t1.unitRead ctx (va + 128) (4 * hdrNat h 4 4) needReadDev = (t2, .ok, es) →
        ∀ cx, Table.find t.ctxs ctx = some cx →
        let r := cx.recipeOf (hdrNat h 8 1)
        let z := closeEntries r (emaxOf (elemType (hdrNat h 9 1))) (!discard && r.mode == rLedger && hdrNat h 9 1 != 0)
          (entriesOf es)
        ∀ t3, t2.unitWrite ctx va (closeHeader h z.2 ++ z.1.flatMap (leBytes 4)) needWriteDev = (t3, .ok) →
        (discard = false → exec (.close n) s = .next (done t3 0)) ∧
        (discard = true → exec (.discard n) s = .next (done t3 0)))) ∧
    (∀ host, c.opcode = 11 → ctx = 0 → zeros 2 → c.word 1 % 128 = 0 → c.word 1 < apertureBase →
      ∀ t1 r, t.unitRead 0 (c.word 1) 128 needReadDev = (t1, .ok, r) →
      let x := recNat r 0 1
      x ≠ 0 → x < 63 → Table.find t.ctxs x = none → ctxRecordOk r (t.nodesOf x) = true →
        exec (.ctxCreate n host) s = .next (done (t1.createCtx x r ((recNat r 1 1).testBit 0)) x))

/-- R92 on one entry of a ledger, x its 32 bits, t the bound the scale must reach. What a scale of 0 becomes when
lowered the spec does not state: it is free (log 43). -/
def Obligations.LedgerEntryClose : Prop :=
  ∀ (r : Recipe) (emax : Nat) (adapt : Bool) (x : Nat), r.hold < 32 →
    let y := closeEntry r emax adapt x
    let scale := x % 256
    let raises := x / 2 ^ 8 % 256
    let hold := x / 2 ^ 24 % 32
    let t : Int := ((x / 2 ^ 16 % 256 : Nat) : Int) - emax + r.margin
    let newScale := y.1 % 256
    let newRaises := y.1 / 2 ^ 8 % 256
    let newHold := y.1 / 2 ^ 24 % 32
    -- amax and the flags are cleared
    y.1 / 2 ^ 16 % 256 = 0 ∧ y.1 / 2 ^ 29 = 0 ∧
    ((adapt = false ∨ x.testBit 29 = false) → newScale = scale ∧ newRaises = raises ∧ newHold = hold ∧ y.2 = (false, false)) ∧
    (adapt = true → x.testBit 29 = true →
      (x.testBit 31 = true → newHold = r.hold ∧
        (scale < 254 → newScale = scale + 1 ∧ newRaises = min (raises + 1) 255 ∧ y.2 = (true, false)) ∧
        (254 ≤ scale → newScale = scale ∧ newRaises = raises)) ∧
      (x.testBit 31 = false →
        ((scale : Int) < t → newHold = r.hold ∧ newRaises = min (raises + 1) 255 ∧ (newScale : Int) = min t 254 ∧
          y.2 = (true, false)) ∧
        (t ≤ (scale : Int) → newRaises = raises ∧
          (0 < hold → newHold = hold - 1 ∧ newScale = scale ∧ y.2 = (false, false)) ∧
          (hold = 0 → newHold = 0 ∧
            (t < (scale : Int) → scale ≠ 0 → newScale = scale - 1 ∧ y.2 = (false, true)) ∧
            ((scale : Int) = t → newScale = scale ∧ y.2 = (false, false))))))

/-! ### Queues and rings -/

/-- Ending a command leaves every other command of the queue, every other queue, every cluster, all of memory, the
coherence fabric and the links as they were; the command stands finished with the status, result and detail given,
unless it has ended before, when it keeps its own (13 R428); and a running queue is STOPPED where the status is one
of 1 to 6, and otherwise keeps its STATE. -/
def Obligations.CommandEnd : Prop :=
  ∀ (s : State) (n idx status result detail : Nat), n < 256 →
    let t := s.endCmd n idx status result detail
    let hasEnded := ∃ c ∈ (s.queue n).cmds, c.index = idx ∧ ∃ st r d, c.state = .finished st r d ∨ c.state = .full st r d
    (¬hasEnded → (t.queue n).cmds = (s.queue n).cmds.map fun c =>
      if c.index = idx then { c with state := .finished status (BitVec.ofNat 64 result) (BitVec.ofNat 64 detail) } else c) ∧
    (hasEnded → (t.queue n).cmds = (s.queue n).cmds) ∧
    (∀ m, m ≠ n → t.queue m = s.queue m ∧ (m < 256 → t.sqState m = s.sqState m)) ∧
    (t.mem = s.mem ∧ t.clusters = s.clusters ∧ t.coh = s.coh ∧ t.pod = s.pod ∧ t.pending = s.pending) ∧
    (1 ≤ status → status ≤ 6 → s.sqState n = qRun → t.sqState n = qStopped) ∧
    ((status = 0 ∨ 6 < status ∨ s.sqState n ≠ qRun) → t.sqState n = s.sqState n)

/-- With the HQ block taking writes, from the host or a Square core that does not meet the other's enabled queue or
ring: an acceptable enable of a DISABLED queue takes CTX, CQ and OWNER, zeroes the counts and runs; a disable
drains; RESUME sets a STOPPED queue running; an enable of a ring takes its fields and owner and zeroes HEAD and
TAIL, a disable of a ring no queue uses clears ENABLE and OWNER; HEAD_ADVANCE up to TAIL moves HEAD; a doorbell
within the ring moves the producer. On a running queue with records to fetch: FETCH or, with a record held,
SEAL_REREAD of a record whose seal passes appends it as fetched and adds one to FETCHED; one whose sequence number
does not fit is held, one whose CRC does not is held as a CRC failure; SEAL_CRC counts a held CRC failure as fetched
and ends it SEAL_CRC; COMMAND_COMPLETE of a command that has ended, whose trace record has room, writes its
completion record (or holds it while the ring is full), then makes the trace record. -/
def Obligations.QueueRegistersAndFetch : Prop :=
  (
    ∀ (s : State) (m : Master) (v : Word), s.fatal = false → s.board.rails = true → m ≠ .reeve →
      (∀ n, n < 256 → s.sqForeign m n = false →
        let ctx := fld v 48 6
        let cq := fld v 40 6
        (v.getLsbD 63 = true → s.rbit (.hqSqCtrl n) .enable = false → s.sqState n = qDisabled →
          s.sqEnableOk m n ctx cq = true →
          let s1 := ((s.setRf (.hqSqCtrl n) .ctx ctx).setRf (.hqSqCtrl n) .cq cq).setRf (.hqSqCtrl n) .enable 1
          let s2 := (s1.setRf (.hqSqCtrl n) .owner (if m = .host then 1 else 0)).setReg (.hqSqStatus n) 0
          exec (.queueEnable m n v) s =
            .next (((s2.setReg (.hqSqDone n) 0).setQueue n .empty).setRf (.hqSqStatus n) .state qRun)) ∧
        (v.getLsbD 63 = false → s.rbit (.hqSqCtrl n) .enable = true → s.sqState n ≠ qDisabled → s.sqState n ≠ qDraining →
          exec (.queueDisable m n v) s = .next (s.sqDisable n false)) ∧
        (v.getLsbD 63 = true → v.getLsbD 62 = true → s.rbit (.hqSqCtrl n) .enable = true → s.sqState n = qStopped →
          exec (.resume m n v) s = .next (s.setRf (.hqSqStatus n) .state qRun))) ∧
      (∀ n, n < 64 → s.cqForeign m n = false →
        (v.getLsbD 63 = true → s.rbit (.hqCqCtrl n) .enable = false → s.ready = true →
          4 ≤ s.rf (.hqCqBase n) .sizeLog2 → s.rf (.hqCqBase n) .sizeLog2 ≤ 14 →
          (m = .host ↔ apertureBase ≤ s.cqVa n) →
          exec (.ringEnable m n v) s = .next (((((s.cqFields n v).setRf (.hqCqCtrl n) .enable 1).setRf (.hqCqCtrl n) .owner
            (if m = .host then 1 else 0)).setReg (.hqCqHead n) 0).setReg (.hqCqTail n) 0)) ∧
        (v.getLsbD 63 = false → s.rbit (.hqCqCtrl n) .enable = true → s.cqUsed n = false →
          exec (.ringDisable m n v) s =
            .next (((s.cqFields n v).setRf (.hqCqCtrl n) .enable 0).setRf (.hqCqCtrl n) .owner 0)) ∧
        ((fld v 0 32 + 2 ^ 32 - s.rf (.hqCqHead n) .head) % 2 ^ 32 ≤ s.cqUnread n →
          exec (.headAdvance m n v) s = .next (s.setRf (.hqCqHead n) .head (fld v 0 32)))) ∧
      (let n := fld v 32 8
       let p := fld v 0 32
       let f := s.rf (.hqSqStatus n) .fetched
       s.rbit (.hqSqCtrl n) .enable = true → s.sqForeign m n = false → p ≠ (s.queue n).producer →
       (p + 2 ^ 32 - f) % 2 ^ 32 ≤ 2 ^ s.rf (.hqSqBase n) .sizeLog2 →
       ((s.queue n).producer + 2 ^ 32 - f) % 2 ^ 32 ≤ (p + 2 ^ 32 - f) % 2 ^ 32 →
         exec (.doorbell m v) s = .next (s.setQueue n { s.queue n with producer := p }))) ∧
  (
    ∀ (s : State) (n : Nat), s.ready = true → n < 256 → (s.queue n).stall = none →
      let i := s.rf (.hqSqStatus n) .fetched
      (s.sqState n = qRun → i ≠ (s.queue n).producer →
        (∀ host s1 r, s.readSlot n host = (s1, .record r) →
          let seq := (i + 1) % 2 ^ 32
          let q := s1.queue n
          let fits := bits r.toNat 448 32 = seq ∧ bits r.toNat 16 16 = seq % 65536
          let crcOk := bits r.toNat 480 32 = crc32c (leBytes 56 r.toNat)
          let held := fun (crc : Bool) => ((s1.setQueue n { q with heldRec := some (crc, r) }).setRf
            (.hqSqStatus n) .sealWait 1).satRf (.hqSqStatus n) .sealWaits 1
          let taken := ((s1.setQueue n { q with cmds := q.cmds ++ [⟨i, r, .fetched⟩], heldRec := none }).setRf
            (.hqSqStatus n) .sealWait 0).wrapRf (.hqSqStatus n) .fetched 1
          let answer := fun (t : State) =>
            ((s.queue n).heldRec = none → exec (.fetch n host) s = .next t) ∧
            ((s.queue n).heldRec ≠ none → exec (.sealReread n host) s = .next t)
          (fits → crcOk → answer taken) ∧ (¬fits → answer (held false)) ∧ (fits → ¬crcOk → answer (held true))) ∧
        (∀ r, (s.queue n).heldRec = some (true, r) → (∀ c ∈ (s.queue n).cmds, c.state ≠ .fetched) →
          exec (.sealCrc n) s = .next ((((s.setQueue n { s.queue n with
            cmds := (s.queue n).cmds ++ [⟨i, r, .running⟩], heldRec := none }).setRf
              (.hqSqStatus n) .sealWait 0).wrapRf (.hqSqStatus n) .fetched 1).endCmd n i stSealCrc 0 0))) ∧
      (∀ seq c, ((s.queue n).cmds.find? fun c => decide ((c.index + 1) % 2 ^ 32 = seq)) = some c →
        (∀ d, s.nextCmd n (fun _ => true) = some d → badOpcode d.opcode = false ∧ (d.opcode = 8 → d.word 2 % 4 ≠ 3)) →
        ∀ st r d, c.state = .finished st r d → s.mayTrace (queueSrc n) (s.queueCtx n) kCmdDone = true →
          let t := s.complete n c st r d
          (t.queue n).stall = none →
          exec (.commandComplete n seq) s =
            .next (t.traceNow (queueSrc n) n (s.queueCtx n) kCmdDone (st * 2 ^ 16 + c.opcode) c.seq)))

/-! ### Host interface -/

/-- With the endpoint running and no package-fatal error: in boot mode a write of BAR2 puts its enabled bytes into
the boot SRAM, or, during VERIFY, is dropped and counted; otherwise a write to a disabled window is discarded and
counted but settles its bytes, and a write to an enabled window commits its sectors, counts a fault, records a
poisoned TLP and settles its bytes; a read answers the SRAM bytes, all ones of a disabled window, or the sectors
read; a write of a window's base register outside boot mode with CTX not 63 takes CTX, BASE and, but in HALTED,
ENABLE, and where ENABLE rises clears ARRIVED. LINK_DOWN of a link that is up clears UP, counts, and ends every
outstanding aperture read as failed; LINK_UP at speeds 1 to 7, in flit mode exactly at 64.0 and 128.0 GT/s, shows
speed and width and sets UP where the width is 8 or 16 lanes, and otherwise leaves the link down at another width; a
completion of an aperture read ends it with the host's answer, a time-out with every sector failed; unmasking a
vector clears its mask bit and, where it is pending and the function is not masked, sends its message and clears its
pending bit; the function mask holds every vector, and clearing it sends the message of every pending vector that is
not masked itself. -/
def Obligations.WindowsLinkAndMsix : Prop :=
  (
    ∀ (s : State), s.endpoint = true → s.fatal = false →
      (s.boot.mode = true →
        (∀ offset bytes ep flips, (s.stage = 2 → exec (.windowWrite ⟨offset, bytes, ep, flips⟩) s = .next (s.satRf .bootStatus .sramDrops 1) ∧
            exec (.bootSramWrite offset bytes) s = .next (s.satRf .bootStatus .sramDrops 1)) ∧
          (s.stage ≠ 2 → offset + bytes.length ≤ 2 ^ 23 → ∃ sram, exec (.windowWrite ⟨offset, bytes, ep, flips⟩) s =
              .next { s with boot := { s.boot with sram := sram } } ∧
            exec (.bootSramWrite offset bytes) s = .next { s with boot := { s.boot with sram := sram } } ∧
            (∀ a, a < offset ∨ offset + bytes.length ≤ a → Table.get 0 sram a = Table.get 0 s.boot.sram a) ∧
            ∀ j, j < bytes.length → Table.get 0 sram (offset + j) =
              ((bytes.getD j none).getD (Table.get 0 s.boot.sram (offset + j))))) ∧
        (∀ offset length, offset + length ≤ 2 ^ 23 → exec (.windowRead offset length) s =
          .next { s with outbox := s.outbox ++ [.readData offset
            ((List.range length).map fun j => Table.get 0 s.boot.sram (offset + j)) []] })) ∧
      (s.boot.mode = false → ∀ w, w < 4 →
        (s.rbit (.hqWinBase w) .enable = false →
          (∀ t : WriteTlp, t.offset / 2 ^ 34 = w → exec (.windowWrite t) s = .next ((s.satRf .hqWinStat .disWrites 1).settleBytes
            w (t.bytes.filter Option.isSome).length)) ∧
          (∀ offset length, offset / 2 ^ 34 = w → exec (.windowRead offset length) s =
            .next ((s.satRf .hqWinStat .disReads 1).sendRead offset (List.replicate length 0xFF) []))) ∧
        (s.rbit (.hqWinBase w) .enable = true →
          (∀ t : WriteTlp, t.offset / 2 ^ 34 = w →
            let r := (tlpSectors t.offset t.bytes).foldl (fun (r : State × Bool) x =>
              let z := r.1.windowSector w t.ep (Table.find t.flips (x.1 / 32)) x
              (z.1, r.2 || z.2)) (s, false)
            let s1 := if r.2 then r.1.satRf .xltStatus .winFaults 1 else r.1
            let va := s.rf (.hqWinBase w) .base * 65536 + (t.offset - 2 ^ 34 * w)
            let s2 := if t.ep then (s1.errRecord { addr := va, addrKind := 1 } Code.hostEpWrite 1 (s.rf (.hqWinBase w) .ctx)).1
              else s1
            exec (.windowWrite t) s = .next (s2.settleBytes w (t.bytes.filter Option.isSome).length)) ∧
          (∀ offset length, offset / 2 ^ 34 = w → exec (.windowRead offset length) s = .next (s.windowRead offset length))) ∧
        (∀ (m : Master) (v : Word), m ≠ .reeve → fld v 56 6 ≠ 63 →
          let on := v.getLsbD 63 && s.stage != 9
          let s1 := ((s.setRf (.hqWinBase w) .enable (if on then 1 else 0)).setRf (.hqWinBase w) .ctx (fld v 56 6)).setRf
            (.hqWinBase w) .base (fld v 16 40)
          (on = true → s.rbit (.hqWinBase w) .enable = false → exec (.windowBaseWrite m w v) s =
            .next (((s1.setReg (.hqWinArrived w) 0).fenceDone w).windowWake w)) ∧
          ((on = false ∨ s.rbit (.hqWinBase w) .enable = true) →
            exec (.windowBaseWrite m w v) s = .next (s1.windowWake w))))) ∧
  (
    ∀ (s : State), s.endpoint = true →
      (s.rbit .hqLinkStatus .up = true →
        let s1 := (s.setRf .hqLinkStatus .up 0).satRf .hqLinkStatus .downCount 1
        (s.ready = true → exec .linkDown s = .next (s1.pcie.apReads.foldl (fun t r => t.finishRead r.1 (t.failedAnswer r.1)) s1)) ∧
        (s.ready = false → exec .linkDown s = .next s1) ∧
        (s.ready = true → ∀ id answer, exec (.apertureReadCompletion id answer) s = .next (s.finishRead id answer))) ∧
      (s.ready = true → ∀ id, exec (.completionTimeout id) s = .next (s.finishRead id (s.failedAnswer id))) ∧
      (s.rbit .hqLinkStatus .up = false → ∀ speed width flit, 1 ≤ speed → speed ≤ 7 → (flit = true ↔ 6 ≤ speed) →
        let told := fun (x : Bool) => ({ s with pcie := { s.pcie with otherWidth := x } } : State)
        ((width = 8 ∨ width = 16) → exec (.linkUp speed width flit) s = .next (((((told false).setRf .hqLinkStatus .up 1).setRf
          .hqLinkStatus .speed speed).setRf .hqLinkStatus .width width).setRf .hqLinkStatus .flit (if flit then 1 else 0))) ∧
        (width ≠ 8 → width ≠ 16 → exec (.linkUp speed width flit) s = .next (told true))) ∧
      (∀ n, n < 2048 →
        let s1 := s.setMsix n { s.msixEntry n with masked := false }
        ((s.pcie.pend.contains n = false ∨ s.pcie.funcMask = true) → exec (.msixUnmask (.vector n)) s = .next s1) ∧
        (s.pcie.pend.contains n = true → s.pcie.funcMask = false →
          exec (.msixUnmask (.vector n)) s =
            .next (({ s1 with pcie := { s1.pcie with pend := setErase s1.pcie.pend n } } : State).msix n))) ∧
      (let s1 := fun (x : Bool) => ({ s with pcie := { s.pcie with funcMask := x } } : State)
       exec (.msixUnmask (.function true)) s = .next (s1 true) ∧
       exec (.msixUnmask (.function false)) s = .next (s.pcie.pend.foldl (fun t n => t.msixFlush n) (s1 false))))

/-! ### Registers -/

/-- For every register whose fields do not overlap and lie in 64 bits: a write leaves an RW field with the value
written, clears a W1C field where its lowest bit (for a bitwise field, each bit) is written as 1, sets in a W1S
field the bits written as 1, and leaves every other field (RO, WO, sampled), every bit no field names, every other
register, and every other part of the state as it was. -/
def Obligations.RegisterFields : Prop :=
  ∀ (s : State) (r : Reg) (v : Word),
    r.fields.Pairwise (fun f g => f.lo + f.w ≤ g.lo ∨ g.lo + g.w ≤ f.lo) → (∀ f ∈ r.fields, f.lo + f.w ≤ 64) →
    let t := s.writeFields r [] v
    (∀ f ∈ r.fields,
      (f.acc = .rw → fld (t.reg r) f.lo f.w = fld v f.lo f.w) ∧
      (f.acc = .w1c → r.bitwise f.name = false → 0 < f.w →
        fld (t.reg r) f.lo f.w = if v.getLsbD f.lo then 0 else fld (s.reg r) f.lo f.w) ∧
      (f.acc = .w1c → r.bitwise f.name = true → ∀ j, f.lo ≤ j → j < f.lo + f.w →
        (t.reg r).getLsbD j = ((s.reg r).getLsbD j && !v.getLsbD j)) ∧
      (f.acc = .w1s → ∀ j, f.lo ≤ j → j < f.lo + f.w → (t.reg r).getLsbD j = ((s.reg r).getLsbD j || v.getLsbD j)) ∧
      (f.acc ≠ .rw → f.acc ≠ .w1c → f.acc ≠ .w1s → fld (t.reg r) f.lo f.w = fld (s.reg r) f.lo f.w)) ∧
    (∀ j, (∀ f ∈ r.fields, j < f.lo ∨ f.lo + f.w ≤ j) → (t.reg r).getLsbD j = (s.reg r).getLsbD j) ∧
    (∀ g : Reg, g.addr ≠ r.addr → t.reg g = s.reg g) ∧ t = { s with regs := t.regs }

/-- With the endpoint running: a write of 4 or 8 bytes at its alignment to a register of a block its master reaches
takes effect as that register's write, the bits beside a 4-byte write keeping the value of RW fields; one of another
size or alignment is counted and ignored; of a host and a core write of one 64-bit register outside the HQ block
that is no bell signal the host's bytes take effect, the core's beside them, and a core write that shares a byte is
logged in GLB_WR_DROP; a counter takes a written value, and an event of the same cycle is added. -/
def Obligations.RegisterWrites : Prop :=
  ∀ (s : State) (w : BarWrite) (r : Reg), s.endpoint = true → Reg.ofAddr w.offset = some r →
    blockAt w.offset ≠ .msix →
    (w.sized = false → exec (.registerWrite w none) s = .next (s.satRf .hqWinStat .badSize 1)) ∧
    (w.sized = true → s.blockOpen (blockAt w.offset) w.master = true →
      exec (.registerWrite w none) s = .next (s.writeReg w.master r (s.merged r w.mask w.word)) ∧
      (w.size = 8 → s.merged r w.mask w.word = w.value) ∧
      (∀ c : BarWrite, w.master = .host → ∀ n, c.master = .core n → c.sized = true → c.offset / 8 = w.offset / 8 →
        s.blockOpen (blockAt c.offset) c.master = true → blockAt w.offset ≠ .hq → (∀ n, r ≠ .bellSig n) →
        let v := (w.word &&& BitVec.ofNat 64 w.mask) ||| (c.word &&& BitVec.ofNat 64 c.mask &&& ~~~BitVec.ofNat 64 w.mask)
        let s1 := s.writeReg .host r (s.merged r (w.mask ||| c.mask) v)
        (w.mask &&& c.mask = 0 → exec (.registerWrite w (some c)) s = .next s1 ∧ exec (.registerWrite c (some w)) s = .next s1) ∧
        (w.mask &&& c.mask ≠ 0 → exec (.registerWrite w (some c)) s =
          .next (((s1.satRf .glbWrDrop .drops 1).setRf .glbWrDrop .lastCore n).setRf .glbWrDrop .lastOffset c.offset))) ∧
      (∀ c k, r = .clCtr c k → blockAt w.offset = .cl →
        exec (.counterWrite w false) s = .next (s.barWrite w) ∧
        exec (.counterWrite w true) s = .next ((s.barWrite w).countOnce (.clCtr c k))) ∧
      (∀ k, r = .obsPctr k → blockAt w.offset = .obs →
        exec (.counterWrite w false) s = .next (s.barWrite w) ∧
        exec (.counterWrite w true) s = .next ((s.barWrite w).countOnce (.obsPctr k))))

/-! ### Bells -/

/-- Where the package runs, for a bell below 16,384: a signal of a core, or of the host where the bell admits it,
adds its value modulo 2^64 and satisfies waits; a signal of the host that the bell does not admit is counted as a
host drop and noted; an owner write takes CTX, HOST and REMOTE, zeroes the bell, and where nobody waits on the bell
that is all. Where nobody waits on the bell, an addition leaves every other bell and bell owner, every cluster,
queue and byte of memory as it was; only package counters, their overflow bits and CTR_OVF can change beside it. -/
def Obligations.BellRegisters : Prop :=
  (
    ∀ (s : State) (m : Master) (b : Nat) (v : Word), s.ready = true → b < 16384 → m ≠ .reeve →
      ((m ≠ .host ∨ s.rbit (.bellOwner b) .host = true) →
        exec (.registerSignal m b v) s = .next (((s.setReg (.bellVal b) (s.bell b + v)).countPkg 12 0 63 1).bellWake b)) ∧
      (m = .host → s.rbit (.bellOwner b) .host = false → exec (.registerSignal m b v) s =
        .next ((s.satRf .bellStatus .hostDrop 1).setRf .bellStatus .lastBell b)) ∧
      (s.unawaited b → exec (.ownerWrite m b v) s =
        .next (((s.setReg (.bellOwner b) (v &&& 0x33F)).setReg (.bellVal b) 0).countPkg 12 0 63 1))) ∧
  (
    ∀ (s : State) (b : Nat) (inc : Word) (ctx : Nat), b < 16384 → s.unawaited b →
      let t := s.bellAdd b inc ctx
      t.bell b = s.bell b + inc ∧ (∀ j, j < 16384 → j ≠ b → t.bell j = s.bell j) ∧
        (∀ j, j < 16384 → t.reg (.bellOwner j) = s.reg (.bellOwner j)) ∧ t = { s with regs := t.regs } ∧
        ∀ g : Reg, g.addr ≠ (Reg.bellVal b).addr → (∀ n, n < 256 → g.addr ≠ (Reg.obsPctr n).addr) →
          (∀ n, n < 4 → g.addr ≠ (Reg.obsPctrOvf n).addr) → g.addr ≠ Reg.obsEvent.addr → t.reg g = s.reg g)

/-! ### Translation -/

/-- Where the package runs: WALK of an address by an agent that waits on no fault, in the context it carries,
translates it, filling the range cache or raising the fault and stalling the agent; INVALIDATION with GO starts one,
without GO takes CTX and ALL, and with one in progress is refused and counted; DRAIN removes the matching entries
(and L1 lines) of a range cache and acknowledges, the last acknowledgement clearing BUSY, adding one to DONE_SEQ and
ending the command that waits; APPLY_OWNER takes its fields and with GO sets BUSY, and its completion puts the owner
over the frames that exist; RETRY frees its slot and lets the agents of the context and block go on; FATAL frees it,
refuses the frames held for it and fails the context; HELD_FAULT_ADMIT takes the next held fault into a free slot,
and a port goes on to the next frame it holds. -/
def Obligations.TranslationRows : Prop :=
  ∀ (s : State), s.ready = true →
    (∀ a ctx va need, ctx < 63 → va < 2 ^ 56 → s.carries a ctx = true → s.agentStalled a = false →
      (∀ s1 cause entry, s.translate a.cache ctx va (needOf need) = (s1, .fault cause entry) →
        exec (.walk a ctx va need .none) s = .next ((s1.xltFault ⟨a, need % 8, cause, ctx, va, entry⟩).stallAgent a (ctx, blockOf va))) ∧
      (∀ s1 x, s.translate a.cache ctx va (needOf need) = (s1, x) → (∀ c e, x ≠ .fault c e) →
        exec (.walk a ctx va need .none) s = .next s1)) ∧
    (∀ (m : Master) (v : Word), m ≠ .reeve →
      (s.invBusy = true → exec (.invalidation m v) s = .next (s.satRf .xltStatus .invRefused 1)) ∧
      (s.invBusy = false → v.getLsbD 63 = true → exec (.invalidation m v) s =
        .next (((s.setRf .xltInvCtrl .all (fld v 61 1)).setRf .xltInvCtrl .ctx (fld v 32 6)).startInv (fld v 32 6)
          (v.getLsbD 61) (s.rf .xltInvStart .start * 65536) (s.rf .xltInvLen .len * 65536) none)) ∧
      (s.invBusy = false → v.getLsbD 63 = false → exec (.invalidation m v) s =
        .next ((s.setRf .xltInvCtrl .all (fld v 61 1)).setRf .xltInvCtrl .ctx (fld v 32 6))) ∧
      (s.rbit .xltOwnCtrl .busy = true → exec (.applyOwner m v) s = .next (s.satRf .xltStatus .ownRefused 1)) ∧
      (s.rbit .xltOwnCtrl .busy = false →
        let s1 := ((s.setRf .xltOwnCtrl .owner (fld v 48 6)).setRf .xltOwnCtrl .count (fld v 19 19)).setRf .xltOwnCtrl
          .first (fld v 0 19)
        (v.getLsbD 63 = false → exec (.applyOwner m v) s = .next s1) ∧
        (v.getLsbD 63 = true → exec (.applyOwner m v) s = .next { s1.setRf .xltOwnCtrl .busy 1 with
          xlt := { s1.xlt with ownPending := some (fld v 0 19, fld v 19 19, fld v 48 6) } })) ∧
      (∀ r, Table.find s.xlt.recs (fld v 0 8) = some r →
        let s1 : State := { s with xlt := { s.xlt with recs := Table.erase s.xlt.recs (fld v 0 8) } }
        (v.getLsbD 63 = false → exec (.retry m v) s =
          .next (((s1.resumeAgents r.ctx (blockOf r.va)).retryFrames r.ctx (blockOf r.va)).collRunAll)) ∧
        (v.getLsbD 63 = true → exec (.fatal m v) s = .next ((s1.refuseHeld r.ctx (blockOf r.va)).ctxFail r.ctx Code.xltFatal
          { s.agentInfo r.agent with addr := r.va, addrKind := 1, detail := r.seq } none)))) ∧
    (∀ i, s.xlt.inv = some i → ∀ id : RcId, id.num < 705 → i.acked.contains id.num = false →
      let k := s.rcache id
      let s1 := s.setRcache id { k with entries := k.entries.filter fun e => !i.meets e.2.ctx e.2.start e.2.len }
      let s2 := match id with
        | .cluster c => s1.drainL1 c i
        | .square => s1
      ((setInsert i.acked id.num).length < 705 → exec (.drain id) s =
        .next { s2 with xlt := { s2.xlt with inv := some { i with acked := setInsert i.acked id.num } } }) ∧
      (705 ≤ (setInsert i.acked id.num).length →
        let s3 := (({ s2 with xlt := { s2.xlt with inv := none } } : State).setRf .xltInvCtrl .busy 0).wrapRf
          .xltInvCtrl .doneSeq 1
        (i.cmd = none → exec (.drain id) s = .next s3) ∧
        (∀ q n, i.cmd = some (q, n) → exec (.drain id) s = .next (s3.endCmd q n stOk 0 0)))) ∧
    (∀ first count o, s.xlt.ownPending = some (first, count, o) →
      let n := min count (491520 - first)
      exec .applyOwnerDone s = .next (({ s with xlt := { s.xlt with
        owners := if n = 0 then s.xlt.owners else (first, n, o) :: s.xlt.owners
        ownPending := none } } : State).setRf .xltOwnCtrl .busy 0)) ∧
    (∀ h s1, s.xlt.nextHeld = some h → s.xlt.recs.length < 256 → s.admitFault h = some s1 →
      exec .heldFaultAdmit s = .next (({ s1 with xlt := { s1.xlt with
        held := s1.xlt.held.erase h, lastAdmitted := agentNumber h.agent } } : State).portNext h.agent))

/-- An address below the aperture that hits a range-cache entry of the context with every permission needed
translates to the entry's physical base plus its offset in the range, and changes nothing; one whose entry lacks
read, write or execute faults with the cause of the first lacking in that order; an aperture address of a read, or
of a write that APERTURE of the context admits, of an access that may act on the aperture goes to the host address
2^55 below, else it faults with cause APERTURE and no entry. -/
def Obligations.RangeTranslation : Prop :=
  ∀ (s : State) (id : RcId) (ctx va : Nat) (n : Need),
    (va < 2 ^ 55 → ∀ e, (s.rcache id).lookup ctx va = some e →
      ((n.r = true → e.r = true) → (n.w = true → e.w = true) → (n.x = true → e.x = true) →
        s.translate id ctx va n = (s, .mem (e.pa + (va - e.start)))) ∧
      (n.r = true → e.r = false → s.translate id ctx va n = (s, .fault 1 e.index)) ∧
      ((n.r = true → e.r = true) → n.w = true → e.w = false → s.translate id ctx va n = (s, .fault 2 e.index)) ∧
      ((n.r = true → e.r = true) → (n.w = true → e.w = true) → n.x = true → e.x = false →
        s.translate id ctx va n = (s, .fault 3 e.index))) ∧
    (2 ^ 55 ≤ va → va < 2 ^ 56 →
      let ap := s.rf (.xltCtx ctx) .aperture
      let may := n.aperture = true ∧ n.x = false ∧ (ap = 2 ∨ (ap = 1 ∧ n.w = false))
      (may → s.translate id ctx va n = (s, .host (va - 2 ^ 55))) ∧
      (¬may → s.translate id ctx va n = (s, .fault 5 0x1FFFF)))

/-! ### Coherence -/

/-- In a fabric with no transaction and no reservation, where no core has met poison, for a line with no directory
entry, below 960 GiB, whose frame admits the context, in a directory set with room, and an agent that may cache it,
has a free way for it, and holds, requests and writes back nothing of it: RDS (meeting no upset) sends the agent the
line's bytes and poison from memory with a grant of E, makes it the line's owner in the directory (DX), leaves one
transaction of the line waiting for the acknowledgement, every byte of memory as it was, and what every other agent
holds as it was. -/
def Obligations.UncachedRead : Prop :=
  ∀ (s : State) (a ctx line w : Nat) (noalloc : Bool), s.ready = true → line < memLines → s.mayCache a line = true →
    s.coh.trans = [] → s.coh.rsv = [] → Table.find s.coh.dir line = none → (s.dirPeers line).length < 16 →
    s.ownerOk ctx line = true → Table.find (s.agent a).lines line = none → s.cohReq a line = none →
    Table.find (s.agent a).wbs line = none → s.freeWay a line = some w → (∀ e ∈ s.cores, e.2.met = none) →
    ∃ t, exec (.rds a ctx line ⟨.unit noalloc, noUpset⟩) s = .next t ∧ t.mem = s.mem ∧
      t.coh.msgs = s.coh.msgs ++ [.data a line (s.mem.line line) (s.mem.linePoison line) false (some .e)] ∧
      (∃ e, Table.find t.coh.dir line = some e ∧ e.st = .dx ∧ e.owner = a ∧ e.presence = []) ∧
      (∀ l, l ≠ line → Table.find t.coh.dir l = Table.find s.coh.dir l) ∧
      (∃ x, t.coh.trans = [(line, x)] ∧ x.phase = .ack ∧ x.agent = a ∧ x.kind = .rdS) ∧
      (∃ q, t.cohReq a line = some q ∧ q.kind = .rdS ∧ q.way = w ∧ q.sent = true) ∧
      (∀ b, b ≠ a → t.agent b = s.agent b) ∧ (t.agent a).lines = (s.agent a).lines

/-- Where the package runs, for a line below 960 GiB and an agent that may cache it: RDS or RDX of a line the agent
does not hold, with no request or write-back of it outstanding, issues RdS or RdX, into a free way of its set or
that of the line it first evicts; RDS of a held line, RDX of one in E or M, makes the access on the copy that the
upset leaves; UPG of one in S or O issues Upg. A write leaves the line in M with the bytes merged; a core's load of
an unpoisoned sector returns its bytes. WBD of a dirty line moves it to the write-back buffer and sends WbD (WBC:
WbC), of a clean line drops it. RDCUR, WRNC and ATOMH issue their request; a request refused with NACK is sent
again, reserved after 8. A line at or above 960 GiB is no address, but for a core, which reaches the aperture and
the registers there. -/
def Obligations.HomeRequests : Prop :=
  (∀ (s : State) (a ctx line : Nat) (d : Line) (mask : BitVec 128) (x : LineAccess), s.ready = true → line < memLines →
    let held := Table.find (s.agent a).lines line
    let idle := s.cohReq a line = none ∧ Table.find (s.agent a).wbs line = none
    (s.mayCache a line = true →
      (held = none → idle →
        (∀ w, s.freeWay a line = some w →
          exec (.rds a ctx line x) s =
            .next (s.issueReq a line (.new .rdS ctx 0 0 x.use w) x.upset).coresMeet ∧
          exec (.rdx a ctx line d mask x) s =
            .next (s.issueReq a line (.new .rdX ctx d mask x.use w) x.upset).coresMeet) ∧
        (∀ v, s.freeWay a line = none → s.cacheVictim a line = some v →
          exec (.rds a ctx line x) s =
            .next ((s.evictLine a v.1).issueReq a line (.new .rdS ctx 0 0 x.use v.2.way) x.upset).coresMeet ∧
          exec (.rdx a ctx line d mask x) s =
            .next ((s.evictLine a v.1).issueReq a line (.new .rdX ctx d mask x.use v.2.way) x.upset).coresMeet)) ∧
      (∀ l0 l, held = some l0 →
        let s1 := s.cacheUpset a line ctx x.upset
        let near := s1.touchWay a line l.way x.use.noalloc
        Table.find (s1.agent a).lines line = some l →
        exec (.rds a ctx line x) s = .next (near.readUse line l x.use).coresMeet ∧
        (l0.st = .e ∨ l0.st = .m → s1.lineBusy a line = false →
          exec (.rdx a ctx line d mask x) s = .next (near.writeUse a line l x.use d mask).coresMeet) ∧
        (l0.st = .s ∨ l0.st = .o →
          exec (.upg a ctx line d mask x) s =
            .next (s1.issueReq a line (.new .upg ctx d mask x.use l.way) noUpset).coresMeet))) ∧
    (∀ l, held = some l → idle →
      let back := fun (keep : Bool) => (((s.dropLine a line).setWb a line ⟨l.st, l.data, l.poison, false, false, keep⟩).setCohReq
        a line (.new (if keep then .wbC else .wbD) 63 0 0 (.unit false) l.way)).homeTake a line noUpset
      ((l.st = .m ∨ l.st = .o) → exec (.wbd a line) s = .next (back false) ∧ exec (.wbc a line) s = .next (back true)) ∧
      ((l.st = .e ∨ l.st = .s) → exec (.wbd a line) s = .next (s.dropLine a line))) ∧
    exec (.rdcur a ctx line x.upset) s = .next (s.issueReq a line (.new .rdCur ctx 0 0 (.unit false) 0) x.upset) ∧
    exec (.wrnc a ctx line d mask x.upset) s = .next (s.issueReq a line (.new .wrNC ctx d mask (.unit false) 0) x.upset) ∧
    (∀ addr op, addr / 128 = line → exec (.atomh a ctx addr op x.upset) s =
      .next (s.issueReq a line (.new (.atomH addr op) ctx 0 0 (.unit false) 0) x.upset)) ∧
    (∀ q, s.cohReq a line = some q → q.sent = false → exec (.requestResend a line x.upset) s =
      .next ((s.setCohReq a line { q with sent := true, rsv := decide (8 ≤ q.nacks) }).homeTake a line x.upset))) ∧
  (∀ (s : State) (a line : Nat) (l : CLine) (d : Line) (mask : BitVec 128) (na : Bool) (k off size : Nat),
    Table.find ((s.writeUse a line l (.unit na) d mask).agent a).lines line =
      some { l with st := .m, data := mergeLine l.data d mask, poison := l.poison &&& ~~~wholeSectors mask } ∧
    (l.poison.getLsbD (off / 32) = false →
      ((s.readUse line l (.load k off size)).core k).value = BitVec.ofNat 64 (lineNat l.data off (2 ^ size)))) ∧
  (∀ (s : State) (a ctx line : Nat) (d : Line) (mask : BitVec 128) (x : LineAccess), memLines ≤ line →
    (x.use.core = none → exec (.rds a ctx line x) s = .fault .noSuchAddress ∧
      exec (.rdx a ctx line d mask x) s = .fault .noSuchAddress ∧
      exec (.upg a ctx line d mask x) s = .fault .noSuchAddress) ∧
    (∀ k, x.use.core = some k → s.ready = true →
      (line < coreBarLine ∨ coreBarLine + 2 ^ 19 ≤ line →
        exec (.rds a ctx line x) s = .next (s.coreOutside k line x.use 0 0)) ∧
      exec (.rdx a ctx line d mask x) s = .next (s.coreOutside k line x.use d mask)) ∧
    (∀ k off size, x.use = .load k off size → s.ready = true → coreBarLine ≤ line → line < coreBarLine + 2 ^ 19 →
      let r := s.barRead (.core k) (128 * (line - coreBarLine) + off) (2 ^ size)
      exec (.rds a ctx line x) s = .next (r.1.coreGets k r.2 (s.core k).rsv)) ∧
    exec (.wbd a line) s = .fault .noSuchAddress ∧ exec (.wbc a line) s = .fault .noSuchAddress ∧
      exec (.rdcur a ctx line x.upset) s = .fault .noSuchAddress ∧
      exec (.wrnc a ctx line d mask x.upset) s = .fault .noSuchAddress)

/-- Where the package runs and the message is in flight: SNPSHR leaves E as S and M as O, answers KeptShared or
KeptOwned and sends the data on, else NotPresent; SNPINV gives a copy up, sending data of all but S; SNPCUR sends
the data home and keeps the state; SNPRSP takes the response in and finishes the transaction with the last; CMP
grants a request, ends one, gives up a WbD's buffer or installs a WbC's line clean, and fails the context of an
AtomH that met poison; NACK puts it out of flight and counts it; INSTALL_ACK ends the transaction and lets those
that waited go on; LINE_DATA gives a requester or the home its data, with the sector poisoned that an uncorrectable
error of the taking cache meets. What a request is granted is installed with its data, and acknowledged. -/
def Obligations.CoherenceMessages : Prop :=
  (∀ (s : State) (a line : Nat), s.ready = true →
    (∀ s1 x dest, s.cohTake (fun m => match m with
        | .snpShr x l _ => x == a && l == line
        | _ => false) = some (.snpShr x line dest, s1) →
      (∀ d p wb, s1.copyOf a line = some (.e, d, p, wb) → exec (.snpshr a line) s =
        .next ((s1.setCopy a line wb (some .s)).snoopAnswer a line rspKeptShared dest (some (d, p, false)))) ∧
      (∀ d p wb, s1.copyOf a line = some (.m, d, p, wb) → exec (.snpshr a line) s =
        .next ((s1.setCopy a line wb (some .o)).snoopAnswer a line rspKeptOwned dest (some (d, p, false)))) ∧
      (∀ d p wb, s1.copyOf a line = some (.o, d, p, wb) → exec (.snpshr a line) s =
        .next (s1.snoopAnswer a line rspKeptOwned dest (some (d, p, false)))) ∧
      (s1.copyOf a line = none → exec (.snpshr a line) s = .next (s1.snoopAnswer a line rspNotPresent dest none))) ∧
    (∀ s1 x dest, s.cohTake (fun m => match m with
        | .snpInv x l _ => x == a && l == line
        | _ => false) = some (.snpInv x line dest, s1) →
      (∀ d p wb, s1.copyOf a line = some (.s, d, p, wb) → exec (.snpinv a line) s =
        .next ((s1.setCopy a line wb none).snoopAnswer a line rspInvalidated .nowhere none)) ∧
      (∀ st d p wb, st ≠ .s → s1.copyOf a line = some (st, d, p, wb) → exec (.snpinv a line) s =
        .next ((s1.setCopy a line wb none).snoopAnswer a line rspInvalidated dest (some (d, p, st != .e)))) ∧
      (s1.copyOf a line = none → exec (.snpinv a line) s = .next (s1.snoopAnswer a line rspNotPresent dest none))) ∧
    (∀ s1 m, s.cohTake (fun m => match m with
        | .snpCur x l => x == a && l == line
        | _ => false) = some (m, s1) →
      (∀ st d p wb, st ≠ .s → s1.copyOf a line = some (st, d, p, wb) → exec (.snpcur a line) s =
        .next (s1.snoopAnswer a line rspKeptOwned .home (some (d, p, false)))) ∧
      (s1.copyOf a line = none → exec (.snpcur a line) s = .next (s1.snoopAnswer a line rspNotPresent .home none))) ∧
    (∀ s1 x kind sent t, s.cohTake (fun m => match m with
        | .snpRsp x l _ _ => x == a && l == line
        | _ => false) = some (.snpRsp x line kind sent, s1) → s.transOf line = some t →
      let toHome := sent && !(t.kind == .rdS || t.kind == .rdX || t.kind == .upg)
      exec (.snprsp a line) s = .next ((s1.setTrans line { t with
        waiting := t.waiting.erase a, answers := t.answers ++ [(a, kind)]
        due := t.due + (if toHome then 1 else 0) }).checkTrans line).settled) ∧
    (∀ s1 x grant q, s.cohTake (fun m => match m with
        | .cmp x l _ => x == a && l == line
        | _ => false) = some (.cmp x line grant, s1) → s1.cohReq a line = some q →
      (∀ g, grant = some g → q.failed = none →
        exec (.cmp a line) s = .next ((s1.setCohReq a line { q with gotGrant := some g }).install a line).coresMeet) ∧
      (grant = none → q.kind ≠ .wbD → q.kind ≠ .wbC →
        (q.failed = none → exec (.cmp a line) s = .next (s1.dropCohReq a line).coresMeet) ∧
        (∀ addr, q.failed = some addr → exec (.cmp a line) s = .next ((s1.dropCohReq a line).coresMeet.countConsumed.ctxFail
          q.ctx Code.poison { die := cacheDie a, addr := addr, addrKind := 2 } none))) ∧
      (∀ w, grant = none → q.failed = none → Table.find ((s1.dropCohReq a line).agent a).wbs line = some w →
        let s2 := (s1.dropCohReq a line).dropWb a line
        (q.kind = .wbD → exec (.cmp a line) s = .next s2.coresMeet) ∧
        (∀ n, q.kind = .wbC → s2.freeWay a line = some n → w.taken = true → w.superseded = false →
          exec (.cmp a line) s = .next (s2.setLine a line ⟨w.st.cleaned, w.data, w.poison, n⟩).coresMeet))) ∧
    (∀ s1 m q, s.cohTake (fun m => match m with
        | .nack x l => x == a && l == line
        | _ => false) = some (m, s1) → s1.cohReq a line = some q →
      exec (.nack a line) s = .next (s1.setCohReq a line { q with nacks := q.nacks + 1, sent := false })) ∧
    (∀ s1 m, s.cohTake (fun m => match m with
        | .ack x l => x == a && l == line
        | _ => false) = some (m, s1) → exec (.installAck a line) s = .next (s1.endTrans line).settled) ∧
    (∀ s1 x d p dirty grant u, s.cohTake (fun m => match m with
        | .data x l _ _ _ _ => x == a && l == line
        | _ => false) = some (.data x line d p dirty grant, s1) →
      (a = homeDest → exec (.lineData a line u) s =
        .next ((s1.dataError (s1.homeOf line / 5) line 63 u).homeGets line d (p ||| spoiled u)).settled) ∧
      (a ≠ homeDest →
        let s2 := if a < 14 then s1.dataError a line 63 u else s1
        let p2 := if a < 14 then p ||| spoiled u else p
        ∀ q, s2.cohReq a line = some q →
        (q.kind = .rdCur → exec (.lineData a line u) s = .next (s2.dropCohReq a line).coresMeet) ∧
        (q.kind ≠ .rdCur → exec (.lineData a line u) s = .next ((s2.setCohReq a line { q with
          gotData := some (d, p2, dirty), gotGrant := match grant with
            | some x => some x
            | none => q.gotGrant }).install a line).coresMeet)))) ∧
  (∀ (s : State) (a line : Nat) (q : CReq) (d : Line) (p : BitVec 4) (dirty : Bool) (g : LineState),
    s.cohReq a line = some q → q.gotData = some (d, p, dirty) → q.gotGrant = some g →
    Table.find (s.agent a).lines line = none →
    let t := s.install a line
    t.cohReq a line = none ∧ t.coh.msgs = s.coh.msgs ++ [.ack a line] ∧
      (q.kind = .rdS → Table.find (t.agent a).lines line = some ⟨g, d, p, q.way⟩) ∧
      (∀ na, q.kind = .rdX → q.use = .unit na → Table.find (t.agent a).lines line =
        some ⟨.m, mergeLine d q.data q.mask, p &&& ~~~wholeSectors q.mask, q.way⟩))

/-! ### Sweeps, device memory, die links and clocks -/

/-- Where the package runs: a GO write of an idle Sweep engine (0 to 4) sets BUSY and notes the lines of its cache
in the range, of remote dies and memory-side, and one of a busy engine is refused and counted; its end writes the
noted lines back (giving them up under CLEAN_INV), and once none is outstanding clears BUSY and counts; on a trained
stack a scrub read reads the next line's four sectors and counts what the on-die ECC reports, REFRESH closes a
bank's open row and moves its refresh on, RFM zeroes a bank's count that has reached the threshold, a temperature
shows with REF2X and HOT, above 105 the package stops; a parity error notes its sector, a second stops the package.
-/
def Obligations.SweepAndHbm : Prop :=
  ∀ (s : State), s.ready = true →
    (∀ m n v, n < 5 → s.swpBusy n = true → let t := s.satRf (.glbSwpCtrl n) .refused 1
      (v.getLsbD 60 = false → exec (.clean m n v) s = .next t) ∧ (v.getLsbD 60 = true → exec (.cleanInv m n v) s = .next t)) ∧
    (∀ m n v, n < 5 → s.swpBusy n = false → v.getLsbD 63 = true →
      let s0 := (s.setRf (.glbSwpCtrl n) .all (fld v 61 1)).setRf (.glbSwpCtrl n) .op (fld v 60 1)
      let s1 := if v.getLsbD 32 then s0.setRf (.glbSwpCtrl n) .refused 0 else s0
      let ls := ((s1.agent n).lines.map Prod.fst).filter (s1.swpRange n (v.getLsbD 61))
      let side := (s1.sideLines n).filter (s1.swpRange n (v.getLsbD 61))
      let t := (s1.setRf (.glbSwpCtrl n) .busy 1).mapCoh fun k =>
        { k with sweeps := Table.insert k.sweeps n ⟨v.getLsbD 60, ls, side⟩ }
      (v.getLsbD 60 = false → exec (.clean m n v) s = .next t) ∧ (v.getLsbD 60 = true → exec (.cleanInv m n v) s = .next t)) ∧
    (∀ n w, Table.find s.coh.sweeps n = some w →
      let s1 := w.lines.foldl (fun t l =>
        let t1 := t.writeBack n l (!w.inv)
        if w.inv then t1.silentEvict n l else t1) (w.side.foldl (fun t l => t.sweepSide w.inv l) s)
      let left := w.lines.filter fun l => (s1.cohReq n l).isSome || (Table.find (s1.agent n).wbs l).isSome
      (left = [] → exec (.sweepDone n) s = .next (((s1.mapCoh fun k => { k with sweeps := Table.erase k.sweeps n }).setRf
        (.glbSwpCtrl n) .busy 0).wrapRf (.glbSwpCtrl n) .doneSeq 1)) ∧
      (left ≠ [] → exec (.sweepDone n) s =
        .next (s1.mapCoh fun k => { k with sweeps := Table.insert k.sweeps n { w with lines := left, side := [] } }))) ∧
    (∀ st, st < 20 → s.rbit (.glbMemStat st) .trained = true →
      (∀ flips onDie, s.rbit .glbMemScrub .enable = true →
        let n := Table.get 0 s.hbm.scrubs st
        let line := stackUnplace s.localK st (128 * (n % 402653184)) / 128
        Table.find s.coh.trans line = none →
        let r := (List.range 4).foldl (fun t i => t.hbmRead (4 * line + i) (Table.get 0 flips i) 63) s
        let s1 := r.satRf (.glbMemErr (r.homeOf line)) .odeCe onDie
        let s2 : State := { s1 with hbm := { s1.hbm with scrubs := Table.set 0 s1.hbm.scrubs st (n + 1) } }
        exec (.scrubRead st flips onDie) s = .next (s2.setRf .glbMemScrub .passes s2.scrubPasses)) ∧
      (∀ bank, bank < 3072 →
        let key := 3072 * st + bank
        exec (.refresh st bank) s = .next { s with hbm := { s.hbm with
          rows := Table.erase s.hbm.rows key
          refRow := Table.set 0 s.hbm.refRow key ((Table.get 0 s.hbm.refRow key + 1) % 16384) } } ∧
        (Config.rfmThreshold st ≤ Table.get 0 s.hbm.acts key → exec (.rfm st bank) s =
          .next { s with hbm := { s.hbm with acts := Table.erase s.hbm.acts key } })) ∧
      (∀ t : Int,
        let s1 := ((s.setRf (.glbMemStat st) .temp (t % 256).toNat).setRf (.glbMemStat st) .ref2x
          (if 85 < t ∨ (s.rbit (.glbMemStat st) .ref2x = true ∧ 82 < t) then 1 else 0)).setRf (.glbMemStat st) .hot
          (if 95 < t ∨ (s.rbit (.glbMemStat st) .hot = true ∧ 92 < t) then 1 else 0)
        (t ≤ 105 → exec (.hbmTempRead st t) s = .next s1) ∧
        (105 < t → exec (.hbmTempRead st t) s = .next (s1.packageFatal Code.hbmOvertemp st))) ∧
      (∀ sector,
        let s1 := s.memLast st 3 0 (32 * sector % 2 ^ 36)
        exec (.parityRetry st sector false) s = .next s1 ∧
        exec (.parityRetry st sector true) s = .next (s1.packageFatal Code.hbmLink st)))

/-- A stored sector, 256 data bits with the 16 check bits of R358, has the all-zero syndrome and decodes clean; one
stored as poisoned decodes as poisoned; and where one of its 68 symbols differs by a non-zero value, an unpoisoned
sector decodes as corrected, with that symbol and that value. -/
def Obligations.SectorCode : Prop :=
  ∀ x : Nat, x < 2 ^ 256 →
    decodeSyndrome (symbolSum 68 (storedWord x false)) = .clean ∧
    decodeSyndrome (symbolSum 68 (storedWord x true)) = .poisoned ∧
    ∀ n e, n < 68 → 0 < e → e < 16 →
      decodeSyndrome (symbolSum 68 (storedWord x false ^^^ e <<< (4 * n))) = .corrected n e

/-- On a slice direction that runs: a frame that its sender would send now is taken from the sender and received at
the other end; an idle frame with the reverse direction's acknowledgement is always one; a frame that arrives with a
bad CRC is counted and, unless idle, asks for a replay; a time-out makes the sender resend all its buffered frames,
one replay event; a slice that has reached a limit of R41 fails its link for good, in fuse and status, HEALTH 2, and
stops the package; a generator that reports lock and loses it clears its lock bit, latches LOCK_LOST and stops the
package. -/
def Obligations.DieLinks : Prop :=
  ∀ (s : State),
    (∀ link dir slice, s.sliceOn link dir slice = true →
      let key := sliceKey link dir slice
      let back := sliceKey link (1 - dir) slice
      (∀ (sent : D2dSent) got x sequenced begun, s.sendFrame link dir slice sent.bits sent.msgs = some (x, sequenced, begun) →
        exec (.d2dFrame link dir slice sent got) s = .next ((if sequenced then x.countPkg 7 link 63 1 else x).linkReceive
          link dir slice got begun)) ∧
      (∀ (f : BitVec 1152), frameCrcOk f = true → frameNull f = true → frameSeq f = 0 → frameReserved f = true →
        frameAck f = ((s.slice back).expected + 4095) % 4096 → frameNak f = (s.slice back).nak →
        s.sendFrame link dir slice f [] = some (s.setSlice key (s.slice key), false, [])) ∧
      (∀ (f : BitVec 1152) msgs, frameCrcOk f = false →
        s.linkReceive link dir slice f msgs = (let t := s.satRf (.glbD2dErr link) .crcErrors 1
          if frameNull f then t else t.setSlice key { t.slice key with nak := true })) ∧
      ((s.slice key).buf ≠ [] → (s.slice key).resend = [] →
        exec (.replayTimeout link dir slice) s = .next (((s.setSlice key { s.slice key with
          resend := (s.slice key).buf.map LinkFrame.seq
          replays := s.fcCount :: (s.slice key).replays.filter fun t => decide (s.fcCount < t + 2 ^ 20) }).satRf
            (.glbD2dErr link) .replays 1).countPkg 8 link 63 1)) ∧
      (((∃ b ∈ (s.slice key).buf, 16 ≤ b.resends) ∨
          256 < ((s.slice key).replays.filter fun t => decide (s.fcCount < t + 2 ^ 20)).length) →
        let v := s.fuses.failedLinks ||| 2 ^ link
        let s1 : State := { s with fuses := { s.fuses with failedLinks := v } }
        exec (.d2dWireFail link dir slice) s =
          .next (((s1.setRf .glbD2dStatus .failed v).setRf .bootStatus .health 2).packageFatal Code.d2dWireFail link))) ∧
    (s.endpoint = true →
      (s.rbit .glbClkStatus .rootLock = true → exec (.lockLost 4) s =
        .next (((s.setRf .glbClkStatus .rootLock 0).setRf .glbClkStatus .lockLost 1).packageFatal Code.lockLost 4)) ∧
      (∀ g, g < 4 → (s.rf .glbClkStatus .followLock).testBit g = true → exec (.lockLost g) s =
        .next (((s.setRf .glbClkStatus .followLock (s.rf .glbClkStatus .followLock - 2 ^ g)).setRf
          .glbClkStatus .lockLost 1).packageFatal Code.lockLost g)))

/-! ### Power, supplies, boot and resets -/

/-- With the controller running: a sample joins the tick, one above 6,400 W forces bubbles and is counted; a tick
with its 100 samples takes their mean into the window, sets Q by R509 from the window's sum and the hint's
reservation, shows P_TICK, P_AVG and P_RES, adds to the energy, counts the hint down and a cap that Q = 192 cannot
meet; a hint below 1,000 us ends; temperatures show with WARN and HOT. A die above 115 C, VIN48 out of range or
PWRGOOD dropping turns the rails off and latches its SB_TRIP bit; the loss of VAUX resets the sideband; its return
restores it. -/
def Obligations.PowerAndSupplies : Prop :=
  ∀ (s : State),
    (s.powerOn = true →
      (∀ w, s.power.samples.length < 100 →
        let s1 : State := { s with power := { s.power with samples := w :: s.power.samples } }
        (w ≤ 6400 → exec (.powerSample w) s = .next s1) ∧
        (6400 < w → exec (.powerSample w) s = .next
          (((s1.setRf .pwrStatus .forced 1).setRf .pwrEvent .peak 1).satRf .pwrEvent .peakEvents 1))) ∧
      exec .forcedPeriodEnd s = .next (s.setRf .pwrStatus .forced 0) ∧
      (∀ vin, s.power.samples.length = 100 →
        let p := s.power.samples.foldl (· + ·) 0 / 100
        let pw : Power := ⟨[], (p :: s.power.history).take 10000, if s.power.history = [] then p else s.power.first⟩
        let n := s.rf .pwrWindow .windowMs
        let cap := s.rf .pwrCapWatts .cap
        let total := pw.sum n
        let rem := s.rf .pwrHint .remainUs
        let r := if s.rbit .pwrHint .active then s.rf .pwrHint .powerW * min (rem / 1000) n else 0
        let q := if total + r < n * cap then 0 else min 192 (2048 * (total + r - n * cap) / (n * cap))
        let s1 : State := { s with power := pw }
        let s2 := (((s1.setRf .pwrStatus .q q).setRf .pwrStatus .pTick p).setRf .pwrStatus .pAvg (total / n)).setRf
          .pwrStatus .pRes (r / n)
        let s3 := (s2.wrapRf .pwrEnergy .mj p).setRf .pwrHint .remainUs (rem - 1000)
        exec (.powerTick vin) s = .next ((if q = 192 ∧ n * cap < total then
          (s3.setRf .pwrEvent .capUnmet 1).satRf .pwrEvent .capUnmetTicks 1 else s3).telemetry vin)) ∧
      (s.rbit .pwrHint .active = true → s.rf .pwrHint .remainUs < 1000 →
        exec .hintEnd s = .next (s.setReg .pwrHint 0)) ∧
      (∀ a b c d e, exec (.tempRead [a, b, c, d, e]) s =
        .next (((((s.dieTemp 0 a).dieTemp 1 b).dieTemp 2 c).dieTemp 3 d).dieTemp 4 e))) ∧
    (s.board.rails = true → s.board.vaux = true →
      (∀ die t, die < 5 → 115 < t →
        let s1 := (s.railsOff.setBit .sbTrip die).setRf (.sbTemp die) .tripTemp (t % 256).toNat
        exec (.thermtrip die t) s = .next { s1 with board := { s1.board with tripped := true } }) ∧
      (s.board.vinOk = true → s.board.tripped = false → ∀ above,
        exec (.vin48OutOfRange above) s = .next (({ s with board := { s.board with vinOk := false } } : State).railsOff.setBit
          .sbTrip (if above then 8 else 7))) ∧
      (s.board.pwrgood = true → exec .pgDrop s = .next (({ s with board := { s.board with
        pwrgood := false, pgWaiting := false } } : State).railsOff.setBit .sbTrip 6))) ∧
    (∃ t, exec .vauxLoss s = .next t ∧ t.board = { s.board with vaux := false } ∧ t.reg .sbTrip = 0 ∧
      t.sideband.dynamic = none ∧ t.mem = s.mem ∧ t.clusters = s.clusters ∧ t.reg .bootStatus = s.reg .bootStatus) ∧
    exec .vaux3v3Present s = .next { s with board := { s.board with vaux := true } }

/-- In WAIT_IMAGE, GO enters VERIFY with the verdict of R528; the ROM and VERIFY time limits and each overrun halt
with their ERROR; CLOCKS with lock sets the operating point's rails and multiplier, LINKS with every slice trained,
CLUSTERS without a replacement due, MEMORY with all 20 stacks trained (memory cleared but in a keep-memory reset)
and SERVICES with a good record of context 0 enter the next stage, the last READY; without lock CLOCKS halts with
ERROR 6, and a slice that fails training is fused as a failed link, latched as D2D_WIRE_FAIL, and halts with 7; a
stack that fails training is fused and halts with 9; a PCIe link trained at another width keeps SERVICES short of
READY. -/
def Obligations.BootStages : Prop :=
  ∀ (s : State), s.endpoint = true → s.fatal = false →
    (∀ m v, s.blockOpen .boot m = true → v.getLsbD 63 = true → s.stage = 1 →
      let s1 := s.setRf .bootStatus .stage 2
      exec (.verify m v) s = .next { s1 with boot := { s1.boot with verdict := s.verdict } }) ∧
    (s.stage = 0 → exec .romTime s = .next (s.halt 11)) ∧
    (s.stage = 2 → exec .verifyTime s = .next (s.halt 12)) ∧
    (3 ≤ s.stage → s.stage ≤ 7 → exec .bootStageOverrun s = .next (s.halt (s.stage + 3))) ∧
    (s.stage = 3 →
      let op := if s.boot.keepMem then s.rf .pwrOp .op else s.cfgNat 0 1
      let v := railsOf op
      let s1 := (((s.setRf .pwrOp .op op).setRf .pwrOp .vcdMv v.1).setRf .pwrOp .vsqMv v.2.1).setRf .pwrOp .vsramMv v.2.2
      exec (.clocks true) s = .next ((((s1.setRf .glbClkStatus .mult (multOf op)).setRf .glbClkStatus .followLock 15).setRf
        .glbClkStatus .rootLock 1).setRf .bootStatus .stage 4) ∧
      exec (.clocks false) s = .next (s.halt 6)) ∧
    (s.stage = 4 →
      let s0 : State := { s with d2d := [], stops := [] }
      exec (.links []) s = .next ((s0.setRf .glbD2dStatus .trained 255).setRf .bootStatus .stage 5) ∧
      (∀ link dir slice, link < 8 → dir < 2 → slice < linkSlices link →
        let s1 := s0.setRf .glbD2dStatus .trained (255 - 2 ^ link)
        let v := s1.fuses.failedLinks ||| 2 ^ link
        let s2 := (({ s1 with fuses := { s1.fuses with failedLinks := v } } : State).setRf .glbD2dStatus .failed v).setRf
          .bootStatus .health 2
        exec (.links [(link, dir, slice)]) s = .next ((s2.packageFatal Code.d2dWireFail link).halt 7))) ∧
    (s.stage = 5 → ∀ fails,
      let s1 := (if s.boot.keepMem then s else s.selfTest fails).showMap.mapInForce
      (s1.replacementDue = false → s1.rf .bootStatus .health ≠ 2 →
        exec (.clusters fails) s = .next ((s1.setRf .bootStatus .health 0).setRf .bootStatus .stage 6)) ∧
      ((s1.replacementDue = true ∨ s1.rf .bootStatus .health = 2) →
        exec (.clusters fails) s = .next ((s1.setRf .bootStatus .health 2).halt 8))) ∧
    (s.stage = 6 →
      let s1 := (List.range 20).foldl (fun t n =>
        (t.setRf (.glbMemStat n) .trained 1).setRf (.glbMemStat n) .failed 0) s
      (s.boot.keepMem = false → exec (.memory (BitVec.allOnes 20)) s =
        .next ((({ s1 with mem := ⟨[], []⟩ } : State).setRf .glbMemPlace .localK (s.cfgNat 1 1)).setRf .bootStatus .stage 7)) ∧
      (s.boot.keepMem = true → exec (.memory (BitVec.allOnes 20)) s = .next (s1.setRf .bootStatus .stage 7)) ∧
      (∀ trained, trained ≠ BitVec.allOnes 20 → ∃ t : State, exec (.memory trained) s = .next (t.halt 9) ∧
        t.fuses.failedStacks = s.fuses.failedStacks ||| (2 ^ 20 - 1 - trained.toNat) ∧ t.rf .bootStatus .health = 2)) ∧
    (s.stage = 7 → (s.pcie.otherWidth = true → exec .services s = .next s)) ∧
    (s.stage = 7 → s.pcie.otherWidth = false →
      (s.ctxZeroOk = false → exec .services s = .next (s.halt 10)) ∧
      (s.ctxZeroOk = true → ∃ t, exec .services s = .next t ∧ t.stage = 8 ∧ t.boot.mode = false ∧ t.mem = s.mem ∧
        (Table.find t.ctxs 0).isSome = true ∧
        t.fuses.fwMin = (if s.sramNat 6 2 % 2 = 1 ∧ s.fuses.fwMin < s.sramNat 8 4 then s.sramNat 8 4 else s.fuses.fwMin)))

/-- A rise of PWRGOOD with supplies in range starts a power-on reset (LAST_RESET 0), the board reference being there
or not as a free bit says (log 142), and waits while VIN48 is out of range; PERST# or COLD starts a cold reset (1),
COLD in the ROM stage being counted instead; KEEP_MEM in READY without a lost lock, fatal error or HEALTH starts a
keep-memory reset that enters VERIFY (2), else it is counted; the release of PERST# and VIN48 in range let the
package go on; a function-level reset in READY leaves no queue and no launch, makes context 0 anew and shows
LAST_RESET 3; after a fatal error it only drops the function mask, and during a keep-memory reset it has no effect.
-/
def Obligations.Resets : Prop :=
  ∀ (s : State),
    (s.board.pwrgood = false →
      let r := s.freshBit
      (s.board.vaux = true → s.board.vinOk = true → s.board.tripped = false →
        exec .powerOnReset s = .next ((({ r.1 with board := { s.board with
          pwrgood := true, pgWaiting := false, reference := r.2, rails := true } } : State).coldReset 0).tapReset)) ∧
      (s.board.vinOk = false → exec .powerOnReset s = .next { r.1 with board := { s.board with
        pwrgood := true, pgWaiting := true, reference := r.2 } })) ∧
    (s.board.perst = false → s.board.rails = true → exec (.cold none) s =
      .next (({ s with board := { s.board with perst := true } } : State).coldReset 1)) ∧
    (∀ w : BarWrite, s.blockOpen .boot w.master = true → w.sized = true → w.offset / 8 * 8 = Reg.bootReset.addr →
      w.word.getLsbD 63 = true →
      (s.stage ≠ 0 → exec (.cold (some w)) s = .next (s.coldReset 1)) ∧
      (s.stage = 0 → exec (.cold (some w)) s = .next (s.satRf .bootStatus .resetRefused 1))) ∧
    (∀ (m : Master) (v : Word), s.blockOpen .boot m = true → v.getLsbD 62 = true → v.getLsbD 63 = false →
      (s.stage = 8 → s.rbit .glbClkStatus .lockLost = false → s.fatal = false → s.rf .bootStatus .health = 0 →
        exec (.keepMem m v) s = .next s.keepMemReset) ∧
      (s.stage ≠ 8 → exec (.keepMem m v) s = .next (s.satRf .bootStatus .resetRefused 1))) ∧
    (∃ t, t = s.keepMemReset ∧ t.stage = 2 ∧ t.rf .bootStatus .lastReset = 2 ∧ t.boot.keepMem = true ∧
      t.coh = .empty ∧ t.ctxs = [] ∧ t.clusters = [] ∧ t.queues = []) ∧
    (∀ kind, kind < 4 →
      let t := s.coldReset kind
      t.stage = 0 ∧ t.rf .bootStatus .lastReset = kind ∧ t.fuses = s.fuses ∧ t.board = s.board ∧ t.clusters = [] ∧
        t.ctxs = [] ∧ t.queues = [] ∧ t.boot.mode = true ∧ t.rf .glbD2dStatus .failed = s.fuses.failedLinks % 256) ∧
    (s.board.perst = true → exec .perstRelease s =
      .next ({ s with board := { s.board with perst := false } } : State).tapReset) ∧
    (s.board.pgWaiting = false →
      exec .vin48InRange s = .next { s with board := { s.board with vinOk := true } }) ∧
    (s.board.pgWaiting = true → s.board.pwrgood = true → s.board.vaux = true → s.board.tripped = false →
      exec .vin48InRange s = .next ((({ s with board := { s.board with
        vinOk := true, rails := true, pgWaiting := false } } : State).coldReset 0).tapReset)) ∧
    (s.ready = true → ∃ t, exec .functionLevelReset s = .next t ∧ t.rf .bootStatus .lastReset = 3 ∧
      t.queues = [] ∧ t.launches = [] ∧ (Table.find t.ctxs 0).isSome = true) ∧
    (s.fatal = true → exec .functionLevelReset s = .next { s with pcie := { s.pcie with funcMask := false } }) ∧
    (s.fatal = false → s.boot.keepMem = true → s.stage < 8 → exec .functionLevelReset s = .next s)

/-! ### Services of the Square -/

/-- With their block open to the writer: a route of a core below 72 is taken, another leaves the register; a beat
takes LIMIT_MS and COUNT; RUNTIME_STOP fails the context it names; a shadow or error ring register is taken while
its ring is empty, the trace ring while no record waits, else the write is refused and counted; a retirement request
of a logical cluster below 704 with a free fuse entry fails the cluster. The watchdog, a core parity error and a
stall of the runtime are recorded; the L1 evicts a line it holds, cleaned. -/
def Obligations.SquareServices : Prop :=
  ∀ (s : State) (m : Master) (v : Word),
    (s.blockOpen .glb m = true →
      (∀ i, i < 128 →
        (fld v 0 7 < 72 → exec (.routeWrite m i v) s =
          .next ((s.setRf (.glbSqirqRoute i) .enable (fld v 63 1)).setRf (.glbSqirqRoute i) .core (fld v 0 7))) ∧
        (72 ≤ fld v 0 7 → exec (.routeWrite m i v) s = .next s)) ∧
      (fld v 0 32 ≠ s.rf .glbRtHeartbeat .count → exec (.beat m v) s =
        .next ((s.setRf .glbRtHeartbeat .limitMs (fld v 32 16)).setRf .glbRtHeartbeat .count (fld v 0 32)))) ∧
    (s.blockOpen .flt m = true →
      (v.getLsbD 63 = true → 1 ≤ fld v 0 6 → s.ready = true → exec (.runtimeStop m v) s =
        .next (s.ctxFail (fld v 0 6) Code.runtimeStop { die := 4 } none)) ∧
      (s.rf .fltShadowPtr .producer = s.rf .fltShadowPtr .consumer → exec (.shadowRingWrite m v) s =
        .next ((s.setRf .fltShadowRing .base (fld v 8 56)).setRf .fltShadowRing .sizeLog2 (fld v 0 4))) ∧
      (s.rf .fltErrPtr .producer = s.rf .fltErrPtr .consumer → exec (.errorRingWrite m v) s =
        .next ((s.setRf .fltErrRing .base (fld v 8 56)).setRf .fltErrRing .sizeLog2 (fld v 0 4)))) ∧
    (s.blockOpen .obs m = true →
      (s.rf .obsTracePtr .producer = s.rf .obsTracePtr .consumer → s.obs.queues = [] → fld v 0 5 ≤ 20 →
        exec (.traceRingWrite m v) s = .next (((s.setRf .obsTraceRing .base (fld v 12 44)).setRf .obsTraceRing .sizeLog2
          (fld v 0 5)).setReg .obsTracePtr 0)) ∧
      ((s.rf .obsTracePtr .producer ≠ s.rf .obsTracePtr .consumer ∨ s.obs.queues ≠ []) →
        exec (.traceRingWrite m v) s = .next (s.satRf .obsTraceStat .ringRefused 1)) ∧
      (let s1 := (s.setRf .obsCtrCtl .enable (fld v 63 1)).setRf .obsCtrCtl .freeze (fld v 62 1)
       (v.getLsbD 61 = false → exec (.freeze m v) s = .next s1) ∧
       (v.getLsbD 61 = true → ∃ t, exec (.clearAll m v) s = .next t ∧ (∀ c n, c < 704 → n < 16 → t.reg (.clCtr c n) = 0) ∧
         (∀ n, n < 256 → t.reg (.obsPctr n) = 0) ∧ (∀ n, n < 256 → t.reg (.obsPsel n) = s1.reg (.obsPsel n))))) ∧
    (s.blockOpen .boot m = true → v.getLsbD 63 = true → v.getLsbD 62 = false → s.ready = true → fld v 0 10 < 704 →
      let s1 := s.setRf .bootRetire .logical (fld v 0 10)
      (∀ e, s1.freeEntry (fld v 0 10 / 176) = some e → exec (.retirementRequest m v) s =
        .next ((s1.setRf .bootRetire .refused 0).clusterFail (fld v 0 10) Code.hostRetire)) ∧
      (s1.freeEntry (fld v 0 10 / 176) = none → exec (.retirementRequest m v) s =
        .next ((s1.setRf .bootRetire .refused 1).setRf .bootStatus .health 2))) ∧
    (s.endpoint = true → 3 ≤ s.stage → exec .reeveWdt s = .next (s.packageFatal Code.reeveWdt 0)) ∧
    (s.ready = true →
      (s.rf .glbRtHeartbeat .limitMs ≠ 0 → exec .runtimeStall s = .next (s.errRecord { die := 4 } Code.runtimeStall 5 63).1) ∧
      (∀ core, core < 72 → exec (.coreParity core) s = .next (s.packageFatal Code.coreParity core)) ∧
      (∀ c ctx line l, s.clusterHalted c = false → (s.cluster c).l1Find ctx line = some l →
        let s1 := s.l1Clean c l
        exec (.l1Evict c ctx line false) s = .next s1 ∧
        exec (.l1Evict c ctx line true) s = .next (s1.setCluster c { s1.cluster c with
          l1 := (s1.cluster c).l1.filter fun x => !(x.ctx == ctx && x.line == line) })))

/-! ### Attestation -/

/-- With the endpoint running and an object of at most 65,536 bytes: a discovery object of vendor 0x0001 for index 0
to 2 answers vendor, type and next index; an object of another vendor or type gets the DOE error; an abort drops the
replies; from SERVICES on, in an object of type 1 or 2, SPDM GET_VERSION starts the negotiation and the requests of
R539 in their order are answered, certificates and measurements after it, KEY_EXCHANGE where no session is open,
FINISH and the messages of an open session that verify; before SERVICES, and in HALTED where the firmware never ran,
every SPDM request is answered Busy, and an unsupported request Unsupported. (The object layout and order checks are
the model's log 40.) -/
def Obligations.DoeAndSpdm : Prop :=
  ∀ (s : State) (r : List Byte), s.endpoint = true → r.length ≤ 65536 →
    let m := r.drop 8
    let version := (m.getD 0 0).toNat
    let p1 := (m.getD 2 0).toNat
    let p2 := (m.getD 3 0).toNat
    let said := fun (t : State) (x : DoeReply) =>
      (Host.Outcome.next { t with doe := { t.doe with replies := t.doe.replies ++ [x] } } : Host.Outcome State Fault Refusal)
    let took : State := { s with doe := { s.doe with transcript := s.doe.transcript ++ m } }
    let step := fun (n : Nat) (t : State) => ({ t with doe := { t.doe with negotiated := n } } : State)
    let phase := fun (t : State) (p : SessionPhase) => ({ t with doe := { t.doe with session := p } } : State)
    let signed : State × List Byte :=
      ({ took with free := s.free + 1 }, Config.aliasSign (Config.sha3_384 took.doe.transcript) s.free)
    let pciSig := leNat (r.take 2) = 1
    let type := (r.getD 2 0).toNat
    let busy := s.stage < 7 ∨ (s.stage = 9 ∧ (s.rf .bootStatus .error = 11 ∨ s.rf .bootStatus .error = 12))
    (pciSig → type = 0 → (m.getD 0 0).toNat ≤ 2 →
      exec (.doeDiscovery r) s = said s (.discovery 1 (m.getD 0 0).toNat (((m.getD 0 0).toNat + 1) % 3))) ∧
    ((2 < type ∨ ¬pciSig) → exec (.unsupportedDoeObject r) s = said s .doeError) ∧
    exec .doeAbort s = .next { s with doe := { s.doe with replies := [] } } ∧
    (busy → exec (.unsupportedSpdmRequest r) s = said s .busy) ∧
    (¬busy → exec (.unsupportedSpdmRequest r) s = said s .unsupported) ∧
    (pciSig → (type = 1 ∨ type = 2) → busy → exec (.getVersion r) s = said s .busy) ∧
    (pciSig → (type = 1 ∨ type = 2) → ¬busy →
      (version = 0x10 → exec (.getVersion r) s =
        said (step 1 { s with doe := { s.doe with transcript := m } }) .version) ∧
      (version = 0x14 →
        (1 ≤ s.doe.negotiated → exec (.getCapabilities r) s = said (step 2 took) .capabilities) ∧
        (2 ≤ s.doe.negotiated → Config.offersAlgorithms m = true →
          exec (.negotiateAlgorithms r) s = said (step 3 took) .algorithms) ∧
        (3 ≤ s.doe.negotiated →
          exec (.getDigests r) s = said took (.digests (Config.sha3_384 s.certChain)) ∧
          (p1 % 16 = 0 →
            let rest := s.certChain.drop (leNat ((m.drop 4).take 2))
            let n := leNat ((m.drop 6).take 2)
            exec (.getCertificate r) s = said took (.certificate (rest.take n) (rest.length - n))) ∧
          (p1 = 0 → exec (.challenge r) s = said signed.1 (.challengeAuth (Config.sha3_384 s.certChain)
            (if p2 = 0 then [] else Config.sha3_384 ((List.range 6).flatMap fun i => s.measurement (i + 1))) signed.2)) ∧
          (p2 ≤ 6 ∨ p2 = 255 →
            let blocks := if p2 = 0 then [] else
              (if p2 = 255 then [1, 2, 3, 4, 5, 6] else [p2]).map fun k => (k, s.measurement k)
            (p1 % 2 = 0 → exec (.getMeasurements r) s = said took (.measurements 6 blocks [])) ∧
            (p1 % 2 = 1 → exec (.getMeasurements r) s = said signed.1 (.measurements 6 blocks signed.2))) ∧
          (s.doe.session = .none → exec (.keyExchange r) s =
            said (phase signed.1 .exchanging) (.keyExchangeRsp (Config.kemEncap m s.free) signed.2)) ∧
          (s.doe.session = .exchanging → Config.sessionAuth m s.free = true → exec (.finish r) s =
            said (phase { took with free := s.free + 1 } .opened) .finishRsp)) ∧
        (s.doe.session = .opened → Config.sessionAuth m s.free = true →
          exec (.heartbeat r) s = said { s with free := s.free + 1 } .heartbeatAck ∧
          exec (.endSession r) s = said (phase { s with free := s.free + 1 } .none) .endSessionAck)))

/-! ### The pod transport -/

/-- A frame addressed to a taking-part node on an up port is counted; one that R460 discards is counted in
RX_DISCARD and does nothing else. A frame without a binding is refused and sets RX_REFUSED; a duplicate is
acknowledged again; one beyond 4,096 is dropped. A fresh DATA frame whose bytes are performed is marked received,
and on a translation fault it is held with HOLD, on a refusal by the frame's owner or poison it is refused and its
context fails. A READ is answered by one DATA frame. A BELL applies its increment and is marked. A SEGMENT_RUN of
the collective that waits for it is taken, a CREDIT kept. ACK moves the sender's state, HOLD stops the frame's
timer, REFUSE fails the issuing context. -/
def Obligations.PodArrivals : Prop :=
  (∀ (s : State) (f : Frame), s.ready = true → s.rbit .podNode .valid = true → s.portUp f.port = true →
    s.addressed f = true → s.discards f = true →
    let t := (s.wrapRf (.podPortFrames f.port) .rx 1).satRf .podXstat .rxDiscard 1
    ∀ c, c ∈ [Instr.data f, .read f, .bell f, .ack f, .hold f, .refuse f, .segmentRun f, .credit f, .ready f,
      .musterAck f, .go f, .abort f, .pulse (some f)] → exec c s = .next t) ∧
  (∀ (s t : State) (f : Frame), s.reaches f t →
    ∀ c, (c = Instr.read f ∧ f.type = tRead) ∨ (c = .bell f ∧ f.type = tBell) ∨
        (c = .data f ∧ f.type = tData ∧ bit f.va 63 = false) →
        (t.jobCtx f.job = none → exec c s = .next ((t.refuse f).setRf .podEvent .rxRefused 1)) ∧
        (∀ n, t.jobCtx f.job = some n →
          ((t.peer f.src).above f.psn = 0 ∨ 2 ^ 31 ≤ (t.peer f.src).above f.psn ∨ f.psn ∈ (t.peer f.src).rxGot →
            exec c s = .next (t.sendAck f.src)) ∧
          (4096 < (t.peer f.src).above f.psn → (t.peer f.src).above f.psn < 2 ^ 31 → f.psn ∉ (t.peer f.src).rxGot →
            exec c s = .next t))) ∧
  (∀ (s t : State) (f : Frame) (n : Nat), s.reaches f t → t.fresh f n →
    (f.type = tData → bit f.va 63 = false → t.getRun f n = none → ∀ u x,
      t.unitWrite n f.va (takePad 0 f.len f.payload) = (u, x) →
      exec (.data f) s = .next (match x with
        | .ok => u.markRx f.src f.psn
        | .fault c e va => u.holdFrame f n c e va needWrite
        | .refused l => (u.refuse f).ctxFail n Code.frameOwner
            { die := 4, agent := 3, unit := 4 + f.port, addr := 128 * l, addrKind := 2 } none
        | .poison va => (u.refuse f).countConsumed.ctxFail n Code.poison
            { die := 4, agent := 3, unit := 4 + f.port, addr := va, addrKind := 1 } none)) ∧
    (f.type = tRead → ∀ u bs, t.unitRead n f.va f.len = (u, .ok, bs) →
      exec (.read f) s = .next (u.podSend f.src ⟨tData, f.job, f.msg, f.aux, 0, f.len, n, .answer f.psn, bs⟩)) ∧
    (f.type = tRead → ∀ u bs c e va, t.unitRead n f.va f.len = (u, .fault c e va, bs) →
      exec (.read f) s = .next (u.holdFrame f n c e va needRead)) ∧
    (f.type = tBell → exec (.bell f) s = .next ((if bit f.aux 15 then
      t.bellRemote (bits f.aux 0 14) (BitVec.ofNat 64 (bits f.aux 32 32)) else t).markRx f.src f.psn)) ∧
    (f.type = tData → f.va / 2 ^ 60 = 8 → ∀ c m i off v, t.coll n f.engine = some c → c.cseq = f.cseq →
      f.aux % 2 ^ 56 = c.aux 0 → t.memberOf c f.src = some m → c.segOf f.off = some (i, off) →
      c.val f.phase i m = some v → c.stall = none → exec (.segmentRun f) s = .next (t.takeRun f c v i off)) ∧
    (f.type = tData → f.va / 2 ^ 60 = 9 → t.coll n f.engine = none →
      ∃ r : Nat, exec (.credit f) s = .next (({ t with pod := { t.pod with
        credits := t.pod.credits ++ [⟨n, f.engine, f.cseq, f.phase, f.off, r⟩] } } : State).markRx f.src f.psn))) ∧
  (∀ (s : State) (f : Frame) (p : Peer), s.ready = true → s.rbit .podNode .valid = true → s.portUp f.port = true →
    s.addressed f = true → s.discards f = false →
    let t := s.wrapRf (.podPortFrames f.port) .rx 1
    (t.jobCtx f.job = none →
      ∀ c, (c = Instr.ack f ∧ f.type = tAck) ∨ (c = .hold f ∧ f.type = tHold) ∨ (c = .refuse f ∧ f.type = tRefuse) →
        exec c s = .next ((t.refuse f).setRf .podEvent .rxRefused 1)) ∧
    ((t.jobCtx f.job).isSome = true → Table.find t.pod.peers f.src = some p →
    (f.type = tAck → exec (.ack f) s = .next ((t.takeAck f).collRunAll.goDone)) ∧
    (f.type = tHold → exec (.hold f) s = .next (t.setPeer f.src { p with pool := p.pool.map fun x =>
      if x.psn = f.psn then { x with held := true } else x })) ∧
    (f.type = tRefuse → ∀ x, p.pool.find? (fun y => y.psn == f.psn) = some x → x.body.owner ≠ .muster mGo →
      exec (.refuse f) s = .next (t.ctxFail x.body.ctx Code.peerRefused
        { die := 4, agent := 3, unit := 4 + f.port } none))))

/-- On a package that runs: ACK_TIMER sends a due ACK; RTO_RESEND of a pool frame not held and resent under 16 times
drops cwnd to 16, takes the port out of the mask, counts a timeout and resends; PORT_MASK_RESTORE puts the port
back; PEER_LOST of a peer that may be lost, with no GO open to it, discards its state, sets PEER_LOST and LAST_PEER,
and fails its contexts; PORT_DOWN counts and resends the port's frames, PORT_UP sets UP and lets waiting frames go;
BINDING_WRITE takes a binding over an invalid one, refuses a job already bound, and only clears a valid one;
TIME_SET arms, the next PPS edge sets the counter without decreasing it, later edges measure an offset that is shown
and steers. ANNOUNCE chooses one source or the node as grandmaster; SYNC, FOLLOW_UP, the request and its response
with the source end in such a measurement. RTO_RESEND with no port up counts nothing. -/
def Obligations.PodSenders : Prop :=
  (∀ (s : State) (n : Nat) (p : Peer), s.ready = true → Table.find s.pod.peers n = some p →
    (p.ackDue = true → exec (.ackTimer n) s = .next (s.sendAck n)) ∧
    (∀ psn x, p.pool.find? (fun y => y.psn == psn) = some x → x.held = false → x.resends < 16 →
      (s.upPorts = [] → exec (.rtoResend n psn) s = .next (s.resend n psn)) ∧
      (s.upPorts ≠ [] → exec (.rtoResend n psn) s = .next (((s.setPeer n { p with
        cwnd := 16, mask := p.mask.filter fun q => !x.port.toList.contains q,
        removed := p.removed ++ x.port.toList }).satRf .podXstat .timeouts 1).resend n psn))) ∧
    (∀ port, port ∈ p.removed → exec (.portMaskRestore n port) s = .next ((s.setPeer n { p with
      removed := p.removed.filter fun q => q != port, mask := setInsert p.mask port }).flushPeer n)) ∧
    ((∃ x ∈ p.pool, x.held = false ∨ 16 ≤ x.resends) → s.pod.musters = [] →
      let s1 : State := { s with pod := { s.pod with
        peers := Table.erase s.pod.peers n, bells := s.pod.bells.filter fun b => b.peer != n,
        held := s.pod.held.filter fun h => h.peer != n } }
      exec (.peerLost n) s = .next ((s.peerCtxs n).foldl (fun t c => t.ctxFail c Code.peerLost
        { die := 4, agent := 3, unit := 4 + p.port } none)
        ((s1.setRf .podEvent .peerLost 1).setRf .podEvent .lastPeer n)))) ∧
  (∀ (s : State), s.ready = true →
    (∀ port, s.portUp port = true →
      let s1 := ((s.setRf (.podPortStatus port) .up 0).satRf (.podPortStatus port) .downCount 1).setRf .podEvent
        .portChange 1
      exec (.portDown port) s = .next (s1.pod.peers.foldl (fun t e => e.2.pool.foldl (fun t x =>
        if x.port = some port then t.resend e.1 x.psn else t) t) s1)) ∧
    (∀ port, port < 6 → s.portUp port = false →
      let s1 := (s.setRf (.podPortStatus port) .up 1).setRf .podEvent .portChange 1
      exec (.portUp port) s = .next (s1.pod.peers.foldl (fun t e => e.2.pool.foldl (fun t x =>
        if x.port.isNone then t.resend e.1 x.psn else t) t) s1).flushAll) ∧
    (∀ m n v, n < 63 → s.bound n = false → v.getLsbD 63 = true →
      (s.jobCtx (v.toNat % 2 ^ 32) = none →
        exec (.bindingWrite m n v) s = .next (s.setReg (.podCtxJob n) (v &&& 0x8001FFFFFFFFFFFF))) ∧
      ((s.jobCtx (v.toNat % 2 ^ 32)).isSome = true →
        exec (.bindingWrite m n v) s = .next (s.setRf .podEvent .rxRefused 1))) ∧
    (∀ m n v, n < 63 → s.bound n = true →
      (v.getLsbD 63 = true → exec (.bindingWrite m n v) s = .next s) ∧
      (v.getLsbD 63 = false →
        exec (.bindingWrite m n v) s = .next (s.setReg (.podCtxJob n) (v &&& 0x8001FFFFFFFFFFFF)))) ∧
    (∀ m v, exec (.timeSet m v) s = .next { s with pod := { s.pod with timeSet := some v.toNat } }) ∧
    (s.rbit .podTimeCtl .ppsEn = true →
      (∀ sec, s.pod.timeSet = some sec →
        let t := sec * 1000000000 % 2 ^ 64
        exec .ppsEdge s = .next { s with
          time := max s.time t, pod := { s.pod with timeSet := none, timeHold := s.time - t } }) ∧
      (s.pod.timeSet = none →
        let r : Int := (s.time % 1000000000 : Nat)
        let off := if r < 500000000 then -r else 1000000000 - r
        exec .ppsEdge s = .next ((s.measured off).steer off))) ∧
    (∀ port domain, s.portUp port = true → domain = s.rf .podTimeCtl .ptpDomain →
      (∀ n, Config.bmcaChoice s.free = n → s.portUp n = true → n < 6 →
        exec (.ptpMessage (.announce port domain)) s = .next { s with free := s.free + 1, pod := { s.pod with
          source := some n, grandmaster := false } }) ∧
      (5 < Config.bmcaChoice s.free → s.rbit .podTimeCtl .ppsEn = true → s.rbit .podTimeCtl .gmEn = true →
        exec (.ptpMessage (.announce port domain)) s = .next { s with free := s.free + 1, pod := { s.pod with
          source := none, grandmaster := true } }) ∧
      (s.pod.source = some port →
        (∀ seq two origin, exec (.ptpMessage (.sync port domain seq two origin)) s = .next { s with pod := { s.pod with
          exchange := some ⟨port, seq, if two = true then none else some origin, s.time, none⟩ } }) ∧
        (∀ e origin, s.pod.exchange = some e → e.port = port → e.t1 = none →
          exec (.ptpMessage (.followUp port domain e.seq origin)) s = .next { s with pod := { s.pod with
            exchange := some { e with t1 := some origin } } }) ∧
        (∀ e o, s.pod.exchange = some e → e.port = port → e.t1 = some o →
          exec (.ptpMessage (.sendDelayReq port)) s = .next { s with
            pod := { s.pod with ptpSeq := (s.pod.ptpSeq + 1) % 65536,
                                exchange := some { e with t3 := some (s.pod.ptpSeq, s.time) } }
            outbox := s.outbox ++ [.ptp port .delayReq (s.rf .podTimeCtl .ptpDomain) s.pod.ptpSeq 0
              (s.rf .podTimeCtl .priority1)] }) ∧
        (∀ e (t1 t3 n r : Nat), s.pod.exchange = some e → e.port = port → e.t1 = some t1 → e.t3 = some (n, t3) →
          let off : Int := (((t1 : Int) - e.t2) + ((r : Int) - t3)) / 2
          exec (.ptpMessage (.delayResp port domain n r)) s =
            .next ((({ s with pod := { s.pod with exchange := none } } : State).measured off).steer off))) ∧
      (s.pod.grandmaster = true → ∀ seq, exec (.ptpMessage (.delayReq port domain seq)) s = .next { s with
        outbox := s.outbox ++ [.ptp port .delayResp (s.rf .podTimeCtl .ptpDomain) seq s.time
          (s.rf .podTimeCtl .priority1)] })) ∧
    (∀ off : Int, 1000000 < off → s.steer off =
      { s with time := (s.time + off.toNat) % 2 ^ 64, pod := { s.pod with timeHold := 0 } }) ∧
    (∀ off : Int, off < -1000000 → s.steer off = { s with pod := { s.pod with timeHold := (-off).toNat } }) ∧
    (∀ off : Int, off.natAbs ≤ 1000000 → ∃ r : Int, r.natAbs ≤ 500 ∧ ∃ k,
      s.steer off = { s with free := k, pod := { s.pod with
        timeHold := if s.pod.timeHold = 0 then 0 else (-off).toNat, rate := r } }))

/-- A fresh muster message to a failed context, and a PULSE, is marked received and nothing more. READY at a node
that has not got one is kept with its epoch and digest, and a node whose MUSTER has started holds it, forwards it
and answers when its children have. An ACK counts its child's ranks: a parent answers when every child has, rank 0
sends GO to every other rank when all have answered OK and the package itself does not refuse musters, and aborts
otherwise. GO of the held epoch completes the MUSTER command with its epoch and shows outcome 1; any other GO is
refused. ABORT of the epoch fails the context, with JOB_ABORTED after GO when its reason is a failed job. Without
every answer within the limit rank 0 aborts; READY held too long fails the context with MUSTER_TIMEOUT. A due PULSE
goes to each tree neighbour. -/
def Obligations.MusterMessages : Prop :=
  (∀ (s t : State) (f : Frame) (n : Nat), s.reaches f t → t.fresh f n → f.type = tData → f.va / 2 ^ 60 = 10 →
    (t.ctxFailed n = true → ∀ c, c ∈ [(Instr.ready f, mReady), (.musterAck f, mAck), (.go f, mGo), (.abort f, mAbort)] →
      f.mtype = c.2 → exec c.1 s = .next (t.markRx f.src f.psn)) ∧
    (f.mtype = mPulse → exec (.pulse (some f)) s = .next (t.markRx f.src f.psn)) ∧
    (t.ctxFailed n = false →
      let u := t.markRx f.src f.psn
      let m := u.muster n
      (f.mtype = mReady → (u.rankOf n).1 ≠ 0 → m.ready = none →
        (m.stage = .unmustered →
          exec (.ready f) s = .next (u.setMuster n { m with ready := some (f.epoch, f.digest) })) ∧
        (m.stage = .started → exec (.ready f) s =
          .next ((u.setMuster n { m with ready := some (f.epoch, f.digest) }).holdReady n))) ∧
      (f.mtype = mAck → ∀ k, (children (u.rankOf n).1 (u.rankOf n).2).find? (fun k => u.rankNode n k == f.src) = some k →
        ((u.rankOf n).1 = 0 → m.ready = none → m.stage = .started → f.epoch = m.epoch →
          (f.reason ≠ reasonOk → exec (.musterAck f) s = .next (u.musterAbort n f.reason f.rank)) ∧
          (f.reason = reasonOk →
            let a := Table.insert m.acks k f.acked
            ((∃ j ∈ children 0 (u.rankOf n).2, Table.find a j = none) →
              exec (.musterAck f) s = .next (u.setMuster n { m with acks := a })) ∧
            ((∀ j ∈ children 0 (u.rankOf n).2, ∃ q, Table.find a j = some q) →
              a.foldl (fun x e => x + e.2) 0 = (u.rankOf n).2 - 1 →
              (u.musterRefused = true → exec (.musterAck f) s = .next (u.musterAbort n reasonRefused 0)) ∧
              (u.musterRefused = false → exec (.musterAck f) s = .next ((u.otherRanks n).foldl
                (fun w q => w.musterSend n q mGo reasonOk m.epoch 0 0 [])
                (u.setMuster n { m with acks := a, stage := .go })))))) ∧
        ((u.rankOf n).1 ≠ 0 → m.stage = .held → m.answered = false → ∀ d, m.ready = some (f.epoch, d) →
          (f.reason ≠ reasonOk → exec (.musterAck f) s = .next (u.answer n f.reason f.rank 0)) ∧
          (f.reason = reasonOk → exec (.musterAck f) s =
            .next ((u.setMuster n { m with acks := Table.insert m.acks k f.acked }).answerOk n)))) ∧
      (f.mtype = mGo →
        ((t.muster n).stage = .held → (∃ d, (t.muster n).ready = some (f.epoch, d)) →
          exec (.go f) s = .next ((u.musterEnd n).musterStat n 1 reasonOk f.rank)) ∧
        ((t.muster n).stage ≠ .held → exec (.go f) s = .next (t.refuse f))) ∧
      (f.mtype = mAbort → (m.stage = .unmustered ∨ m.epoch = f.epoch) →
        exec (.abort f) s = .next ((u.musterStat n 3 f.reason f.rank).ctxFail n
          (if (m.stage = .running ∨ m.stage = .go) ∧ f.reason = reasonJobFailed then Code.jobAborted
           else Code.musterAbort) musterInfo none)))) ∧
  (∀ (s : State) (n : Nat), s.ready = true → s.ctxFailed n = false →
    ((s.rankOf n).1 = 0 → (s.muster n).stage = .started →
      exec (.timeout n) s = .next (s.musterAbort n reasonTimeout 0)) ∧
    ((s.muster n).stage = .held → ∃ reason rank k, exec (.readyHoldExpiry n) s =
      .next ((({ s with free := k } : State).musterStat n 4 reason rank).ctxFail n Code.musterTimeout musterInfo none)) ∧
    (∀ m, s.pod.musters = [(n, m)] → m.stage = .running → s.musters n = true → (Table.find s.ctxs n).isSome = true →
      exec (.pulse none) s = .next ((neighbours (s.rankOf n).1 (s.rankOf n).2).foldl
        (fun t k => t.musterSend n k mPulse reasonOk m.epoch (s.rankOf n).1 0 []) s))) ∧
  (∀ (rank ranks k : Nat), k ∈ children rank ranks ↔ k < ranks ∧ 0 < k ∧ parent k = rank)

/-! ### Observation, the sideband and the test port -/

/-- The collector takes the oldest record of the source whose turn it is into the ring slot at PRODUCER, or, in the
mode that discards, drops it at a full ring; under STALL it waits. On a package with VAUX: a sideband read sends the
register's four bytes, or zeros where none is listed; a write of SB_TRIP clears the bits that it writes as 1, a
write of bad parity only notes a protocol error, other writes do nothing; ENTDAA and SETDASA give an address where
there is none, RSTDAA takes it away, GETSTATUS shows and clears the protocol error. Held in reset, IDCODE shifts the
die's code out with bit 0 first, SAMPLE/PRELOAD shifts the balls out and loads the boundary register, EXTEST drives
it; otherwise both shift the bypass path, five bits long, as BYPASS always does. -/
def Obligations.TraceSidebandAndTest : Prop :=
  (∀ (s : State) (src : TraceSrc) (r : BitVec 256) (rest : List (BitVec 256)),
    let f := traceFrom src
    s.ready = true → s.traceNext = some f.key → s.traceQueue f.key = r :: rest →
    let s0 := s.setTraceQueue f.key rest
    let s1 : State := { s0 with obs := { s0.obs with last := f.key } }
    (s.traceSize ≤ s.traceUsed → s.rbit .obsTraceCtl .mode = true → exec (.traceAdmit src) s = .next s) ∧
    (s.traceSize ≤ s.traceUsed → s.rbit .obsTraceCtl .mode = false →
      exec (.traceAdmit src) s = .next ((s1.traceDrop f.key (recordCtx r)).traceLost f (bits r.toNat 28 8))) ∧
    (s.traceUsed < s.traceSize →
      ∀ u, s1.squareWrite 0 (s.rf .obsTraceRing .base * 4096 + 32 * (s.rf .obsTracePtr .producer % s.traceSize))
        (leBytes 32 r.toNat) = some u →
      exec (.traceAdmit src) s = .next ((u.traceStored r).traceLost f (bits r.toNat 28 8)))) ∧
  (∀ (s : State), s.board.vaux = true →
    (∀ off b, (sbReg off = none → exec (.sbTransfer off none b) s = .next { s with outbox := s.outbox ++
        [.sideband [0, 0, 0, 0]] }) ∧
      (∀ r, sbReg off = some r → exec (.sbTransfer off none b) s = .next { s with outbox := s.outbox ++
        [.sideband (leBytes 4 (s.readReg r).toNat)] })) ∧
    (∀ off v, exec (.sbTransfer off (some v) false) s =
        .next { s with sideband := { s.sideband with protoError := true } } ∧
      (off ≠ 8 → exec (.sbTransfer off (some v) true) s = .next s)) ∧
    (∀ v, exec (.sbTransfer 8 (some v) true) s = .next (s.setReg .sbTrip (s.reg .sbTrip &&& ~~~(v &&& 0x1DF))) ∧
      exec (.tripClear v) s = .next (s.setReg .sbTrip (s.reg .sbTrip &&& ~~~(v &&& 0x1DF)))) ∧
    (∀ a, (s.sideband.dynamic = none →
        exec (.entdaa a) s = .next { s with sideband := { s.sideband with dynamic := some a } } ∧
        exec (.setdasa a) s = .next { s with sideband := { s.sideband with dynamic := some a } }) ∧
      (s.sideband.dynamic ≠ none → exec (.entdaa a) s = .next s ∧ exec (.setdasa a) s = .next s)) ∧
    exec .rstdaa s = .next { s with sideband := { s.sideband with dynamic := none } } ∧
    exec .getstatus s = .next { s with
      sideband := { s.sideband with protoError := false },
      outbox := s.outbox ++ [.sideband [0, if s.sideband.protoError then 0x20 else 0]] } ∧
    (s.testable = true → ∀ pins bs, pins.length = bs.length →
      exec (.samplePreload pins bs) s = .next { s with
        tap := { s.tap with boundary := bs, driving := false }, outbox := s.outbox ++ [.tdo pins] } ∧
      exec (.extest bs) s = .next { s with tap := { s.tap with boundary := bs, driving := true } } ∧
      ∀ tap, tap < 5 → exec (.idcode tap) s = .next { s with
        tap := { s.tap with driving := false },
        outbox := s.outbox ++ [.tdo ((List.range 32).map fun i => (Config.stepping ++
          (if tap = 4 then 0x2040#16 else 0x2041#16) ++ 0x3B1#11 ++ 1#1).getLsbD i)] }) ∧
    (s.tap.bypass.length = 5 → ∀ bs,
      let path := s.tap.bypass ++ bs
      let t (d : Bool) : State := { s with
        tap := { s.tap with bypass := path.drop bs.length, driving := d },
        outbox := s.outbox ++ [.tdo (path.take bs.length)] }
      (s.testable = true → exec (.bypass bs) s = .next (t false)) ∧
      (s.testable = false → exec (.bypass bs) s = .next (t s.tap.driving) ∧
        exec (.extest bs) s = .next (t s.tap.driving) ∧
        ∀ pins, exec (.samplePreload pins bs) s = .next (t s.tap.driving))))

/-! ### Placement in the stacks -/

/-- For LOCAL_K from 0 to 48: below four times 5 x LOCAL_K GiB an address lies in a stack of its die, the granules
of 512 bytes taking turns over the die's five stacks; above, they take turns over all 20, after each stack's local
part. Every stack is below 20 and every stack address below 48 GiB; distinct physical addresses lie in distinct
places, and every place is some physical address's. The four lines of a granule share one stack and one home agent.
-/
def Obligations.Placement : Prop :=
  ∀ k : Nat, k ≤ 48 →
    (∀ p, p < 960 * 2 ^ 30 →
      let l := 5 * k * 2 ^ 30
      (p < 4 * l →
        let o := p - p / l * l
        stackPlace k p = (5 * (p / l) + o / 512 % 5, o / 512 / 5 * 512 + o % 512)) ∧
      (4 * l ≤ p →
        let o := p - 4 * l
        stackPlace k p = (o / 512 % 20, k * 2 ^ 30 + o / 512 / 20 * 512 + o % 512)) ∧
      (stackPlace k p).1 < 20 ∧ (stackPlace k p).2 < 48 * 2 ^ 30) ∧
    (∀ p q, p < 960 * 2 ^ 30 → q < 960 * 2 ^ 30 → stackPlace k p = stackPlace k q → p = q) ∧
    (∀ n a, n < 20 → a < 48 * 2 ^ 30 → ∃ p, p < 960 * 2 ^ 30 ∧ stackPlace k p = (n, a)) ∧
    (∀ p q, p / 512 = q / 512 → (stackPlace k p).1 = (stackPlace k q).1) ∧
    (∀ (s : State) (line other : Nat), line / 4 = other / 4 → s.homeOf line = s.homeOf other)

/-! ### The step and reset -/

/-- With command c at the front of the queue, a step is exec of c on the state whose queue is the rest. With an
empty queue a step answers the state one ac later, with the queue still empty (the model's choice, log 1). -/
def Obligations.StepRunsFront : Prop :=
  (∀ (c : Instr) (rest : List Instr) (s : State),
    step { s with pending := c :: rest } = exec c { s with pending := rest }) ∧
  (∀ s : State, s.pending = [] → step s = .next s.tick ∧ s.tick.acCount = s.acCount + 1 ∧ s.tick.pending = [])

/-- At reset: STAGE is ROM with HEALTH and ERROR 0, no fault is latched, every bell is 0 and every frame is owned by
context 0, every range cache is invalid, the time counter is 0, PWR_CAP_WATTS, PWR_WINDOW and POD_CFG hold their
reset values, every register holds the reset value of its table (0 for one that boot or the supply sets, the model's
choice, log 3), no queue, context, party or engine holds anything, and no command waits. Memory lists nothing, in
canonical form, and every byte reads 0 (the model's choice for the time before the zero fill of MEMORY, log 14). -/
def Obligations.ResetState : Prop :=
  let s := State.reset
  s.pending = [] ∧ s.stage = 0 ∧ s.rf .bootStatus .health = 0 ∧ s.rf .bootStatus .error = 0 ∧ s.fatal = false ∧
    (∀ b, s.reg (.bellVal b) = 0 ∧ s.reg (.bellOwner b) = 0) ∧ (∀ f, s.frameOwner f = 0) ∧ s.time = 0 ∧
    s.xlt.square.entries = [] ∧ s.xlt.square.ptr = 0 ∧ s.coh.agents = [] ∧ s.coh.dir = [] ∧ s.hbm.side = [] ∧ s.cores = [] ∧
    s.rf .pwrCapWatts .cap = 4800 ∧ s.rf .pwrWindow .windowMs = 4000 ∧ s.queues = [] ∧ s.ctxs = [] ∧ s.clusters = [] ∧ s.launches = [] ∧
    s.pod.peers = [] ∧ s.pod.musters = [] ∧ s.outbox = [] ∧
    (∀ r : Reg, s.reg r = BitVec.ofNat 64 r.reset) ∧
    Mem.wf s.mem = true ∧ (∀ a, s.mem.read a = 0)

/-! ### Words of the cluster instructions -/

/-- For every command and every 64-bit word: the word decodes, for a rope, to exactly the commands whose word it is,
with every operand field at every value the formats of Tables 6.1 to 6.5 admit, reserved fields included; so a word
of an opcode that Table 6.8 assigns encodes back to itself, and one of a reserved opcode names no command. -/
def Obligations.RopeEncoding : Prop :=
  (∀ (c : Instr) (i : Issue) (w : Word), decodeRope i w = some c ↔ encodeRope c = some (i, w)) ∧
  (∀ (i : Issue) (w : Word), decodeRope i w = none ↔ ∀ c, encodeRope c ≠ some (i, w))

/-! ### Invariant -/

/-- In every state whose device memory lists its bytes by strictly rising physical address with no byte of value 0,
whatever the rest of the state holds: if a step (of any command at the front of the queue, or of the empty queue)
answers a next state, its memory is in that form again, so that two memories with the same contents are the same
data. The form, and 0 as what an unlisted byte reads, are the model's choice (log 14). -/
def Obligations.MemoryStaysCanonical : Prop :=
  ∀ s t : State, Mem.wf s.mem = true → step s = .next t → Mem.wf t.mem = true

end
end

