-- ==== Sys2Proof/Laws/Exec.lean ====
section
/-! SUPPORT. What the dispatch of each command calls: one lemma for each constructor of `Instr`. -/

namespace Sys2Proof.Machine

@[simp] theorem exec_uadd (i : Issue) (f : VFmt) (s : State) :
    exec (.uadd i f) s = execUadd i f s := rfl
@[simp] theorem exec_usub (i : Issue) (f : VFmt) (s : State) :
    exec (.usub i f) s = execUsub i f s := rfl
@[simp] theorem exec_umul (i : Issue) (f : VFmt) (s : State) :
    exec (.umul i f) s = execUmul i f s := rfl
@[simp] theorem exec_umulhu (i : Issue) (f : VFmt) (s : State) :
    exec (.umulhu i f) s = execUmulhu i f s := rfl
@[simp] theorem exec_uand (i : Issue) (f : VFmt) (s : State) :
    exec (.uand i f) s = execUand i f s := rfl
@[simp] theorem exec_uor (i : Issue) (f : VFmt) (s : State) :
    exec (.uor i f) s = execUor i f s := rfl
@[simp] theorem exec_uxor (i : Issue) (f : VFmt) (s : State) :
    exec (.uxor i f) s = execUxor i f s := rfl
@[simp] theorem exec_ushl (i : Issue) (f : VFmt) (s : State) :
    exec (.ushl i f) s = execUshl i f s := rfl
@[simp] theorem exec_ushr (i : Issue) (f : VFmt) (s : State) :
    exec (.ushr i f) s = execUshr i f s := rfl
@[simp] theorem exec_usar (i : Issue) (f : VFmt) (s : State) :
    exec (.usar i f) s = execUsar i f s := rfl
@[simp] theorem exec_umin (i : Issue) (f : VFmt) (s : State) :
    exec (.umin i f) s = execUmin i f s := rfl
@[simp] theorem exec_umax (i : Issue) (f : VFmt) (s : State) :
    exec (.umax i f) s = execUmax i f s := rfl
@[simp] theorem exec_ucmp (i : Issue) (f : VFmt) (s : State) :
    exec (.ucmp i f) s = execUcmp i f s := rfl
@[simp] theorem exec_utov (i : Issue) (f : VFmt) (s : State) :
    exec (.utov i f) s = execUtov i f s := rfl
@[simp] theorem exec_vtou (i : Issue) (f : VFmt) (s : State) :
    exec (.vtou i f) s = execVtou i f s := rfl
@[simp] theorem exec_ptou (i : Issue) (f : VFmt) (s : State) :
    exec (.ptou i f) s = execPtou i f s := rfl
@[simp] theorem exec_utop (i : Issue) (f : VFmt) (s : State) :
    exec (.utop i f) s = execUtop i f s := rfl
@[simp] theorem exec_sread (i : Issue) (f : VFmt) (s : State) :
    exec (.sread i f) s = execSread i f s := rfl
@[simp] theorem exec_vlaneid (i : Issue) (f : VFmt) (s : State) :
    exec (.vlaneid i f) s = execVlaneid i f s := rfl
@[simp] theorem exec_pand (i : Issue) (f : VFmt) (s : State) :
    exec (.pand i f) s = execPand i f s := rfl
@[simp] theorem exec_por (i : Issue) (f : VFmt) (s : State) :
    exec (.por i f) s = execPor i f s := rfl
@[simp] theorem exec_pxor (i : Issue) (f : VFmt) (s : State) :
    exec (.pxor i f) s = execPxor i f s := rfl
@[simp] theorem exec_pandn (i : Issue) (f : VFmt) (s : State) :
    exec (.pandn i f) s = execPandn i f s := rfl
@[simp] theorem exec_umovi (i : Issue) (f : IFmt) (s : State) :
    exec (.umovi i f) s = execUmovi i f s := rfl
@[simp] theorem exec_umovhi (i : Issue) (f : IFmt) (s : State) :
    exec (.umovhi i f) s = execUmovhi i f s := rfl
@[simp] theorem exec_uaddi (i : Issue) (f : IFmt) (s : State) :
    exec (.uaddi i f) s = execUaddi i f s := rfl
@[simp] theorem exec_uandi (i : Issue) (f : IFmt) (s : State) :
    exec (.uandi i f) s = execUandi i f s := rfl
@[simp] theorem exec_uori (i : Issue) (f : IFmt) (s : State) :
    exec (.uori i f) s = execUori i f s := rfl
@[simp] theorem exec_ushli (i : Issue) (f : IFmt) (s : State) :
    exec (.ushli i f) s = execUshli i f s := rfl
@[simp] theorem exec_ushri (i : Issue) (f : IFmt) (s : State) :
    exec (.ushri i f) s = execUshri i f s := rfl
@[simp] theorem exec_vadd (i : Issue) (f : VFmt) (s : State) :
    exec (.vadd i f) s = execVadd i f s := rfl
@[simp] theorem exec_vsub (i : Issue) (f : VFmt) (s : State) :
    exec (.vsub i f) s = execVsub i f s := rfl
@[simp] theorem exec_vmul (i : Issue) (f : VFmt) (s : State) :
    exec (.vmul i f) s = execVmul i f s := rfl
@[simp] theorem exec_vmulh (i : Issue) (f : VFmt) (s : State) :
    exec (.vmulh i f) s = execVmulh i f s := rfl
@[simp] theorem exec_vand (i : Issue) (f : VFmt) (s : State) :
    exec (.vand i f) s = execVand i f s := rfl
@[simp] theorem exec_vor (i : Issue) (f : VFmt) (s : State) :
    exec (.vor i f) s = execVor i f s := rfl
@[simp] theorem exec_vxor (i : Issue) (f : VFmt) (s : State) :
    exec (.vxor i f) s = execVxor i f s := rfl
@[simp] theorem exec_vshl (i : Issue) (f : VFmt) (s : State) :
    exec (.vshl i f) s = execVshl i f s := rfl
@[simp] theorem exec_vshr (i : Issue) (f : VFmt) (s : State) :
    exec (.vshr i f) s = execVshr i f s := rfl
@[simp] theorem exec_vsar (i : Issue) (f : VFmt) (s : State) :
    exec (.vsar i f) s = execVsar i f s := rfl
@[simp] theorem exec_vmin (i : Issue) (f : VFmt) (s : State) :
    exec (.vmin i f) s = execVmin i f s := rfl
@[simp] theorem exec_vmax (i : Issue) (f : VFmt) (s : State) :
    exec (.vmax i f) s = execVmax i f s := rfl
@[simp] theorem exec_vsel (i : Issue) (f : VFmt) (s : State) :
    exec (.vsel i f) s = execVsel i f s := rfl
@[simp] theorem exec_vcmp (i : Issue) (f : VFmt) (s : State) :
    exec (.vcmp i f) s = execVcmp i f s := rfl
@[simp] theorem exec_vmov (i : Issue) (f : VFmt) (s : State) :
    exec (.vmov i f) s = execVmov i f s := rfl
@[simp] theorem exec_vpopc (i : Issue) (f : VFmt) (s : State) :
    exec (.vpopc i f) s = execVpopc i f s := rfl
@[simp] theorem exec_vmovi (i : Issue) (f : IFmt) (s : State) :
    exec (.vmovi i f) s = execVmovi i f s := rfl
@[simp] theorem exec_vaddi (i : Issue) (f : IFmt) (s : State) :
    exec (.vaddi i f) s = execVaddi i f s := rfl
@[simp] theorem exec_vfadd (i : Issue) (f : VFmt) (s : State) :
    exec (.vfadd i f) s = execVfadd i f s := rfl
@[simp] theorem exec_vfsub (i : Issue) (f : VFmt) (s : State) :
    exec (.vfsub i f) s = execVfsub i f s := rfl
@[simp] theorem exec_vfmul (i : Issue) (f : VFmt) (s : State) :
    exec (.vfmul i f) s = execVfmul i f s := rfl
@[simp] theorem exec_vfma (i : Issue) (f : VFmt) (s : State) :
    exec (.vfma i f) s = execVfma i f s := rfl
@[simp] theorem exec_vfmin (i : Issue) (f : VFmt) (s : State) :
    exec (.vfmin i f) s = execVfmin i f s := rfl
@[simp] theorem exec_vfmax (i : Issue) (f : VFmt) (s : State) :
    exec (.vfmax i f) s = execVfmax i f s := rfl
@[simp] theorem exec_vfcmp (i : Issue) (f : VFmt) (s : State) :
    exec (.vfcmp i f) s = execVfcmp i f s := rfl
@[simp] theorem exec_vfdiv (i : Issue) (f : VFmt) (s : State) :
    exec (.vfdiv i f) s = execVfdiv i f s := rfl
@[simp] theorem exec_vfsqrt (i : Issue) (f : VFmt) (s : State) :
    exec (.vfsqrt i f) s = execVfsqrt i f s := rfl
@[simp] theorem exec_vfrcp (i : Issue) (f : VFmt) (s : State) :
    exec (.vfrcp i f) s = execVfrcp i f s := rfl
@[simp] theorem exec_vfrsq (i : Issue) (f : VFmt) (s : State) :
    exec (.vfrsq i f) s = execVfrsq i f s := rfl
@[simp] theorem exec_vfexp2 (i : Issue) (f : VFmt) (s : State) :
    exec (.vfexp2 i f) s = execVfexp2 i f s := rfl
@[simp] theorem exec_vflog2 (i : Issue) (f : VFmt) (s : State) :
    exec (.vflog2 i f) s = execVflog2 i f s := rfl
@[simp] theorem exec_vcvt (i : Issue) (f : VFmt) (s : State) :
    exec (.vcvt i f) s = execVcvt i f s := rfl
@[simp] theorem exec_vshfl (i : Issue) (f : VFmt) (s : State) :
    exec (.vshfl i f) s = execVshfl i f s := rfl
@[simp] theorem exec_vred (i : Issue) (f : VFmt) (s : State) :
    exec (.vred i f) s = execVred i f s := rfl
@[simp] theorem exec_twait (i : Issue) (f : VFmt) (s : State) :
    exec (.twait i f) s = execTwait i f s := rfl
@[simp] theorem exec_taccOpen (i : Issue) (f : VFmt) (s : State) :
    exec (.taccOpen i f) s = execTaccOpen i f s := rfl
@[simp] theorem exec_tmma (i : Issue) (f : VFmt) (s : State) :
    exec (.tmma i f) s = execTmma i f s := rfl
@[simp] theorem exec_tstore (i : Issue) (f : VFmt) (s : State) :
    exec (.tstore i f) s = execTstore i f s := rfl
@[simp] theorem exec_taccLdp (i : Issue) (f : VFmt) (s : State) :
    exec (.taccLdp i f) s = execTaccLdp i f s := rfl
@[simp] theorem exec_tcomb (i : Issue) (f : VFmt) (s : State) :
    exec (.tcomb i f) s = execTcomb i f s := rfl
@[simp] theorem exec_taccRel (i : Issue) (f : VFmt) (s : State) :
    exec (.taccRel i f) s = execTaccRel i f s := rfl
@[simp] theorem exec_haulCopy (i : Issue) (f : VFmt) (s : State) :
    exec (.haulCopy i f) s = execHaulCopy i f s := rfl
@[simp] theorem exec_haulGather (i : Issue) (f : VFmt) (s : State) :
    exec (.haulGather i f) s = execHaulGather i f s := rfl
@[simp] theorem exec_haulScatter (i : Issue) (f : VFmt) (s : State) :
    exec (.haulScatter i f) s = execHaulScatter i f s := rfl
@[simp] theorem exec_haulRed (i : Issue) (f : VFmt) (s : State) :
    exec (.haulRed i f) s = execHaulRed i f s := rfl
@[simp] theorem exec_haulPut (i : Issue) (f : VFmt) (s : State) :
    exec (.haulPut i f) s = execHaulPut i f s := rfl
@[simp] theorem exec_haulGet (i : Issue) (f : VFmt) (s : State) :
    exec (.haulGet i f) s = execHaulGet i f s := rfl
@[simp] theorem exec_bellSig (i : Issue) (f : VFmt) (s : State) :
    exec (.bellSig i f) s = execBellSig i f s := rfl
@[simp] theorem exec_bellWait (i : Issue) (f : VFmt) (s : State) :
    exec (.bellWait i f) s = execBellWait i f s := rfl
@[simp] theorem exec_bellRead (i : Issue) (f : VFmt) (s : State) :
    exec (.bellRead i f) s = execBellRead i f s := rfl
@[simp] theorem exec_bellXchg (i : Issue) (f : VFmt) (s : State) :
    exec (.bellXchg i f) s = execBellXchg i f s := rfl
@[simp] theorem exec_ld (i : Issue) (f : MFmt) (s : State) :
    exec (.ld i f) s = execLd i f s := rfl
@[simp] theorem exec_st (i : Issue) (f : MFmt) (s : State) :
    exec (.st i f) s = execSt i f s := rfl
@[simp] theorem exec_atom (i : Issue) (f : MFmt) (s : State) :
    exec (.atom i f) s = execAtom i f s := rfl
@[simp] theorem exec_red (i : Issue) (f : MFmt) (s : State) :
    exec (.red i f) s = execRed i f s := rfl
@[simp] theorem exec_tallyAdd (i : Issue) (f : MFmt) (s : State) :
    exec (.tallyAdd i f) s = execTallyAdd i f s := rfl
@[simp] theorem exec_tallyCvt (i : Issue) (f : MFmt) (s : State) :
    exec (.tallyCvt i f) s = execTallyCvt i f s := rfl
@[simp] theorem exec_tallyFlags (i : Issue) (f : MFmt) (s : State) :
    exec (.tallyFlags i f) s = execTallyFlags i f s := rfl
@[simp] theorem exec_spinwait (i : Issue) (f : MFmt) (s : State) :
    exec (.spinwait i f) s = execSpinwait i f s := rfl
@[simp] theorem exec_glock (i : Issue) (f : MFmt) (s : State) :
    exec (.glock i f) s = execGlock i f s := rfl
@[simp] theorem exec_gunlock (i : Issue) (f : MFmt) (s : State) :
    exec (.gunlock i f) s = execGunlock i f s := rfl
@[simp] theorem exec_fence (i : Issue) (f : MFmt) (s : State) :
    exec (.fence i f) s = execFence i f s := rfl
@[simp] theorem exec_nop (i : Issue) (f : CFmt) (s : State) :
    exec (.nop i f) s = execNop i f s := rfl
@[simp] theorem exec_bra (i : Issue) (f : CFmt) (s : State) :
    exec (.bra i f) s = execBra i f s := rfl
@[simp] theorem exec_call (i : Issue) (f : CFmt) (s : State) :
    exec (.call i f) s = execCall i f s := rfl
@[simp] theorem exec_ret (i : Issue) (f : CFmt) (s : State) :
    exec (.ret i f) s = execRet i f s := rfl
@[simp] theorem exec_exit (i : Issue) (f : CFmt) (s : State) :
    exec (.exit i f) s = execExit i f s := rfl
@[simp] theorem exec_bar (i : Issue) (f : CFmt) (s : State) :
    exec (.bar i f) s = execBar i f s := rfl
@[simp] theorem exec_cairn (i : Issue) (f : IFmt) (s : State) :
    exec (.cairn i f) s = execCairn i f s := rfl
@[simp] theorem exec_ropeLivelock (cluster slot : Nat) (s : State) :
    exec (.ropeLivelock cluster slot) s = execRopeLivelock cluster slot s := rfl
@[simp] theorem exec_spinwaitReread (cluster slot : Nat) (host : HostAnswer) (s : State) :
    exec (.spinwaitReread cluster slot host) s = execSpinwaitReread cluster slot host s := rfl
@[simp] theorem exec_glockPass (cluster slot : Nat) (s : State) :
    exec (.glockPass cluster slot) s = execGlockPass cluster slot s := rfl
@[simp] theorem exec_partyLaunch (cluster : Nat) (s : State) :
    exec (.partyLaunch cluster) s = execPartyLaunch cluster s := rfl
@[simp] theorem exec_partyEnd (cluster party : Nat) (s : State) :
    exec (.partyEnd cluster party) s = execPartyEnd cluster party s := rfl
@[simp] theorem exec_tensorMilestone (cluster : Nat) (host : HostAnswer) (ecc : Ecc) (silent : Option (Nat × Word)) (s : State) :
    exec (.tensorMilestone cluster host ecc silent) s = execTensorMilestone cluster host ecc silent s := rfl
@[simp] theorem exec_permitGrant (die : Nat) (s : State) :
    exec (.permitGrant die) s = execPermitGrant die s := rfl
@[simp] theorem exec_permitLoss (cluster : Nat) (s : State) :
    exec (.permitLoss cluster) s = execPermitLoss cluster s := rfl
@[simp] theorem exec_shadowCheck (cluster : Nat) (s : State) :
    exec (.shadowCheck cluster) s = execShadowCheck cluster s := rfl
@[simp] theorem exec_haulOpStart (cluster : Nat) (host : HostAnswer) (s : State) :
    exec (.haulOpStart cluster host) s = execHaulOpStart cluster host s := rfl
@[simp] theorem exec_haulMilestone (cluster : Nat) (s : State) :
    exec (.haulMilestone cluster) s = execHaulMilestone cluster s := rfl
@[simp] theorem exec_nopCmd (queue : Nat) (s : State) :
    exec (.nopCmd queue) s = execNopCmd queue s := rfl
@[simp] theorem exec_windowFence (queue : Nat) (s : State) :
    exec (.windowFence queue) s = execWindowFence queue s := rfl
@[simp] theorem exec_launch (queue : Nat) (s : State) :
    exec (.launch queue) s = execLaunch queue s := rfl
@[simp] theorem exec_bellWaitCmd (queue : Nat) (s : State) :
    exec (.bellWaitCmd queue) s = execBellWaitCmd queue s := rfl
@[simp] theorem exec_bellSignal (queue : Nat) (s : State) :
    exec (.bellSignal queue) s = execBellSignal queue s := rfl
@[simp] theorem exec_hintHeavy (queue : Nat) (s : State) :
    exec (.hintHeavy queue) s = execHintHeavy queue s := rfl
@[simp] theorem exec_publish (queue : Nat) (host : HostAnswer) (s : State) :
    exec (.publish queue host) s = execPublish queue host s := rfl
@[simp] theorem exec_init (queue : Nat) (s : State) :
    exec (.init queue) s = execInit queue s := rfl
@[simp] theorem exec_close (queue : Nat) (s : State) :
    exec (.close queue) s = execClose queue s := rfl
@[simp] theorem exec_discard (queue : Nat) (s : State) :
    exec (.discard queue) s = execDiscard queue s := rfl
@[simp] theorem exec_xltInv (queue : Nat) (s : State) :
    exec (.xltInv queue) s = execXltInv queue s := rfl
@[simp] theorem exec_tableLoad (queue : Nat) (host : HostAnswer) (s : State) :
    exec (.tableLoad queue host) s = execTableLoad queue host s := rfl
@[simp] theorem exec_ctxCreate (queue : Nat) (host : HostAnswer) (s : State) :
    exec (.ctxCreate queue host) s = execCtxCreate queue host s := rfl
@[simp] theorem exec_ctxDestroy (queue : Nat) (s : State) :
    exec (.ctxDestroy queue) s = execCtxDestroy queue s := rfl
@[simp] theorem exec_allReduce (queue : Nat) (s : State) :
    exec (.allReduce queue) s = execAllReduce queue s := rfl
@[simp] theorem exec_reduceScatter (queue : Nat) (s : State) :
    exec (.reduceScatter queue) s = execReduceScatter queue s := rfl
@[simp] theorem exec_allGather (queue : Nat) (s : State) :
    exec (.allGather queue) s = execAllGather queue s := rfl
@[simp] theorem exec_broadcast (queue : Nat) (s : State) :
    exec (.broadcast queue) s = execBroadcast queue s := rfl
@[simp] theorem exec_reduce (queue : Nat) (s : State) :
    exec (.reduce queue) s = execReduce queue s := rfl
@[simp] theorem exec_barrier (queue : Nat) (s : State) :
    exec (.barrier queue) s = execBarrier queue s := rfl
@[simp] theorem exec_muster (queue : Nat) (s : State) :
    exec (.muster queue) s = execMuster queue s := rfl
@[simp] theorem exec_commandComplete (queue seq : Nat) (s : State) :
    exec (.commandComplete queue seq) s = execCommandComplete queue seq s := rfl
@[simp] theorem exec_doorbell (master : Master) (value : Word) (s : State) :
    exec (.doorbell master value) s = execDoorbell master value s := rfl
@[simp] theorem exec_fetch (queue : Nat) (host : HostAnswer) (s : State) :
    exec (.fetch queue host) s = execFetch queue host s := rfl
@[simp] theorem exec_sealReread (queue : Nat) (host : HostAnswer) (s : State) :
    exec (.sealReread queue host) s = execSealReread queue host s := rfl
@[simp] theorem exec_sealCrc (queue : Nat) (s : State) :
    exec (.sealCrc queue) s = execSealCrc queue s := rfl
@[simp] theorem exec_queueEnable (master : Master) (queue : Nat) (value : Word) (s : State) :
    exec (.queueEnable master queue value) s = execQueueEnable master queue value s := rfl
@[simp] theorem exec_queueDisable (master : Master) (queue : Nat) (value : Word) (s : State) :
    exec (.queueDisable master queue value) s = execQueueDisable master queue value s := rfl
@[simp] theorem exec_resume (master : Master) (queue : Nat) (value : Word) (s : State) :
    exec (.resume master queue value) s = execResume master queue value s := rfl
@[simp] theorem exec_ringEnable (master : Master) (ring : Nat) (value : Word) (s : State) :
    exec (.ringEnable master ring value) s = execRingEnable master ring value s := rfl
@[simp] theorem exec_ringDisable (master : Master) (ring : Nat) (value : Word) (s : State) :
    exec (.ringDisable master ring value) s = execRingDisable master ring value s := rfl
@[simp] theorem exec_headAdvance (master : Master) (ring : Nat) (value : Word) (s : State) :
    exec (.headAdvance master ring value) s = execHeadAdvance master ring value s := rfl
@[simp] theorem exec_runtimeStop (master : Master) (value : Word) (s : State) :
    exec (.runtimeStop master value) s = execRuntimeStop master value s := rfl
@[simp] theorem exec_windowWrite (tlp : WriteTlp) (s : State) :
    exec (.windowWrite tlp) s = execWindowWrite tlp s := rfl
@[simp] theorem exec_windowRead (offset length : Nat) (s : State) :
    exec (.windowRead offset length) s = execWindowRead offset length s := rfl
@[simp] theorem exec_windowBaseWrite (master : Master) (window : Nat) (value : Word) (s : State) :
    exec (.windowBaseWrite master window value) s = execWindowBaseWrite master window value s := rfl
@[simp] theorem exec_bootSramWrite (offset : Nat) (data : List (Option Byte)) (s : State) :
    exec (.bootSramWrite offset data) s = execBootSramWrite offset data s := rfl
@[simp] theorem exec_registerWrite (write : BarWrite) (rival : Option BarWrite) (s : State) :
    exec (.registerWrite write rival) s = execRegisterWrite write rival s := rfl
@[simp] theorem exec_registerSignal (master : Master) (bell : Nat) (value : Word) (s : State) :
    exec (.registerSignal master bell value) s = execRegisterSignal master bell value s := rfl
@[simp] theorem exec_ownerWrite (master : Master) (bell : Nat) (value : Word) (s : State) :
    exec (.ownerWrite master bell value) s = execOwnerWrite master bell value s := rfl
@[simp] theorem exec_invalidation (master : Master) (value : Word) (s : State) :
    exec (.invalidation master value) s = execInvalidation master value s := rfl
@[simp] theorem exec_drain (cache : RcId) (s : State) :
    exec (.drain cache) s = execDrain cache s := rfl
@[simp] theorem exec_applyOwner (master : Master) (value : Word) (s : State) :
    exec (.applyOwner master value) s = execApplyOwner master value s := rfl
@[simp] theorem exec_applyOwnerDone (s : State) :
    exec .applyOwnerDone s = execApplyOwnerDone s := rfl
@[simp] theorem exec_walk (agent : XltAgent) (ctx va need : Nat) (upset : Ecc) (s : State) :
    exec (.walk agent ctx va need upset) s = execWalk agent ctx va need upset s := rfl
@[simp] theorem exec_retry (master : Master) (value : Word) (s : State) :
    exec (.retry master value) s = execRetry master value s := rfl
@[simp] theorem exec_fatal (master : Master) (value : Word) (s : State) :
    exec (.fatal master value) s = execFatal master value s := rfl
@[simp] theorem exec_heldFaultAdmit (s : State) :
    exec .heldFaultAdmit s = execHeldFaultAdmit s := rfl
@[simp] theorem exec_rds (agent ctx line : Nat) (access : LineAccess) (s : State) :
    exec (.rds agent ctx line access) s = execRds agent ctx line access s := rfl
@[simp] theorem exec_rdx (agent ctx line : Nat) (data : Line) (mask : BitVec 128) (access : LineAccess) (s : State) :
    exec (.rdx agent ctx line data mask access) s = execRdx agent ctx line data mask access s := rfl
@[simp] theorem exec_upg (agent ctx line : Nat) (data : Line) (mask : BitVec 128) (access : LineAccess) (s : State) :
    exec (.upg agent ctx line data mask access) s = execUpg agent ctx line data mask access s := rfl
@[simp] theorem exec_wbd (agent line : Nat) (s : State) :
    exec (.wbd agent line) s = execWbd agent line s := rfl
@[simp] theorem exec_wbc (agent line : Nat) (s : State) :
    exec (.wbc agent line) s = execWbc agent line s := rfl
@[simp] theorem exec_rdcur (agent ctx line : Nat) (upset : Upset) (s : State) :
    exec (.rdcur agent ctx line upset) s = execRdcur agent ctx line upset s := rfl
@[simp] theorem exec_wrnc (agent ctx line : Nat) (data : Line) (mask : BitVec 128) (upset : Upset) (s : State) :
    exec (.wrnc agent ctx line data mask upset) s = execWrnc agent ctx line data mask upset s := rfl
@[simp] theorem exec_atomh (agent ctx addr : Nat) (op : HomeAtomic) (upset : Upset) (s : State) :
    exec (.atomh agent ctx addr op upset) s = execAtomh agent ctx addr op upset s := rfl
@[simp] theorem exec_snpshr (agent line : Nat) (s : State) :
    exec (.snpshr agent line) s = execSnpshr agent line s := rfl
@[simp] theorem exec_snpinv (agent line : Nat) (s : State) :
    exec (.snpinv agent line) s = execSnpinv agent line s := rfl
@[simp] theorem exec_snpcur (agent line : Nat) (s : State) :
    exec (.snpcur agent line) s = execSnpcur agent line s := rfl
@[simp] theorem exec_snprsp (agent line : Nat) (s : State) :
    exec (.snprsp agent line) s = execSnprsp agent line s := rfl
@[simp] theorem exec_cmp (agent line : Nat) (s : State) :
    exec (.cmp agent line) s = execCmp agent line s := rfl
@[simp] theorem exec_nack (agent line : Nat) (s : State) :
    exec (.nack agent line) s = execNack agent line s := rfl
@[simp] theorem exec_requestResend (agent line : Nat) (upset : Upset) (s : State) :
    exec (.requestResend agent line upset) s = execRequestResend agent line upset s := rfl
@[simp] theorem exec_installAck (agent line : Nat) (s : State) :
    exec (.installAck agent line) s = execInstallAck agent line s := rfl
@[simp] theorem exec_lineData (agent line : Nat) (upset : Upset) (s : State) :
    exec (.lineData agent line upset) s = execLineData agent line upset s := rfl
@[simp] theorem exec_clean (master : Master) (engine : Nat) (value : Word) (s : State) :
    exec (.clean master engine value) s = execClean master engine value s := rfl
@[simp] theorem exec_cleanInv (master : Master) (engine : Nat) (value : Word) (s : State) :
    exec (.cleanInv master engine value) s = execCleanInv master engine value s := rfl
@[simp] theorem exec_sweepDone (engine : Nat) (s : State) :
    exec (.sweepDone engine) s = execSweepDone engine s := rfl
@[simp] theorem exec_scrubRead (stack : Nat) (flips : List (Nat × BitVec 272)) (onDie : Nat) (s : State) :
    exec (.scrubRead stack flips onDie) s = execScrubRead stack flips onDie s := rfl
@[simp] theorem exec_refresh (stack bank : Nat) (s : State) :
    exec (.refresh stack bank) s = execRefresh stack bank s := rfl
@[simp] theorem exec_rfm (stack bank : Nat) (s : State) :
    exec (.rfm stack bank) s = execRfm stack bank s := rfl
@[simp] theorem exec_hbmTempRead (stack : Nat) (celsius : Int) (s : State) :
    exec (.hbmTempRead stack celsius) s = execHbmTempRead stack celsius s := rfl
@[simp] theorem exec_parityRetry (stack sector : Nat) (again : Bool) (s : State) :
    exec (.parityRetry stack sector again) s = execParityRetry stack sector again s := rfl
@[simp] theorem exec_d2dFrame (link dir slice : Nat) (sent : D2dSent) (got : BitVec 1152) (s : State) :
    exec (.d2dFrame link dir slice sent got) s = execD2dFrame link dir slice sent got s := rfl
@[simp] theorem exec_replayTimeout (link dir slice : Nat) (s : State) :
    exec (.replayTimeout link dir slice) s = execReplayTimeout link dir slice s := rfl
@[simp] theorem exec_d2dWireFail (link dir slice : Nat) (s : State) :
    exec (.d2dWireFail link dir slice) s = execD2dWireFail link dir slice s := rfl
@[simp] theorem exec_lockLost (generator : Nat) (s : State) :
    exec (.lockLost generator) s = execLockLost generator s := rfl
@[simp] theorem exec_powerSample (watts : Nat) (s : State) :
    exec (.powerSample watts) s = execPowerSample watts s := rfl
@[simp] theorem exec_forcedPeriodEnd (s : State) :
    exec .forcedPeriodEnd s = execForcedPeriodEnd s := rfl
@[simp] theorem exec_powerTick (vin10mV : Nat) (s : State) :
    exec (.powerTick vin10mV) s = execPowerTick vin10mV s := rfl
@[simp] theorem exec_hintEnd (s : State) :
    exec .hintEnd s = execHintEnd s := rfl
@[simp] theorem exec_tempRead (celsius : List Int) (s : State) :
    exec (.tempRead celsius) s = execTempRead celsius s := rfl
@[simp] theorem exec_thermtrip (die : Nat) (celsius : Int) (s : State) :
    exec (.thermtrip die celsius) s = execThermtrip die celsius s := rfl
@[simp] theorem exec_vin48OutOfRange (above : Bool) (s : State) :
    exec (.vin48OutOfRange above) s = execVin48OutOfRange above s := rfl
@[simp] theorem exec_pgDrop (s : State) :
    exec .pgDrop s = execPgDrop s := rfl
@[simp] theorem exec_vauxLoss (s : State) :
    exec .vauxLoss s = execVauxLoss s := rfl
@[simp] theorem exec_powerOnReset (s : State) :
    exec .powerOnReset s = execPowerOnReset s := rfl
@[simp] theorem exec_cold (source : Option BarWrite) (s : State) :
    exec (.cold source) s = execCold source s := rfl
@[simp] theorem exec_keepMem (master : Master) (value : Word) (s : State) :
    exec (.keepMem master value) s = execKeepMem master value s := rfl
@[simp] theorem exec_functionLevelReset (s : State) :
    exec .functionLevelReset s = execFunctionLevelReset s := rfl
@[simp] theorem exec_verify (master : Master) (value : Word) (s : State) :
    exec (.verify master value) s = execVerify master value s := rfl
@[simp] theorem exec_romTime (s : State) :
    exec .romTime s = execRomTime s := rfl
@[simp] theorem exec_verifyTime (s : State) :
    exec .verifyTime s = execVerifyTime s := rfl
@[simp] theorem exec_clocks (locked : Bool) (s : State) :
    exec (.clocks locked) s = execClocks locked s := rfl
@[simp] theorem exec_links (failedSlices : List (Nat × Nat × Nat)) (s : State) :
    exec (.links failedSlices) s = execLinks failedSlices s := rfl
@[simp] theorem exec_clusters (selftestFails : List (Nat × Nat)) (s : State) :
    exec (.clusters selftestFails) s = execClusters selftestFails s := rfl
@[simp] theorem exec_memory (trained : BitVec 20) (s : State) :
    exec (.memory trained) s = execMemory trained s := rfl
@[simp] theorem exec_services (s : State) :
    exec .services s = execServices s := rfl
@[simp] theorem exec_retirementRequest (master : Master) (value : Word) (s : State) :
    exec (.retirementRequest master value) s = execRetirementRequest master value s := rfl
@[simp] theorem exec_reeveWdt (s : State) :
    exec .reeveWdt s = execReeveWdt s := rfl
@[simp] theorem exec_beat (master : Master) (value : Word) (s : State) :
    exec (.beat master value) s = execBeat master value s := rfl
@[simp] theorem exec_runtimeStall (s : State) :
    exec .runtimeStall s = execRuntimeStall s := rfl
@[simp] theorem exec_routeWrite (master : Master) (source : Nat) (value : Word) (s : State) :
    exec (.routeWrite master source value) s = execRouteWrite master source value s := rfl
@[simp] theorem exec_linkDown (s : State) :
    exec .linkDown s = execLinkDown s := rfl
@[simp] theorem exec_completionTimeout (id : Nat) (s : State) :
    exec (.completionTimeout id) s = execCompletionTimeout id s := rfl
@[simp] theorem exec_apertureReadCompletion (id : Nat) (answer : HostAnswer) (s : State) :
    exec (.apertureReadCompletion id answer) s = execApertureReadCompletion id answer s := rfl
@[simp] theorem exec_msixUnmask (mask : MsixMask) (s : State) :
    exec (.msixUnmask mask) s = execMsixUnmask mask s := rfl
@[simp] theorem exec_doeDiscovery (request : List Byte) (s : State) :
    exec (.doeDiscovery request) s = execDoeDiscovery request s := rfl
@[simp] theorem exec_doeAbort (s : State) :
    exec .doeAbort s = execDoeAbort s := rfl
@[simp] theorem exec_getVersion (request : List Byte) (s : State) :
    exec (.getVersion request) s = execGetVersion request s := rfl
@[simp] theorem exec_getCapabilities (request : List Byte) (s : State) :
    exec (.getCapabilities request) s = execGetCapabilities request s := rfl
@[simp] theorem exec_negotiateAlgorithms (request : List Byte) (s : State) :
    exec (.negotiateAlgorithms request) s = execNegotiateAlgorithms request s := rfl
@[simp] theorem exec_getDigests (request : List Byte) (s : State) :
    exec (.getDigests request) s = execGetDigests request s := rfl
@[simp] theorem exec_getCertificate (request : List Byte) (s : State) :
    exec (.getCertificate request) s = execGetCertificate request s := rfl
@[simp] theorem exec_challenge (request : List Byte) (s : State) :
    exec (.challenge request) s = execChallenge request s := rfl
@[simp] theorem exec_getMeasurements (request : List Byte) (s : State) :
    exec (.getMeasurements request) s = execGetMeasurements request s := rfl
@[simp] theorem exec_keyExchange (request : List Byte) (s : State) :
    exec (.keyExchange request) s = execKeyExchange request s := rfl
@[simp] theorem exec_finish (request : List Byte) (s : State) :
    exec (.finish request) s = execFinish request s := rfl
@[simp] theorem exec_endSession (request : List Byte) (s : State) :
    exec (.endSession request) s = execEndSession request s := rfl
@[simp] theorem exec_heartbeat (request : List Byte) (s : State) :
    exec (.heartbeat request) s = execHeartbeat request s := rfl
@[simp] theorem exec_data (frame : Frame) (s : State) :
    exec (.data frame) s = execData frame s := rfl
@[simp] theorem exec_read (frame : Frame) (s : State) :
    exec (.read frame) s = execRead frame s := rfl
@[simp] theorem exec_bell (frame : Frame) (s : State) :
    exec (.bell frame) s = execBell frame s := rfl
@[simp] theorem exec_ack (frame : Frame) (s : State) :
    exec (.ack frame) s = execAck frame s := rfl
@[simp] theorem exec_hold (frame : Frame) (s : State) :
    exec (.hold frame) s = execHold frame s := rfl
@[simp] theorem exec_refuse (frame : Frame) (s : State) :
    exec (.refuse frame) s = execRefuse frame s := rfl
@[simp] theorem exec_ackTimer (peer : Nat) (s : State) :
    exec (.ackTimer peer) s = execAckTimer peer s := rfl
@[simp] theorem exec_rtoResend (peer psn : Nat) (s : State) :
    exec (.rtoResend peer psn) s = execRtoResend peer psn s := rfl
@[simp] theorem exec_portMaskRestore (peer port : Nat) (s : State) :
    exec (.portMaskRestore peer port) s = execPortMaskRestore peer port s := rfl
@[simp] theorem exec_peerLost (peer : Nat) (s : State) :
    exec (.peerLost peer) s = execPeerLost peer s := rfl
@[simp] theorem exec_portUp (port : Nat) (s : State) :
    exec (.portUp port) s = execPortUp port s := rfl
@[simp] theorem exec_portDown (port : Nat) (s : State) :
    exec (.portDown port) s = execPortDown port s := rfl
@[simp] theorem exec_bindingWrite (master : Master) (ctx : Nat) (value : Word) (s : State) :
    exec (.bindingWrite master ctx value) s = execBindingWrite master ctx value s := rfl
@[simp] theorem exec_ptpMessage (msg : PtpMsg) (s : State) :
    exec (.ptpMessage msg) s = execPtpMessage msg s := rfl
@[simp] theorem exec_ppsEdge (s : State) :
    exec .ppsEdge s = execPpsEdge s := rfl
@[simp] theorem exec_timeSet (master : Master) (value : Word) (s : State) :
    exec (.timeSet master value) s = execTimeSet master value s := rfl
@[simp] theorem exec_segmentRun (frame : Frame) (s : State) :
    exec (.segmentRun frame) s = execSegmentRun frame s := rfl
@[simp] theorem exec_credit (frame : Frame) (s : State) :
    exec (.credit frame) s = execCredit frame s := rfl
@[simp] theorem exec_ready (frame : Frame) (s : State) :
    exec (.ready frame) s = execReady frame s := rfl
@[simp] theorem exec_musterAck (frame : Frame) (s : State) :
    exec (.musterAck frame) s = execMusterAck frame s := rfl
@[simp] theorem exec_go (frame : Frame) (s : State) :
    exec (.go frame) s = execGo frame s := rfl
@[simp] theorem exec_abort (frame : Frame) (s : State) :
    exec (.abort frame) s = execAbort frame s := rfl
@[simp] theorem exec_timeout (ctx : Nat) (s : State) :
    exec (.timeout ctx) s = execTimeout ctx s := rfl
@[simp] theorem exec_readyHoldExpiry (ctx : Nat) (s : State) :
    exec (.readyHoldExpiry ctx) s = execReadyHoldExpiry ctx s := rfl
@[simp] theorem exec_pulse (frame : Option Frame) (s : State) :
    exec (.pulse frame) s = execPulse frame s := rfl
@[simp] theorem exec_traceAdmit (source : TraceSrc) (s : State) :
    exec (.traceAdmit source) s = execTraceAdmit source s := rfl
@[simp] theorem exec_traceRingWrite (master : Master) (value : Word) (s : State) :
    exec (.traceRingWrite master value) s = execTraceRingWrite master value s := rfl
@[simp] theorem exec_shadowRingWrite (master : Master) (value : Word) (s : State) :
    exec (.shadowRingWrite master value) s = execShadowRingWrite master value s := rfl
@[simp] theorem exec_errorRingWrite (master : Master) (value : Word) (s : State) :
    exec (.errorRingWrite master value) s = execErrorRingWrite master value s := rfl
@[simp] theorem exec_freeze (master : Master) (value : Word) (s : State) :
    exec (.freeze master value) s = execFreeze master value s := rfl
@[simp] theorem exec_clearAll (master : Master) (value : Word) (s : State) :
    exec (.clearAll master value) s = execClearAll master value s := rfl
@[simp] theorem exec_counterWrite (write : BarWrite) (hit : Bool) (s : State) :
    exec (.counterWrite write hit) s = execCounterWrite write hit s := rfl
@[simp] theorem exec_sbTransfer (address : Nat) (write : Option Word) (parityOk : Bool) (s : State) :
    exec (.sbTransfer address write parityOk) s = execSbTransfer address write parityOk s := rfl
@[simp] theorem exec_tripClear (value : Word) (s : State) :
    exec (.tripClear value) s = execTripClear value s := rfl
@[simp] theorem exec_entdaa (address : BitVec 7) (s : State) :
    exec (.entdaa address) s = execEntdaa address s := rfl
@[simp] theorem exec_setdasa (address : BitVec 7) (s : State) :
    exec (.setdasa address) s = execSetdasa address s := rfl
@[simp] theorem exec_rstdaa (s : State) :
    exec .rstdaa s = execRstdaa s := rfl
@[simp] theorem exec_getstatus (s : State) :
    exec .getstatus s = execGetstatus s := rfl
@[simp] theorem exec_bypass (bits : List Bool) (s : State) :
    exec (.bypass bits) s = execBypass bits s := rfl
@[simp] theorem exec_idcode (tap : Nat) (s : State) :
    exec (.idcode tap) s = execIdcode tap s := rfl
@[simp] theorem exec_samplePreload (pins : List Bool) (bits : List Bool) (s : State) :
    exec (.samplePreload pins bits) s = execSamplePreload pins bits s := rfl
@[simp] theorem exec_extest (bits : List Bool) (s : State) :
    exec (.extest bits) s = execExtest bits s := rfl
@[simp] theorem exec_coreParity (core : Nat) (s : State) :
    exec (.coreParity core) s = execCoreParity core s := rfl
@[simp] theorem exec_linkUp (speed width : Nat) (flit : Bool) (s : State) :
    exec (.linkUp speed width flit) s = execLinkUp speed width flit s := rfl
@[simp] theorem exec_perstRelease (s : State) :
    exec .perstRelease s = execPerstRelease s := rfl
@[simp] theorem exec_vin48InRange (s : State) :
    exec .vin48InRange s = execVin48InRange s := rfl
@[simp] theorem exec_vaux3v3Present (s : State) :
    exec .vaux3v3Present s = execVaux3v3Present s := rfl
@[simp] theorem exec_bootStageOverrun (s : State) :
    exec .bootStageOverrun s = execBootStageOverrun s := rfl
@[simp] theorem exec_l1Evict (cluster ctx line : Nat) (invalidate : Bool) (s : State) :
    exec (.l1Evict cluster ctx line invalidate) s = execL1Evict cluster ctx line invalidate s := rfl
@[simp] theorem exec_unsupportedDoeObject (request : List Byte) (s : State) :
    exec (.unsupportedDoeObject request) s = execUnsupportedDoeObject request s := rfl
@[simp] theorem exec_unsupportedSpdmRequest (request : List Byte) (s : State) :
    exec (.unsupportedSpdmRequest request) s = execUnsupportedSpdmRequest request s := rfl

end Sys2Proof.Machine
end

