-- ==== Sys2Proof/Laws/Tables.lean ====
section
/-! SUPPORT. Laws of sparse tables: a read after a write, and the operations keep the canonical form. -/

namespace Sys2Proof.Machine

/-! ### A read after a write -/

@[simp] theorem Table.get_nil {α : Type} (d : α) (k : Nat) : Table.get d [] k = d := rfl
@[simp] theorem Table.find_nil {α : Type} (k : Nat) : Table.find ([] : Table α) k = none := rfl

theorem Table.get_insert {α : Type} (d : α) (t : Table α) (k j : Nat) (v : α) :
    Table.get d (Table.insert t k v) j = if j = k then v else Table.get d t j := by
  induction t with
  | nil => rfl
  | cons e t ih =>
    simp only [Table.insert]
    split
    · rename_i he
      subst he
      simp only [Table.get]
      split <;> rfl
    · split
      · rfl
      · rename_i h1 _
        simp only [Table.get, ih]
        split
        · rename_i hj
          rw [if_neg (by omega)]
        · rfl

theorem Table.find_insert {α : Type} (t : Table α) (k j : Nat) (v : α) :
    Table.find (Table.insert t k v) j = if j = k then some v else Table.find t j := by
  induction t with
  | nil => rfl
  | cons e t ih =>
    simp only [Table.insert]
    split
    · rename_i he
      subst he
      simp only [Table.find]
      split <;> rfl
    · split
      · rfl
      · rename_i h1 _
        simp only [Table.find, ih]
        split
        · rename_i hj
          rw [if_neg (by omega)]
        · rfl

theorem Table.get_erase {α : Type} (d : α) (t : Table α) (k j : Nat) :
    Table.get d (Table.erase t k) j = if j = k then d else Table.get d t j := by
  induction t with
  | nil => simp [Table.erase, Table.get]
  | cons e t ih =>
    simp only [Table.erase]
    split
    · rename_i he
      subst he
      simp only [ih, Table.get]
      split <;> rfl
    · rename_i h1
      simp only [Table.get, ih]
      split
      · rw [if_neg (by omega)]
      · rfl

theorem Table.find_erase {α : Type} (t : Table α) (k j : Nat) :
    Table.find (Table.erase t k) j = if j = k then none else Table.find t j := by
  induction t with
  | nil => simp [Table.erase, Table.find]
  | cons e t ih =>
    simp only [Table.erase]
    split
    · rename_i he
      subst he
      simp only [ih, Table.find]
      split <;> rfl
    · rename_i h1
      simp only [Table.find, ih]
      split
      · rw [if_neg (by omega)]
      · rfl

/-- A read after a write: the value written at its key, what was there at every other. -/
theorem Table.get_set {α : Type} [DecidableEq α] (d : α) (t : Table α) (k j : Nat) (v : α) :
    Table.get d (Table.set d t k v) j = if j = k then v else Table.get d t j := by
  unfold Table.set
  split
  · rename_i hv
    rw [Table.get_erase, hv]
  · rw [Table.get_insert]

/-- A write leaves what every other key reads as, whatever the reader's default. -/
theorem Table.get_set_of_ne {α : Type} [DecidableEq α] {d d' : α} (t : Table α) {k j : Nat} (v : α) (h : j ≠ k) :
    Table.get d' (Table.set d t k v) j = Table.get d' t j := by
  unfold Table.set
  split
  · rw [Table.get_erase, if_neg h]
  · rw [Table.get_insert, if_neg h]

@[simp] theorem Table.get_set_self {α : Type} [DecidableEq α] (d : α) (t : Table α) (k : Nat) (v : α) :
    Table.get d (Table.set d t k v) k = v := by simp [Table.get_set]

@[simp] theorem Table.get_insert_self {α : Type} (d : α) (t : Table α) (k : Nat) (v : α) :
    Table.get d (Table.insert t k v) k = v := by simp [Table.get_insert]

@[simp] theorem Table.find_insert_self {α : Type} (t : Table α) (k : Nat) (v : α) :
    Table.find (Table.insert t k v) k = some v := by simp [Table.find_insert]

/-! ### The canonical form -/

theorem Table.wfFrom_mono {α : Type} [DecidableEq α] {d : Nat → α} {t : Table α} {lo lo' : Nat}
    (h : Table.wfFrom d lo t = true) (hl : lo' ≤ lo) : Table.wfFrom d lo' t = true := by
  cases t with
  | nil => rfl
  | cons e t =>
    simp only [Table.wfFrom, Bool.and_eq_true, decide_eq_true_eq] at h ⊢
    exact ⟨⟨by omega, h.1.2⟩, h.2⟩

theorem Table.insert_wfFrom {α : Type} [DecidableEq α] {d : Nat → α} (t : Table α) (lo k : Nat) (v : α)
    (h : Table.wfFrom d lo t = true) (hk : lo ≤ k) (hv : v ≠ d k) : Table.wfFrom d lo (Table.insert t k v) = true := by
  induction t generalizing lo with
  | nil => simp [Table.insert, Table.wfFrom, hk, hv]
  | cons e t ih =>
    simp only [Table.wfFrom, Bool.and_eq_true, decide_eq_true_eq] at h
    obtain ⟨⟨h1, h2⟩, h3⟩ := h
    simp only [Table.insert]
    split
    · rename_i he
      subst he
      simp [Table.wfFrom, h1, hv, h3]
    · split
      · rename_i h4 h5
        have : k + 1 ≤ e.1 := h5
        simp [Table.wfFrom, hk, hv, h2, h3, this]
      · simp only [Table.wfFrom, Bool.and_eq_true, decide_eq_true_eq]
        exact ⟨⟨h1, h2⟩, ih _ h3 (by omega)⟩

theorem Table.erase_wfFrom {α : Type} [DecidableEq α] {d : Nat → α} (t : Table α) (lo k : Nat)
    (h : Table.wfFrom d lo t = true) : Table.wfFrom d lo (Table.erase t k) = true := by
  induction t generalizing lo with
  | nil => rfl
  | cons e t ih =>
    simp only [Table.wfFrom, Bool.and_eq_true, decide_eq_true_eq] at h
    obtain ⟨⟨h1, h2⟩, h3⟩ := h
    simp only [Table.erase]
    split
    · exact Table.wfFrom_mono (ih _ h3) (by omega)
    · simp only [Table.wfFrom, Bool.and_eq_true, decide_eq_true_eq]
      exact ⟨⟨h1, h2⟩, ih _ h3⟩

/-- A write keeps the canonical form. -/
theorem Table.set_wf {α : Type} [DecidableEq α] {d : α} {t : Table α} (k : Nat) (v : α)
    (h : Table.wf (fun _ => d) t = true) : Table.wf (fun _ => d) (Table.set d t k v) = true := by
  unfold Table.set
  split
  · exact Table.erase_wfFrom t 0 k h
  · rename_i hv
    exact Table.insert_wfFrom t 0 k v h (Nat.zero_le _) hv

end Sys2Proof.Machine
end

