-- ==== Sys2Proof/Laws/Memory.lean ====
section
/-! SUPPORT. Laws of device memory: every operation keeps the canonical form; a read after a write. -/

namespace Sys2Proof.Machine

theorem foldl_keeps {α β : Type} {P : β → Prop} {f : β → α → β} (hf : ∀ b a, P b → P (f b a)) (l : List α) (b : β)
    (h : P b) : P (l.foldl f b) := by
  induction l generalizing b with
  | nil => exact h
  | cons a l ih => exact ih _ (hf b a h)

/-! ### The canonical form -/

theorem Mem.write_wf {m : Mem} (a : Nat) (b : Byte) (h : m.wf = true) : (m.write a b).wf = true :=
  Table.set_wf a b h

theorem Mem.writeBytes_wf {m : Mem} (line : Nat) (d : Line) (mask : BitVec 128) (h : m.wf = true) :
    (m.writeBytes line d mask).wf = true := by
  unfold Mem.writeBytes
  refine foldl_keeps (P := fun m => Mem.wf m = true) ?_ _ m h
  intro b a hb
  split
  · exact Mem.write_wf _ _ hb
  · exact hb

@[simp] theorem Mem.setPoison_bytes (m : Mem) (line : Nat) (which value : BitVec 4) :
    (m.setPoison line which value).bytes = m.bytes := rfl

theorem Mem.setPoison_wf {m : Mem} (line : Nat) (which value : BitVec 4) (h : m.wf = true) :
    (m.setPoison line which value).wf = true := h

theorem Mem.writeLine_wf {m : Mem} (line : Nat) (d : Line) (mask : BitVec 128) (h : m.wf = true) :
    (m.writeLine line d mask).wf = true := Mem.setPoison_wf _ _ _ (Mem.writeBytes_wf line d mask h)

theorem reset_mem_wf : State.reset.mem.wf = true := rfl

/-! ### A read after a write -/

theorem Mem.read_write (m : Mem) (a c : Nat) (b : Byte) :
    (m.write a b).read c = if c = a then b else m.read c := Table.get_set 0 m.bytes a c b

/-- The bytes that a masked write of a line leaves: those of the mask are the data's, every other is as it was. -/
theorem Mem.read_writeBytes_from (m : Mem) (line : Nat) (d : Line) (mask : BitVec 128) (c n : Nat) (hn : n ≤ 128) :
    ((List.range n).foldl (fun m i => if mask.getLsbD i then
        Mem.write m (128 * line + i) (BitVec.ofNat 8 (lineNat d i 1)) else m) m).read c =
      if 128 * line ≤ c ∧ c < 128 * line + n ∧ mask.getLsbD (c - 128 * line) = true
      then BitVec.ofNat 8 (lineNat d (c - 128 * line) 1) else m.read c := by
  induction n with
  | zero =>
    rw [if_neg (by omega)]
    rfl
  | succ n ih =>
    rw [List.range_succ, List.foldl_append]
    simp only [List.foldl_cons, List.foldl_nil]
    split
    · rename_i hm
      rw [Mem.read_write, ih (by omega)]
      by_cases hc : c = 128 * line + n
      · subst hc
        rw [if_pos rfl, if_pos ⟨by omega, by omega, by simpa using hm⟩]
        simp
      · rw [if_neg hc]
        congr 1
        simp only [eq_iff_iff]
        constructor
        · rintro ⟨h1, h2, h3⟩; exact ⟨h1, by omega, h3⟩
        · rintro ⟨h1, h2, h3⟩; exact ⟨h1, by omega, h3⟩
    · rename_i hm
      rw [ih (by omega)]
      congr 1
      simp only [eq_iff_iff]
      constructor
      · rintro ⟨h1, h2, h3⟩; exact ⟨h1, by omega, h3⟩
      · rintro ⟨h1, h2, h3⟩
        refine ⟨h1, ?_, h3⟩
        apply Nat.lt_of_le_of_ne (by omega)
        intro hc
        have hn' : c - 128 * line = n := by omega
        rw [hn'] at h3
        exact hm h3

theorem Mem.read_writeBytes (m : Mem) (line : Nat) (d : Line) (mask : BitVec 128) (c : Nat) :
    (m.writeBytes line d mask).read c =
      if 128 * line ≤ c ∧ c < 128 * line + 128 ∧ mask.getLsbD (c - 128 * line) = true
      then BitVec.ofNat 8 (lineNat d (c - 128 * line) 1) else m.read c :=
  Mem.read_writeBytes_from m line d mask c 128 (Nat.le_refl _)

@[simp] theorem Mem.read_setPoison (m : Mem) (line : Nat) (which value : BitVec 4) (c : Nat) :
    (m.setPoison line which value).read c = m.read c := rfl

theorem Mem.read_writeLine (m : Mem) (line : Nat) (d : Line) (mask : BitVec 128) (c : Nat) :
    (m.writeLine line d mask).read c =
      if 128 * line ≤ c ∧ c < 128 * line + 128 ∧ mask.getLsbD (c - 128 * line) = true
      then BitVec.ofNat 8 (lineNat d (c - 128 * line) 1) else m.read c :=
  Mem.read_writeBytes m line d mask c

end Sys2Proof.Machine
end

