-- ==== Sys2Proof/Laws/Issue.lean ====
section
/-! SUPPORT. What issuing an instruction can do (06_instruction_set.md R220; 05_clusters_ropes_parties.md R137): one lemma
for each way an attempt ends, in the order of the checks. -/

namespace Sys2Proof.Machine

variable {i : Issue} {g : Guard} {ck : Checks} {s : State} {k : IssueCtx} {bodyW : State → IssueCtx → State × Bool}
  {body : State → IssueCtx → State}

/-- What an issue finds is the rope it names. -/
theorem issuing_names (h : s.issuing i g = some k) : k.c = i.cluster ∧ k.slot = i.slot := by
  unfold State.issuing at h
  split at h
  · cases h
  · split at h
    · cases h
    · split at h
      · cases h
      · unfold State.ropeCtx at h
        split at h
        · cases h
        · split at h
          · cases h
          · split at h
            · cases h
            · cases h; exact ⟨rfl, rfl⟩

/-- A rope that cannot issue is left as it is. -/
theorem issueWait_none (h : s.issuing i g = none) : issueWait i g ck s bodyW = .next s := by
  simp [issueWait, h]

/-- The first check that fails makes the rope's fault; the attempt counts as an issue. -/
theorem issueWait_illegal (h : s.issuing i g = some k) (he : i.ecc = .none) (hl : ck.legal = false) :
    issueWait i g ck s bodyW = .next ((s.countCl k.c 2 k.ctx 1).fail k Code.illegalInstr) := by
  simp [issueWait, h, he, hl]

theorem issueWait_range (h : s.issuing i g = some k) (he : i.ecc = .none) (hl : ck.legal = true)
    (hr : ck.range k.party.par.vregs = false) :
    issueWait i g ck s bodyW = .next ((s.countCl k.c 2 k.ctx 1).fail k Code.regRange) := by
  simp [issueWait, h, he, hl, hr]

theorem issueWait_strict (h : s.issuing i g = some k) (he : i.ecc = .none) (hl : ck.legal = true)
    (hr : ck.range k.party.par.vregs = true) (ht : ck.timed = true) (hs : k.cx.strict = true) :
    issueWait i g ck s bodyW = .next ((s.countCl k.c 2 k.ctx 1).fail k Code.strictClass) := by
  simp [issueWait, h, he, hl, hr, ht, hs]

/-- A rope-level instruction with an empty mask does nothing but issue. -/
theorem issueWait_empty (h : s.issuing i g = some k) (he : i.ecc = .none) (hl : ck.legal = true)
    (hr : ck.range k.party.par.vregs = true) (ht : ck.timed = false ∨ k.cx.strict = false)
    (hm : ck.ropeLevel = true) (hz : k.e = 0) :
    issueWait i g ck s bodyW = .next ((s.countCl k.c 2 k.ctx 1).finish k k.rope) := by
  rcases ht with ht | ht <;> simp [issueWait, h, he, hl, hr, ht, hm, hz]

/-- Every check passes: the instruction's own effect. -/
theorem issueWait_ok (h : s.issuing i g = some k) (he : i.ecc = .none) (hl : ck.legal = true)
    (hr : ck.range k.party.par.vregs = true) (ht : ck.timed = false ∨ k.cx.strict = false)
    (hm : ck.ropeLevel = false ∨ k.e ≠ 0) :
    issueWait i g ck s bodyW =
      .next (if (bodyW s k).2 then (bodyW s k).1.countCl k.c 2 k.ctx 1 else (bodyW s k).1) := by
  rcases ht with ht | ht <;> rcases hm with hm | hm <;>
    simp [issueWait, h, he, hl, hr, ht, hm] <;> exact fun _ he => absurd he hm

theorem issue_ok (h : s.issuing i g = some k) (he : i.ecc = .none) (hl : ck.legal = true)
    (hr : ck.range k.party.par.vregs = true) (ht : ck.timed = false ∨ k.cx.strict = false)
    (hm : ck.ropeLevel = false ∨ k.e ≠ 0) :
    issue i g ck s body = .next ((body s k).countCl k.c 2 k.ctx 1) := by
  unfold issue
  rw [issueWait_ok h he hl hr ht hm]
  rfl

theorem issueMem_ok (h : s.issuing i g = some k) (he : i.ecc = .none) (hl : ck.legal = true)
    (hr : ck.range k.party.par.vregs = true) (ht : ck.timed = false ∨ k.cx.strict = false)
    (hm : ck.ropeLevel = false ∨ k.e ≠ 0) :
    issueMem i g ck s body =
      .next (if (body s k).stalled k then body s k else (body s k).countCl k.c 2 k.ctx 1) := by
  unfold issueMem
  rw [issueWait_ok h he hl hr ht hm]
  cases hb : (body s k).stalled k <;> simp [hb]

/-- Every attempt to issue answers a next state. -/
theorem issueWait_next : ∃ t, issueWait i g ck s bodyW = .next t := by
  unfold issueWait
  split
  · exact ⟨_, rfl⟩
  · split
    · exact ⟨_, rfl⟩
    · dsimp only
      repeat' split
      all_goals exact ⟨_, rfl⟩

end Sys2Proof.Machine
end

