-- ==== Sys2Proof/Laws/State.lean ====
section
/-! SUPPORT. What each named update of the state leaves alone: one lemma for each field and update. -/

namespace Sys2Proof.Machine

/-! ### State.setReg -/

@[simp] theorem State.setReg_pending (s : State) (r : Reg) (v : Word) : (s.setReg r v).pending = s.pending := (rfl)
@[simp] theorem State.setReg_free (s : State) (r : Reg) (v : Word) : (s.setReg r v).free = s.free := (rfl)
@[simp] theorem State.setReg_acCount (s : State) (r : Reg) (v : Word) : (s.setReg r v).acCount = s.acCount := (rfl)
@[simp] theorem State.setReg_time (s : State) (r : Reg) (v : Word) : (s.setReg r v).time = s.time := (rfl)
@[simp] theorem State.setReg_timeFrac (s : State) (r : Reg) (v : Word) : (s.setReg r v).timeFrac = s.timeFrac := (rfl)
@[simp] theorem State.setReg_errSeq (s : State) (r : Reg) (v : Word) : (s.setReg r v).errSeq = s.errSeq := (rfl)
@[simp] theorem State.setReg_mem (s : State) (r : Reg) (v : Word) : (s.setReg r v).mem = s.mem := (rfl)
@[simp] theorem State.setReg_clusters (s : State) (r : Reg) (v : Word) : (s.setReg r v).clusters = s.clusters := (rfl)
@[simp] theorem State.setReg_grants (s : State) (r : Reg) (v : Word) : (s.setReg r v).grants = s.grants := (rfl)
@[simp] theorem State.setReg_launches (s : State) (r : Reg) (v : Word) : (s.setReg r v).launches = s.launches := (rfl)
@[simp] theorem State.setReg_nextLaunch (s : State) (r : Reg) (v : Word) : (s.setReg r v).nextLaunch = s.nextLaunch := (rfl)
@[simp] theorem State.setReg_ctxs (s : State) (r : Reg) (v : Word) : (s.setReg r v).ctxs = s.ctxs := (rfl)
@[simp] theorem State.setReg_queues (s : State) (r : Reg) (v : Word) : (s.setReg r v).queues = s.queues := (rfl)
@[simp] theorem State.setReg_xlt (s : State) (r : Reg) (v : Word) : (s.setReg r v).xlt = s.xlt := (rfl)
@[simp] theorem State.setReg_coh (s : State) (r : Reg) (v : Word) : (s.setReg r v).coh = s.coh := (rfl)
@[simp] theorem State.setReg_hbm (s : State) (r : Reg) (v : Word) : (s.setReg r v).hbm = s.hbm := (rfl)
@[simp] theorem State.setReg_cores (s : State) (r : Reg) (v : Word) : (s.setReg r v).cores = s.cores := (rfl)
@[simp] theorem State.setReg_pcie (s : State) (r : Reg) (v : Word) : (s.setReg r v).pcie = s.pcie := (rfl)
@[simp] theorem State.setReg_pod (s : State) (r : Reg) (v : Word) : (s.setReg r v).pod = s.pod := (rfl)
@[simp] theorem State.setReg_d2d (s : State) (r : Reg) (v : Word) : (s.setReg r v).d2d = s.d2d := (rfl)
@[simp] theorem State.setReg_stops (s : State) (r : Reg) (v : Word) : (s.setReg r v).stops = s.stops := (rfl)
@[simp] theorem State.setReg_board (s : State) (r : Reg) (v : Word) : (s.setReg r v).board = s.board := (rfl)
@[simp] theorem State.setReg_fuses (s : State) (r : Reg) (v : Word) : (s.setReg r v).fuses = s.fuses := (rfl)
@[simp] theorem State.setReg_boot (s : State) (r : Reg) (v : Word) : (s.setReg r v).boot = s.boot := (rfl)
@[simp] theorem State.setReg_power (s : State) (r : Reg) (v : Word) : (s.setReg r v).power = s.power := (rfl)
@[simp] theorem State.setReg_doe (s : State) (r : Reg) (v : Word) : (s.setReg r v).doe = s.doe := (rfl)
@[simp] theorem State.setReg_obs (s : State) (r : Reg) (v : Word) : (s.setReg r v).obs = s.obs := (rfl)
@[simp] theorem State.setReg_sideband (s : State) (r : Reg) (v : Word) : (s.setReg r v).sideband = s.sideband := (rfl)
@[simp] theorem State.setReg_tap (s : State) (r : Reg) (v : Word) : (s.setReg r v).tap = s.tap := (rfl)
@[simp] theorem State.setReg_outbox (s : State) (r : Reg) (v : Word) : (s.setReg r v).outbox = s.outbox := (rfl)

/-! ### State.setRf -/

@[simp] theorem State.setRf_pending (s : State) (r : Reg) (f : RF) (n : Nat) : (s.setRf r f n).pending = s.pending := (rfl)
@[simp] theorem State.setRf_free (s : State) (r : Reg) (f : RF) (n : Nat) : (s.setRf r f n).free = s.free := (rfl)
@[simp] theorem State.setRf_acCount (s : State) (r : Reg) (f : RF) (n : Nat) : (s.setRf r f n).acCount = s.acCount := (rfl)
@[simp] theorem State.setRf_time (s : State) (r : Reg) (f : RF) (n : Nat) : (s.setRf r f n).time = s.time := (rfl)
@[simp] theorem State.setRf_timeFrac (s : State) (r : Reg) (f : RF) (n : Nat) : (s.setRf r f n).timeFrac = s.timeFrac := (rfl)
@[simp] theorem State.setRf_errSeq (s : State) (r : Reg) (f : RF) (n : Nat) : (s.setRf r f n).errSeq = s.errSeq := (rfl)
@[simp] theorem State.setRf_mem (s : State) (r : Reg) (f : RF) (n : Nat) : (s.setRf r f n).mem = s.mem := (rfl)
@[simp] theorem State.setRf_clusters (s : State) (r : Reg) (f : RF) (n : Nat) : (s.setRf r f n).clusters = s.clusters := (rfl)
@[simp] theorem State.setRf_grants (s : State) (r : Reg) (f : RF) (n : Nat) : (s.setRf r f n).grants = s.grants := (rfl)
@[simp] theorem State.setRf_launches (s : State) (r : Reg) (f : RF) (n : Nat) : (s.setRf r f n).launches = s.launches := (rfl)
@[simp] theorem State.setRf_nextLaunch (s : State) (r : Reg) (f : RF) (n : Nat) : (s.setRf r f n).nextLaunch = s.nextLaunch := (rfl)
@[simp] theorem State.setRf_ctxs (s : State) (r : Reg) (f : RF) (n : Nat) : (s.setRf r f n).ctxs = s.ctxs := (rfl)
@[simp] theorem State.setRf_queues (s : State) (r : Reg) (f : RF) (n : Nat) : (s.setRf r f n).queues = s.queues := (rfl)
@[simp] theorem State.setRf_xlt (s : State) (r : Reg) (f : RF) (n : Nat) : (s.setRf r f n).xlt = s.xlt := (rfl)
@[simp] theorem State.setRf_coh (s : State) (r : Reg) (f : RF) (n : Nat) : (s.setRf r f n).coh = s.coh := (rfl)
@[simp] theorem State.setRf_hbm (s : State) (r : Reg) (f : RF) (n : Nat) : (s.setRf r f n).hbm = s.hbm := (rfl)
@[simp] theorem State.setRf_cores (s : State) (r : Reg) (f : RF) (n : Nat) : (s.setRf r f n).cores = s.cores := (rfl)
@[simp] theorem State.setRf_pcie (s : State) (r : Reg) (f : RF) (n : Nat) : (s.setRf r f n).pcie = s.pcie := (rfl)
@[simp] theorem State.setRf_pod (s : State) (r : Reg) (f : RF) (n : Nat) : (s.setRf r f n).pod = s.pod := (rfl)
@[simp] theorem State.setRf_d2d (s : State) (r : Reg) (f : RF) (n : Nat) : (s.setRf r f n).d2d = s.d2d := (rfl)
@[simp] theorem State.setRf_stops (s : State) (r : Reg) (f : RF) (n : Nat) : (s.setRf r f n).stops = s.stops := (rfl)
@[simp] theorem State.setRf_board (s : State) (r : Reg) (f : RF) (n : Nat) : (s.setRf r f n).board = s.board := (rfl)
@[simp] theorem State.setRf_fuses (s : State) (r : Reg) (f : RF) (n : Nat) : (s.setRf r f n).fuses = s.fuses := (rfl)
@[simp] theorem State.setRf_boot (s : State) (r : Reg) (f : RF) (n : Nat) : (s.setRf r f n).boot = s.boot := (rfl)
@[simp] theorem State.setRf_power (s : State) (r : Reg) (f : RF) (n : Nat) : (s.setRf r f n).power = s.power := (rfl)
@[simp] theorem State.setRf_doe (s : State) (r : Reg) (f : RF) (n : Nat) : (s.setRf r f n).doe = s.doe := (rfl)
@[simp] theorem State.setRf_obs (s : State) (r : Reg) (f : RF) (n : Nat) : (s.setRf r f n).obs = s.obs := (rfl)
@[simp] theorem State.setRf_sideband (s : State) (r : Reg) (f : RF) (n : Nat) : (s.setRf r f n).sideband = s.sideband := (rfl)
@[simp] theorem State.setRf_tap (s : State) (r : Reg) (f : RF) (n : Nat) : (s.setRf r f n).tap = s.tap := (rfl)
@[simp] theorem State.setRf_outbox (s : State) (r : Reg) (f : RF) (n : Nat) : (s.setRf r f n).outbox = s.outbox := (rfl)

/-! ### State.satRf -/

@[simp] theorem State.satRf_pending (s : State) (r : Reg) (f : RF) (n : Nat) : (s.satRf r f n).pending = s.pending := (rfl)
@[simp] theorem State.satRf_free (s : State) (r : Reg) (f : RF) (n : Nat) : (s.satRf r f n).free = s.free := (rfl)
@[simp] theorem State.satRf_acCount (s : State) (r : Reg) (f : RF) (n : Nat) : (s.satRf r f n).acCount = s.acCount := (rfl)
@[simp] theorem State.satRf_time (s : State) (r : Reg) (f : RF) (n : Nat) : (s.satRf r f n).time = s.time := (rfl)
@[simp] theorem State.satRf_timeFrac (s : State) (r : Reg) (f : RF) (n : Nat) : (s.satRf r f n).timeFrac = s.timeFrac := (rfl)
@[simp] theorem State.satRf_errSeq (s : State) (r : Reg) (f : RF) (n : Nat) : (s.satRf r f n).errSeq = s.errSeq := (rfl)
@[simp] theorem State.satRf_mem (s : State) (r : Reg) (f : RF) (n : Nat) : (s.satRf r f n).mem = s.mem := (rfl)
@[simp] theorem State.satRf_clusters (s : State) (r : Reg) (f : RF) (n : Nat) : (s.satRf r f n).clusters = s.clusters := (rfl)
@[simp] theorem State.satRf_grants (s : State) (r : Reg) (f : RF) (n : Nat) : (s.satRf r f n).grants = s.grants := (rfl)
@[simp] theorem State.satRf_launches (s : State) (r : Reg) (f : RF) (n : Nat) : (s.satRf r f n).launches = s.launches := (rfl)
@[simp] theorem State.satRf_nextLaunch (s : State) (r : Reg) (f : RF) (n : Nat) : (s.satRf r f n).nextLaunch = s.nextLaunch := (rfl)
@[simp] theorem State.satRf_ctxs (s : State) (r : Reg) (f : RF) (n : Nat) : (s.satRf r f n).ctxs = s.ctxs := (rfl)
@[simp] theorem State.satRf_queues (s : State) (r : Reg) (f : RF) (n : Nat) : (s.satRf r f n).queues = s.queues := (rfl)
@[simp] theorem State.satRf_xlt (s : State) (r : Reg) (f : RF) (n : Nat) : (s.satRf r f n).xlt = s.xlt := (rfl)
@[simp] theorem State.satRf_coh (s : State) (r : Reg) (f : RF) (n : Nat) : (s.satRf r f n).coh = s.coh := (rfl)
@[simp] theorem State.satRf_hbm (s : State) (r : Reg) (f : RF) (n : Nat) : (s.satRf r f n).hbm = s.hbm := (rfl)
@[simp] theorem State.satRf_cores (s : State) (r : Reg) (f : RF) (n : Nat) : (s.satRf r f n).cores = s.cores := (rfl)
@[simp] theorem State.satRf_pcie (s : State) (r : Reg) (f : RF) (n : Nat) : (s.satRf r f n).pcie = s.pcie := (rfl)
@[simp] theorem State.satRf_pod (s : State) (r : Reg) (f : RF) (n : Nat) : (s.satRf r f n).pod = s.pod := (rfl)
@[simp] theorem State.satRf_d2d (s : State) (r : Reg) (f : RF) (n : Nat) : (s.satRf r f n).d2d = s.d2d := (rfl)
@[simp] theorem State.satRf_stops (s : State) (r : Reg) (f : RF) (n : Nat) : (s.satRf r f n).stops = s.stops := (rfl)
@[simp] theorem State.satRf_board (s : State) (r : Reg) (f : RF) (n : Nat) : (s.satRf r f n).board = s.board := (rfl)
@[simp] theorem State.satRf_fuses (s : State) (r : Reg) (f : RF) (n : Nat) : (s.satRf r f n).fuses = s.fuses := (rfl)
@[simp] theorem State.satRf_boot (s : State) (r : Reg) (f : RF) (n : Nat) : (s.satRf r f n).boot = s.boot := (rfl)
@[simp] theorem State.satRf_power (s : State) (r : Reg) (f : RF) (n : Nat) : (s.satRf r f n).power = s.power := (rfl)
@[simp] theorem State.satRf_doe (s : State) (r : Reg) (f : RF) (n : Nat) : (s.satRf r f n).doe = s.doe := (rfl)
@[simp] theorem State.satRf_obs (s : State) (r : Reg) (f : RF) (n : Nat) : (s.satRf r f n).obs = s.obs := (rfl)
@[simp] theorem State.satRf_sideband (s : State) (r : Reg) (f : RF) (n : Nat) : (s.satRf r f n).sideband = s.sideband := (rfl)
@[simp] theorem State.satRf_tap (s : State) (r : Reg) (f : RF) (n : Nat) : (s.satRf r f n).tap = s.tap := (rfl)
@[simp] theorem State.satRf_outbox (s : State) (r : Reg) (f : RF) (n : Nat) : (s.satRf r f n).outbox = s.outbox := (rfl)

/-! ### State.wrapRf -/

@[simp] theorem State.wrapRf_pending (s : State) (r : Reg) (f : RF) (n : Nat) : (s.wrapRf r f n).pending = s.pending := (rfl)
@[simp] theorem State.wrapRf_free (s : State) (r : Reg) (f : RF) (n : Nat) : (s.wrapRf r f n).free = s.free := (rfl)
@[simp] theorem State.wrapRf_acCount (s : State) (r : Reg) (f : RF) (n : Nat) : (s.wrapRf r f n).acCount = s.acCount := (rfl)
@[simp] theorem State.wrapRf_time (s : State) (r : Reg) (f : RF) (n : Nat) : (s.wrapRf r f n).time = s.time := (rfl)
@[simp] theorem State.wrapRf_timeFrac (s : State) (r : Reg) (f : RF) (n : Nat) : (s.wrapRf r f n).timeFrac = s.timeFrac := (rfl)
@[simp] theorem State.wrapRf_errSeq (s : State) (r : Reg) (f : RF) (n : Nat) : (s.wrapRf r f n).errSeq = s.errSeq := (rfl)
@[simp] theorem State.wrapRf_mem (s : State) (r : Reg) (f : RF) (n : Nat) : (s.wrapRf r f n).mem = s.mem := (rfl)
@[simp] theorem State.wrapRf_clusters (s : State) (r : Reg) (f : RF) (n : Nat) : (s.wrapRf r f n).clusters = s.clusters := (rfl)
@[simp] theorem State.wrapRf_grants (s : State) (r : Reg) (f : RF) (n : Nat) : (s.wrapRf r f n).grants = s.grants := (rfl)
@[simp] theorem State.wrapRf_launches (s : State) (r : Reg) (f : RF) (n : Nat) : (s.wrapRf r f n).launches = s.launches := (rfl)
@[simp] theorem State.wrapRf_nextLaunch (s : State) (r : Reg) (f : RF) (n : Nat) : (s.wrapRf r f n).nextLaunch = s.nextLaunch := (rfl)
@[simp] theorem State.wrapRf_ctxs (s : State) (r : Reg) (f : RF) (n : Nat) : (s.wrapRf r f n).ctxs = s.ctxs := (rfl)
@[simp] theorem State.wrapRf_queues (s : State) (r : Reg) (f : RF) (n : Nat) : (s.wrapRf r f n).queues = s.queues := (rfl)
@[simp] theorem State.wrapRf_xlt (s : State) (r : Reg) (f : RF) (n : Nat) : (s.wrapRf r f n).xlt = s.xlt := (rfl)
@[simp] theorem State.wrapRf_coh (s : State) (r : Reg) (f : RF) (n : Nat) : (s.wrapRf r f n).coh = s.coh := (rfl)
@[simp] theorem State.wrapRf_hbm (s : State) (r : Reg) (f : RF) (n : Nat) : (s.wrapRf r f n).hbm = s.hbm := (rfl)
@[simp] theorem State.wrapRf_cores (s : State) (r : Reg) (f : RF) (n : Nat) : (s.wrapRf r f n).cores = s.cores := (rfl)
@[simp] theorem State.wrapRf_pcie (s : State) (r : Reg) (f : RF) (n : Nat) : (s.wrapRf r f n).pcie = s.pcie := (rfl)
@[simp] theorem State.wrapRf_pod (s : State) (r : Reg) (f : RF) (n : Nat) : (s.wrapRf r f n).pod = s.pod := (rfl)
@[simp] theorem State.wrapRf_d2d (s : State) (r : Reg) (f : RF) (n : Nat) : (s.wrapRf r f n).d2d = s.d2d := (rfl)
@[simp] theorem State.wrapRf_stops (s : State) (r : Reg) (f : RF) (n : Nat) : (s.wrapRf r f n).stops = s.stops := (rfl)
@[simp] theorem State.wrapRf_board (s : State) (r : Reg) (f : RF) (n : Nat) : (s.wrapRf r f n).board = s.board := (rfl)
@[simp] theorem State.wrapRf_fuses (s : State) (r : Reg) (f : RF) (n : Nat) : (s.wrapRf r f n).fuses = s.fuses := (rfl)
@[simp] theorem State.wrapRf_boot (s : State) (r : Reg) (f : RF) (n : Nat) : (s.wrapRf r f n).boot = s.boot := (rfl)
@[simp] theorem State.wrapRf_power (s : State) (r : Reg) (f : RF) (n : Nat) : (s.wrapRf r f n).power = s.power := (rfl)
@[simp] theorem State.wrapRf_doe (s : State) (r : Reg) (f : RF) (n : Nat) : (s.wrapRf r f n).doe = s.doe := (rfl)
@[simp] theorem State.wrapRf_obs (s : State) (r : Reg) (f : RF) (n : Nat) : (s.wrapRf r f n).obs = s.obs := (rfl)
@[simp] theorem State.wrapRf_sideband (s : State) (r : Reg) (f : RF) (n : Nat) : (s.wrapRf r f n).sideband = s.sideband := (rfl)
@[simp] theorem State.wrapRf_tap (s : State) (r : Reg) (f : RF) (n : Nat) : (s.wrapRf r f n).tap = s.tap := (rfl)
@[simp] theorem State.wrapRf_outbox (s : State) (r : Reg) (f : RF) (n : Nat) : (s.wrapRf r f n).outbox = s.outbox := (rfl)

/-! ### State.setBit -/

@[simp] theorem State.setBit_pending (s : State) (r : Reg) (n : Nat) : (s.setBit r n).pending = s.pending := (rfl)
@[simp] theorem State.setBit_free (s : State) (r : Reg) (n : Nat) : (s.setBit r n).free = s.free := (rfl)
@[simp] theorem State.setBit_acCount (s : State) (r : Reg) (n : Nat) : (s.setBit r n).acCount = s.acCount := (rfl)
@[simp] theorem State.setBit_time (s : State) (r : Reg) (n : Nat) : (s.setBit r n).time = s.time := (rfl)
@[simp] theorem State.setBit_timeFrac (s : State) (r : Reg) (n : Nat) : (s.setBit r n).timeFrac = s.timeFrac := (rfl)
@[simp] theorem State.setBit_errSeq (s : State) (r : Reg) (n : Nat) : (s.setBit r n).errSeq = s.errSeq := (rfl)
@[simp] theorem State.setBit_mem (s : State) (r : Reg) (n : Nat) : (s.setBit r n).mem = s.mem := (rfl)
@[simp] theorem State.setBit_clusters (s : State) (r : Reg) (n : Nat) : (s.setBit r n).clusters = s.clusters := (rfl)
@[simp] theorem State.setBit_grants (s : State) (r : Reg) (n : Nat) : (s.setBit r n).grants = s.grants := (rfl)
@[simp] theorem State.setBit_launches (s : State) (r : Reg) (n : Nat) : (s.setBit r n).launches = s.launches := (rfl)
@[simp] theorem State.setBit_nextLaunch (s : State) (r : Reg) (n : Nat) : (s.setBit r n).nextLaunch = s.nextLaunch := (rfl)
@[simp] theorem State.setBit_ctxs (s : State) (r : Reg) (n : Nat) : (s.setBit r n).ctxs = s.ctxs := (rfl)
@[simp] theorem State.setBit_queues (s : State) (r : Reg) (n : Nat) : (s.setBit r n).queues = s.queues := (rfl)
@[simp] theorem State.setBit_xlt (s : State) (r : Reg) (n : Nat) : (s.setBit r n).xlt = s.xlt := (rfl)
@[simp] theorem State.setBit_coh (s : State) (r : Reg) (n : Nat) : (s.setBit r n).coh = s.coh := (rfl)
@[simp] theorem State.setBit_hbm (s : State) (r : Reg) (n : Nat) : (s.setBit r n).hbm = s.hbm := (rfl)
@[simp] theorem State.setBit_cores (s : State) (r : Reg) (n : Nat) : (s.setBit r n).cores = s.cores := (rfl)
@[simp] theorem State.setBit_pcie (s : State) (r : Reg) (n : Nat) : (s.setBit r n).pcie = s.pcie := (rfl)
@[simp] theorem State.setBit_pod (s : State) (r : Reg) (n : Nat) : (s.setBit r n).pod = s.pod := (rfl)
@[simp] theorem State.setBit_d2d (s : State) (r : Reg) (n : Nat) : (s.setBit r n).d2d = s.d2d := (rfl)
@[simp] theorem State.setBit_stops (s : State) (r : Reg) (n : Nat) : (s.setBit r n).stops = s.stops := (rfl)
@[simp] theorem State.setBit_board (s : State) (r : Reg) (n : Nat) : (s.setBit r n).board = s.board := (rfl)
@[simp] theorem State.setBit_fuses (s : State) (r : Reg) (n : Nat) : (s.setBit r n).fuses = s.fuses := (rfl)
@[simp] theorem State.setBit_boot (s : State) (r : Reg) (n : Nat) : (s.setBit r n).boot = s.boot := (rfl)
@[simp] theorem State.setBit_power (s : State) (r : Reg) (n : Nat) : (s.setBit r n).power = s.power := (rfl)
@[simp] theorem State.setBit_doe (s : State) (r : Reg) (n : Nat) : (s.setBit r n).doe = s.doe := (rfl)
@[simp] theorem State.setBit_obs (s : State) (r : Reg) (n : Nat) : (s.setBit r n).obs = s.obs := (rfl)
@[simp] theorem State.setBit_sideband (s : State) (r : Reg) (n : Nat) : (s.setBit r n).sideband = s.sideband := (rfl)
@[simp] theorem State.setBit_tap (s : State) (r : Reg) (n : Nat) : (s.setBit r n).tap = s.tap := (rfl)
@[simp] theorem State.setBit_outbox (s : State) (r : Reg) (n : Nat) : (s.setBit r n).outbox = s.outbox := (rfl)

/-! ### State.clearBit -/

@[simp] theorem State.clearBit_pending (s : State) (r : Reg) (n : Nat) : (s.clearBit r n).pending = s.pending := (rfl)
@[simp] theorem State.clearBit_free (s : State) (r : Reg) (n : Nat) : (s.clearBit r n).free = s.free := (rfl)
@[simp] theorem State.clearBit_acCount (s : State) (r : Reg) (n : Nat) : (s.clearBit r n).acCount = s.acCount := (rfl)
@[simp] theorem State.clearBit_time (s : State) (r : Reg) (n : Nat) : (s.clearBit r n).time = s.time := (rfl)
@[simp] theorem State.clearBit_timeFrac (s : State) (r : Reg) (n : Nat) : (s.clearBit r n).timeFrac = s.timeFrac := (rfl)
@[simp] theorem State.clearBit_errSeq (s : State) (r : Reg) (n : Nat) : (s.clearBit r n).errSeq = s.errSeq := (rfl)
@[simp] theorem State.clearBit_mem (s : State) (r : Reg) (n : Nat) : (s.clearBit r n).mem = s.mem := (rfl)
@[simp] theorem State.clearBit_clusters (s : State) (r : Reg) (n : Nat) : (s.clearBit r n).clusters = s.clusters := (rfl)
@[simp] theorem State.clearBit_grants (s : State) (r : Reg) (n : Nat) : (s.clearBit r n).grants = s.grants := (rfl)
@[simp] theorem State.clearBit_launches (s : State) (r : Reg) (n : Nat) : (s.clearBit r n).launches = s.launches := (rfl)
@[simp] theorem State.clearBit_nextLaunch (s : State) (r : Reg) (n : Nat) : (s.clearBit r n).nextLaunch = s.nextLaunch := (rfl)
@[simp] theorem State.clearBit_ctxs (s : State) (r : Reg) (n : Nat) : (s.clearBit r n).ctxs = s.ctxs := (rfl)
@[simp] theorem State.clearBit_queues (s : State) (r : Reg) (n : Nat) : (s.clearBit r n).queues = s.queues := (rfl)
@[simp] theorem State.clearBit_xlt (s : State) (r : Reg) (n : Nat) : (s.clearBit r n).xlt = s.xlt := (rfl)
@[simp] theorem State.clearBit_coh (s : State) (r : Reg) (n : Nat) : (s.clearBit r n).coh = s.coh := (rfl)
@[simp] theorem State.clearBit_hbm (s : State) (r : Reg) (n : Nat) : (s.clearBit r n).hbm = s.hbm := (rfl)
@[simp] theorem State.clearBit_cores (s : State) (r : Reg) (n : Nat) : (s.clearBit r n).cores = s.cores := (rfl)
@[simp] theorem State.clearBit_pcie (s : State) (r : Reg) (n : Nat) : (s.clearBit r n).pcie = s.pcie := (rfl)
@[simp] theorem State.clearBit_pod (s : State) (r : Reg) (n : Nat) : (s.clearBit r n).pod = s.pod := (rfl)
@[simp] theorem State.clearBit_d2d (s : State) (r : Reg) (n : Nat) : (s.clearBit r n).d2d = s.d2d := (rfl)
@[simp] theorem State.clearBit_stops (s : State) (r : Reg) (n : Nat) : (s.clearBit r n).stops = s.stops := (rfl)
@[simp] theorem State.clearBit_board (s : State) (r : Reg) (n : Nat) : (s.clearBit r n).board = s.board := (rfl)
@[simp] theorem State.clearBit_fuses (s : State) (r : Reg) (n : Nat) : (s.clearBit r n).fuses = s.fuses := (rfl)
@[simp] theorem State.clearBit_boot (s : State) (r : Reg) (n : Nat) : (s.clearBit r n).boot = s.boot := (rfl)
@[simp] theorem State.clearBit_power (s : State) (r : Reg) (n : Nat) : (s.clearBit r n).power = s.power := (rfl)
@[simp] theorem State.clearBit_doe (s : State) (r : Reg) (n : Nat) : (s.clearBit r n).doe = s.doe := (rfl)
@[simp] theorem State.clearBit_obs (s : State) (r : Reg) (n : Nat) : (s.clearBit r n).obs = s.obs := (rfl)
@[simp] theorem State.clearBit_sideband (s : State) (r : Reg) (n : Nat) : (s.clearBit r n).sideband = s.sideband := (rfl)
@[simp] theorem State.clearBit_tap (s : State) (r : Reg) (n : Nat) : (s.clearBit r n).tap = s.tap := (rfl)
@[simp] theorem State.clearBit_outbox (s : State) (r : Reg) (n : Nat) : (s.clearBit r n).outbox = s.outbox := (rfl)

/-! ### State.setCluster -/

@[simp] theorem State.setCluster_pending (s : State) (c : Nat) (k : Cluster) : (s.setCluster c k).pending = s.pending := (rfl)
@[simp] theorem State.setCluster_free (s : State) (c : Nat) (k : Cluster) : (s.setCluster c k).free = s.free := (rfl)
@[simp] theorem State.setCluster_acCount (s : State) (c : Nat) (k : Cluster) : (s.setCluster c k).acCount = s.acCount := (rfl)
@[simp] theorem State.setCluster_time (s : State) (c : Nat) (k : Cluster) : (s.setCluster c k).time = s.time := (rfl)
@[simp] theorem State.setCluster_timeFrac (s : State) (c : Nat) (k : Cluster) : (s.setCluster c k).timeFrac = s.timeFrac := (rfl)
@[simp] theorem State.setCluster_errSeq (s : State) (c : Nat) (k : Cluster) : (s.setCluster c k).errSeq = s.errSeq := (rfl)
@[simp] theorem State.setCluster_regs (s : State) (c : Nat) (k : Cluster) : (s.setCluster c k).regs = s.regs := (rfl)
@[simp] theorem State.setCluster_mem (s : State) (c : Nat) (k : Cluster) : (s.setCluster c k).mem = s.mem := (rfl)
@[simp] theorem State.setCluster_grants (s : State) (c : Nat) (k : Cluster) : (s.setCluster c k).grants = s.grants := (rfl)
@[simp] theorem State.setCluster_launches (s : State) (c : Nat) (k : Cluster) : (s.setCluster c k).launches = s.launches := (rfl)
@[simp] theorem State.setCluster_nextLaunch (s : State) (c : Nat) (k : Cluster) : (s.setCluster c k).nextLaunch = s.nextLaunch := (rfl)
@[simp] theorem State.setCluster_ctxs (s : State) (c : Nat) (k : Cluster) : (s.setCluster c k).ctxs = s.ctxs := (rfl)
@[simp] theorem State.setCluster_queues (s : State) (c : Nat) (k : Cluster) : (s.setCluster c k).queues = s.queues := (rfl)
@[simp] theorem State.setCluster_xlt (s : State) (c : Nat) (k : Cluster) : (s.setCluster c k).xlt = s.xlt := (rfl)
@[simp] theorem State.setCluster_coh (s : State) (c : Nat) (k : Cluster) : (s.setCluster c k).coh = s.coh := (rfl)
@[simp] theorem State.setCluster_hbm (s : State) (c : Nat) (k : Cluster) : (s.setCluster c k).hbm = s.hbm := (rfl)
@[simp] theorem State.setCluster_cores (s : State) (c : Nat) (k : Cluster) : (s.setCluster c k).cores = s.cores := (rfl)
@[simp] theorem State.setCluster_pcie (s : State) (c : Nat) (k : Cluster) : (s.setCluster c k).pcie = s.pcie := (rfl)
@[simp] theorem State.setCluster_pod (s : State) (c : Nat) (k : Cluster) : (s.setCluster c k).pod = s.pod := (rfl)
@[simp] theorem State.setCluster_d2d (s : State) (c : Nat) (k : Cluster) : (s.setCluster c k).d2d = s.d2d := (rfl)
@[simp] theorem State.setCluster_stops (s : State) (c : Nat) (k : Cluster) : (s.setCluster c k).stops = s.stops := (rfl)
@[simp] theorem State.setCluster_board (s : State) (c : Nat) (k : Cluster) : (s.setCluster c k).board = s.board := (rfl)
@[simp] theorem State.setCluster_fuses (s : State) (c : Nat) (k : Cluster) : (s.setCluster c k).fuses = s.fuses := (rfl)
@[simp] theorem State.setCluster_boot (s : State) (c : Nat) (k : Cluster) : (s.setCluster c k).boot = s.boot := (rfl)
@[simp] theorem State.setCluster_power (s : State) (c : Nat) (k : Cluster) : (s.setCluster c k).power = s.power := (rfl)
@[simp] theorem State.setCluster_doe (s : State) (c : Nat) (k : Cluster) : (s.setCluster c k).doe = s.doe := (rfl)
@[simp] theorem State.setCluster_obs (s : State) (c : Nat) (k : Cluster) : (s.setCluster c k).obs = s.obs := (rfl)
@[simp] theorem State.setCluster_sideband (s : State) (c : Nat) (k : Cluster) : (s.setCluster c k).sideband = s.sideband := (rfl)
@[simp] theorem State.setCluster_tap (s : State) (c : Nat) (k : Cluster) : (s.setCluster c k).tap = s.tap := (rfl)
@[simp] theorem State.setCluster_outbox (s : State) (c : Nat) (k : Cluster) : (s.setCluster c k).outbox = s.outbox := (rfl)

/-! ### State.setRope -/

@[simp] theorem State.setRope_pending (s : State) (c n : Nat) (r : Rope) : (s.setRope c n r).pending = s.pending := (rfl)
@[simp] theorem State.setRope_free (s : State) (c n : Nat) (r : Rope) : (s.setRope c n r).free = s.free := (rfl)
@[simp] theorem State.setRope_acCount (s : State) (c n : Nat) (r : Rope) : (s.setRope c n r).acCount = s.acCount := (rfl)
@[simp] theorem State.setRope_time (s : State) (c n : Nat) (r : Rope) : (s.setRope c n r).time = s.time := (rfl)
@[simp] theorem State.setRope_timeFrac (s : State) (c n : Nat) (r : Rope) : (s.setRope c n r).timeFrac = s.timeFrac := (rfl)
@[simp] theorem State.setRope_errSeq (s : State) (c n : Nat) (r : Rope) : (s.setRope c n r).errSeq = s.errSeq := (rfl)
@[simp] theorem State.setRope_regs (s : State) (c n : Nat) (r : Rope) : (s.setRope c n r).regs = s.regs := (rfl)
@[simp] theorem State.setRope_mem (s : State) (c n : Nat) (r : Rope) : (s.setRope c n r).mem = s.mem := (rfl)
@[simp] theorem State.setRope_grants (s : State) (c n : Nat) (r : Rope) : (s.setRope c n r).grants = s.grants := (rfl)
@[simp] theorem State.setRope_launches (s : State) (c n : Nat) (r : Rope) : (s.setRope c n r).launches = s.launches := (rfl)
@[simp] theorem State.setRope_nextLaunch (s : State) (c n : Nat) (r : Rope) : (s.setRope c n r).nextLaunch = s.nextLaunch := (rfl)
@[simp] theorem State.setRope_ctxs (s : State) (c n : Nat) (r : Rope) : (s.setRope c n r).ctxs = s.ctxs := (rfl)
@[simp] theorem State.setRope_queues (s : State) (c n : Nat) (r : Rope) : (s.setRope c n r).queues = s.queues := (rfl)
@[simp] theorem State.setRope_xlt (s : State) (c n : Nat) (r : Rope) : (s.setRope c n r).xlt = s.xlt := (rfl)
@[simp] theorem State.setRope_coh (s : State) (c n : Nat) (r : Rope) : (s.setRope c n r).coh = s.coh := (rfl)
@[simp] theorem State.setRope_hbm (s : State) (c n : Nat) (r : Rope) : (s.setRope c n r).hbm = s.hbm := (rfl)
@[simp] theorem State.setRope_cores (s : State) (c n : Nat) (r : Rope) : (s.setRope c n r).cores = s.cores := (rfl)
@[simp] theorem State.setRope_pcie (s : State) (c n : Nat) (r : Rope) : (s.setRope c n r).pcie = s.pcie := (rfl)
@[simp] theorem State.setRope_pod (s : State) (c n : Nat) (r : Rope) : (s.setRope c n r).pod = s.pod := (rfl)
@[simp] theorem State.setRope_d2d (s : State) (c n : Nat) (r : Rope) : (s.setRope c n r).d2d = s.d2d := (rfl)
@[simp] theorem State.setRope_stops (s : State) (c n : Nat) (r : Rope) : (s.setRope c n r).stops = s.stops := (rfl)
@[simp] theorem State.setRope_board (s : State) (c n : Nat) (r : Rope) : (s.setRope c n r).board = s.board := (rfl)
@[simp] theorem State.setRope_fuses (s : State) (c n : Nat) (r : Rope) : (s.setRope c n r).fuses = s.fuses := (rfl)
@[simp] theorem State.setRope_boot (s : State) (c n : Nat) (r : Rope) : (s.setRope c n r).boot = s.boot := (rfl)
@[simp] theorem State.setRope_power (s : State) (c n : Nat) (r : Rope) : (s.setRope c n r).power = s.power := (rfl)
@[simp] theorem State.setRope_doe (s : State) (c n : Nat) (r : Rope) : (s.setRope c n r).doe = s.doe := (rfl)
@[simp] theorem State.setRope_obs (s : State) (c n : Nat) (r : Rope) : (s.setRope c n r).obs = s.obs := (rfl)
@[simp] theorem State.setRope_sideband (s : State) (c n : Nat) (r : Rope) : (s.setRope c n r).sideband = s.sideband := (rfl)
@[simp] theorem State.setRope_tap (s : State) (c n : Nat) (r : Rope) : (s.setRope c n r).tap = s.tap := (rfl)
@[simp] theorem State.setRope_outbox (s : State) (c n : Nat) (r : Rope) : (s.setRope c n r).outbox = s.outbox := (rfl)

/-! ### State.setParty -/

@[simp] theorem State.setParty_pending (s : State) (c n : Nat) (p : Party) : (s.setParty c n p).pending = s.pending := (rfl)
@[simp] theorem State.setParty_free (s : State) (c n : Nat) (p : Party) : (s.setParty c n p).free = s.free := (rfl)
@[simp] theorem State.setParty_acCount (s : State) (c n : Nat) (p : Party) : (s.setParty c n p).acCount = s.acCount := (rfl)
@[simp] theorem State.setParty_time (s : State) (c n : Nat) (p : Party) : (s.setParty c n p).time = s.time := (rfl)
@[simp] theorem State.setParty_timeFrac (s : State) (c n : Nat) (p : Party) : (s.setParty c n p).timeFrac = s.timeFrac := (rfl)
@[simp] theorem State.setParty_errSeq (s : State) (c n : Nat) (p : Party) : (s.setParty c n p).errSeq = s.errSeq := (rfl)
@[simp] theorem State.setParty_regs (s : State) (c n : Nat) (p : Party) : (s.setParty c n p).regs = s.regs := (rfl)
@[simp] theorem State.setParty_mem (s : State) (c n : Nat) (p : Party) : (s.setParty c n p).mem = s.mem := (rfl)
@[simp] theorem State.setParty_grants (s : State) (c n : Nat) (p : Party) : (s.setParty c n p).grants = s.grants := (rfl)
@[simp] theorem State.setParty_launches (s : State) (c n : Nat) (p : Party) : (s.setParty c n p).launches = s.launches := (rfl)
@[simp] theorem State.setParty_nextLaunch (s : State) (c n : Nat) (p : Party) : (s.setParty c n p).nextLaunch = s.nextLaunch := (rfl)
@[simp] theorem State.setParty_ctxs (s : State) (c n : Nat) (p : Party) : (s.setParty c n p).ctxs = s.ctxs := (rfl)
@[simp] theorem State.setParty_queues (s : State) (c n : Nat) (p : Party) : (s.setParty c n p).queues = s.queues := (rfl)
@[simp] theorem State.setParty_xlt (s : State) (c n : Nat) (p : Party) : (s.setParty c n p).xlt = s.xlt := (rfl)
@[simp] theorem State.setParty_coh (s : State) (c n : Nat) (p : Party) : (s.setParty c n p).coh = s.coh := (rfl)
@[simp] theorem State.setParty_hbm (s : State) (c n : Nat) (p : Party) : (s.setParty c n p).hbm = s.hbm := (rfl)
@[simp] theorem State.setParty_cores (s : State) (c n : Nat) (p : Party) : (s.setParty c n p).cores = s.cores := (rfl)
@[simp] theorem State.setParty_pcie (s : State) (c n : Nat) (p : Party) : (s.setParty c n p).pcie = s.pcie := (rfl)
@[simp] theorem State.setParty_pod (s : State) (c n : Nat) (p : Party) : (s.setParty c n p).pod = s.pod := (rfl)
@[simp] theorem State.setParty_d2d (s : State) (c n : Nat) (p : Party) : (s.setParty c n p).d2d = s.d2d := (rfl)
@[simp] theorem State.setParty_stops (s : State) (c n : Nat) (p : Party) : (s.setParty c n p).stops = s.stops := (rfl)
@[simp] theorem State.setParty_board (s : State) (c n : Nat) (p : Party) : (s.setParty c n p).board = s.board := (rfl)
@[simp] theorem State.setParty_fuses (s : State) (c n : Nat) (p : Party) : (s.setParty c n p).fuses = s.fuses := (rfl)
@[simp] theorem State.setParty_boot (s : State) (c n : Nat) (p : Party) : (s.setParty c n p).boot = s.boot := (rfl)
@[simp] theorem State.setParty_power (s : State) (c n : Nat) (p : Party) : (s.setParty c n p).power = s.power := (rfl)
@[simp] theorem State.setParty_doe (s : State) (c n : Nat) (p : Party) : (s.setParty c n p).doe = s.doe := (rfl)
@[simp] theorem State.setParty_obs (s : State) (c n : Nat) (p : Party) : (s.setParty c n p).obs = s.obs := (rfl)
@[simp] theorem State.setParty_sideband (s : State) (c n : Nat) (p : Party) : (s.setParty c n p).sideband = s.sideband := (rfl)
@[simp] theorem State.setParty_tap (s : State) (c n : Nat) (p : Party) : (s.setParty c n p).tap = s.tap := (rfl)
@[simp] theorem State.setParty_outbox (s : State) (c n : Nat) (p : Party) : (s.setParty c n p).outbox = s.outbox := (rfl)

/-! ### State.mapClusters -/

@[simp] theorem State.mapClusters_pending (s : State) (f : Nat → Cluster → Cluster) : (s.mapClusters f).pending = s.pending := (rfl)
@[simp] theorem State.mapClusters_free (s : State) (f : Nat → Cluster → Cluster) : (s.mapClusters f).free = s.free := (rfl)
@[simp] theorem State.mapClusters_acCount (s : State) (f : Nat → Cluster → Cluster) : (s.mapClusters f).acCount = s.acCount := (rfl)
@[simp] theorem State.mapClusters_time (s : State) (f : Nat → Cluster → Cluster) : (s.mapClusters f).time = s.time := (rfl)
@[simp] theorem State.mapClusters_timeFrac (s : State) (f : Nat → Cluster → Cluster) : (s.mapClusters f).timeFrac = s.timeFrac := (rfl)
@[simp] theorem State.mapClusters_errSeq (s : State) (f : Nat → Cluster → Cluster) : (s.mapClusters f).errSeq = s.errSeq := (rfl)
@[simp] theorem State.mapClusters_regs (s : State) (f : Nat → Cluster → Cluster) : (s.mapClusters f).regs = s.regs := (rfl)
@[simp] theorem State.mapClusters_mem (s : State) (f : Nat → Cluster → Cluster) : (s.mapClusters f).mem = s.mem := (rfl)
@[simp] theorem State.mapClusters_grants (s : State) (f : Nat → Cluster → Cluster) : (s.mapClusters f).grants = s.grants := (rfl)
@[simp] theorem State.mapClusters_launches (s : State) (f : Nat → Cluster → Cluster) : (s.mapClusters f).launches = s.launches := (rfl)
@[simp] theorem State.mapClusters_nextLaunch (s : State) (f : Nat → Cluster → Cluster) : (s.mapClusters f).nextLaunch = s.nextLaunch := (rfl)
@[simp] theorem State.mapClusters_ctxs (s : State) (f : Nat → Cluster → Cluster) : (s.mapClusters f).ctxs = s.ctxs := (rfl)
@[simp] theorem State.mapClusters_queues (s : State) (f : Nat → Cluster → Cluster) : (s.mapClusters f).queues = s.queues := (rfl)
@[simp] theorem State.mapClusters_xlt (s : State) (f : Nat → Cluster → Cluster) : (s.mapClusters f).xlt = s.xlt := (rfl)
@[simp] theorem State.mapClusters_coh (s : State) (f : Nat → Cluster → Cluster) : (s.mapClusters f).coh = s.coh := (rfl)
@[simp] theorem State.mapClusters_hbm (s : State) (f : Nat → Cluster → Cluster) : (s.mapClusters f).hbm = s.hbm := (rfl)
@[simp] theorem State.mapClusters_cores (s : State) (f : Nat → Cluster → Cluster) : (s.mapClusters f).cores = s.cores := (rfl)
@[simp] theorem State.mapClusters_pcie (s : State) (f : Nat → Cluster → Cluster) : (s.mapClusters f).pcie = s.pcie := (rfl)
@[simp] theorem State.mapClusters_pod (s : State) (f : Nat → Cluster → Cluster) : (s.mapClusters f).pod = s.pod := (rfl)
@[simp] theorem State.mapClusters_d2d (s : State) (f : Nat → Cluster → Cluster) : (s.mapClusters f).d2d = s.d2d := (rfl)
@[simp] theorem State.mapClusters_stops (s : State) (f : Nat → Cluster → Cluster) : (s.mapClusters f).stops = s.stops := (rfl)
@[simp] theorem State.mapClusters_board (s : State) (f : Nat → Cluster → Cluster) : (s.mapClusters f).board = s.board := (rfl)
@[simp] theorem State.mapClusters_fuses (s : State) (f : Nat → Cluster → Cluster) : (s.mapClusters f).fuses = s.fuses := (rfl)
@[simp] theorem State.mapClusters_boot (s : State) (f : Nat → Cluster → Cluster) : (s.mapClusters f).boot = s.boot := (rfl)
@[simp] theorem State.mapClusters_power (s : State) (f : Nat → Cluster → Cluster) : (s.mapClusters f).power = s.power := (rfl)
@[simp] theorem State.mapClusters_doe (s : State) (f : Nat → Cluster → Cluster) : (s.mapClusters f).doe = s.doe := (rfl)
@[simp] theorem State.mapClusters_obs (s : State) (f : Nat → Cluster → Cluster) : (s.mapClusters f).obs = s.obs := (rfl)
@[simp] theorem State.mapClusters_sideband (s : State) (f : Nat → Cluster → Cluster) : (s.mapClusters f).sideband = s.sideband := (rfl)
@[simp] theorem State.mapClusters_tap (s : State) (f : Nat → Cluster → Cluster) : (s.mapClusters f).tap = s.tap := (rfl)
@[simp] theorem State.mapClusters_outbox (s : State) (f : Nat → Cluster → Cluster) : (s.mapClusters f).outbox = s.outbox := (rfl)

/-! ### State.setAgent -/

@[simp] theorem State.setAgent_pending (s : State) (a : Nat) (g : CAgent) : (s.setAgent a g).pending = s.pending := (rfl)
@[simp] theorem State.setAgent_free (s : State) (a : Nat) (g : CAgent) : (s.setAgent a g).free = s.free := (rfl)
@[simp] theorem State.setAgent_acCount (s : State) (a : Nat) (g : CAgent) : (s.setAgent a g).acCount = s.acCount := (rfl)
@[simp] theorem State.setAgent_time (s : State) (a : Nat) (g : CAgent) : (s.setAgent a g).time = s.time := (rfl)
@[simp] theorem State.setAgent_timeFrac (s : State) (a : Nat) (g : CAgent) : (s.setAgent a g).timeFrac = s.timeFrac := (rfl)
@[simp] theorem State.setAgent_errSeq (s : State) (a : Nat) (g : CAgent) : (s.setAgent a g).errSeq = s.errSeq := (rfl)
@[simp] theorem State.setAgent_regs (s : State) (a : Nat) (g : CAgent) : (s.setAgent a g).regs = s.regs := (rfl)
@[simp] theorem State.setAgent_mem (s : State) (a : Nat) (g : CAgent) : (s.setAgent a g).mem = s.mem := (rfl)
@[simp] theorem State.setAgent_clusters (s : State) (a : Nat) (g : CAgent) : (s.setAgent a g).clusters = s.clusters := (rfl)
@[simp] theorem State.setAgent_grants (s : State) (a : Nat) (g : CAgent) : (s.setAgent a g).grants = s.grants := (rfl)
@[simp] theorem State.setAgent_launches (s : State) (a : Nat) (g : CAgent) : (s.setAgent a g).launches = s.launches := (rfl)
@[simp] theorem State.setAgent_nextLaunch (s : State) (a : Nat) (g : CAgent) : (s.setAgent a g).nextLaunch = s.nextLaunch := (rfl)
@[simp] theorem State.setAgent_ctxs (s : State) (a : Nat) (g : CAgent) : (s.setAgent a g).ctxs = s.ctxs := (rfl)
@[simp] theorem State.setAgent_queues (s : State) (a : Nat) (g : CAgent) : (s.setAgent a g).queues = s.queues := (rfl)
@[simp] theorem State.setAgent_xlt (s : State) (a : Nat) (g : CAgent) : (s.setAgent a g).xlt = s.xlt := (rfl)
@[simp] theorem State.setAgent_hbm (s : State) (a : Nat) (g : CAgent) : (s.setAgent a g).hbm = s.hbm := (rfl)
@[simp] theorem State.setAgent_cores (s : State) (a : Nat) (g : CAgent) : (s.setAgent a g).cores = s.cores := (rfl)
@[simp] theorem State.setAgent_pcie (s : State) (a : Nat) (g : CAgent) : (s.setAgent a g).pcie = s.pcie := (rfl)
@[simp] theorem State.setAgent_pod (s : State) (a : Nat) (g : CAgent) : (s.setAgent a g).pod = s.pod := (rfl)
@[simp] theorem State.setAgent_d2d (s : State) (a : Nat) (g : CAgent) : (s.setAgent a g).d2d = s.d2d := (rfl)
@[simp] theorem State.setAgent_stops (s : State) (a : Nat) (g : CAgent) : (s.setAgent a g).stops = s.stops := (rfl)
@[simp] theorem State.setAgent_board (s : State) (a : Nat) (g : CAgent) : (s.setAgent a g).board = s.board := (rfl)
@[simp] theorem State.setAgent_fuses (s : State) (a : Nat) (g : CAgent) : (s.setAgent a g).fuses = s.fuses := (rfl)
@[simp] theorem State.setAgent_boot (s : State) (a : Nat) (g : CAgent) : (s.setAgent a g).boot = s.boot := (rfl)
@[simp] theorem State.setAgent_power (s : State) (a : Nat) (g : CAgent) : (s.setAgent a g).power = s.power := (rfl)
@[simp] theorem State.setAgent_doe (s : State) (a : Nat) (g : CAgent) : (s.setAgent a g).doe = s.doe := (rfl)
@[simp] theorem State.setAgent_obs (s : State) (a : Nat) (g : CAgent) : (s.setAgent a g).obs = s.obs := (rfl)
@[simp] theorem State.setAgent_sideband (s : State) (a : Nat) (g : CAgent) : (s.setAgent a g).sideband = s.sideband := (rfl)
@[simp] theorem State.setAgent_tap (s : State) (a : Nat) (g : CAgent) : (s.setAgent a g).tap = s.tap := (rfl)
@[simp] theorem State.setAgent_outbox (s : State) (a : Nat) (g : CAgent) : (s.setAgent a g).outbox = s.outbox := (rfl)

/-! ### State.setQueue -/

@[simp] theorem State.setQueue_pending (s : State) (n : Nat) (q : Queue) : (s.setQueue n q).pending = s.pending := (rfl)
@[simp] theorem State.setQueue_free (s : State) (n : Nat) (q : Queue) : (s.setQueue n q).free = s.free := (rfl)
@[simp] theorem State.setQueue_acCount (s : State) (n : Nat) (q : Queue) : (s.setQueue n q).acCount = s.acCount := (rfl)
@[simp] theorem State.setQueue_time (s : State) (n : Nat) (q : Queue) : (s.setQueue n q).time = s.time := (rfl)
@[simp] theorem State.setQueue_timeFrac (s : State) (n : Nat) (q : Queue) : (s.setQueue n q).timeFrac = s.timeFrac := (rfl)
@[simp] theorem State.setQueue_errSeq (s : State) (n : Nat) (q : Queue) : (s.setQueue n q).errSeq = s.errSeq := (rfl)
@[simp] theorem State.setQueue_regs (s : State) (n : Nat) (q : Queue) : (s.setQueue n q).regs = s.regs := (rfl)
@[simp] theorem State.setQueue_mem (s : State) (n : Nat) (q : Queue) : (s.setQueue n q).mem = s.mem := (rfl)
@[simp] theorem State.setQueue_clusters (s : State) (n : Nat) (q : Queue) : (s.setQueue n q).clusters = s.clusters := (rfl)
@[simp] theorem State.setQueue_grants (s : State) (n : Nat) (q : Queue) : (s.setQueue n q).grants = s.grants := (rfl)
@[simp] theorem State.setQueue_launches (s : State) (n : Nat) (q : Queue) : (s.setQueue n q).launches = s.launches := (rfl)
@[simp] theorem State.setQueue_nextLaunch (s : State) (n : Nat) (q : Queue) : (s.setQueue n q).nextLaunch = s.nextLaunch := (rfl)
@[simp] theorem State.setQueue_ctxs (s : State) (n : Nat) (q : Queue) : (s.setQueue n q).ctxs = s.ctxs := (rfl)
@[simp] theorem State.setQueue_xlt (s : State) (n : Nat) (q : Queue) : (s.setQueue n q).xlt = s.xlt := (rfl)
@[simp] theorem State.setQueue_coh (s : State) (n : Nat) (q : Queue) : (s.setQueue n q).coh = s.coh := (rfl)
@[simp] theorem State.setQueue_hbm (s : State) (n : Nat) (q : Queue) : (s.setQueue n q).hbm = s.hbm := (rfl)
@[simp] theorem State.setQueue_cores (s : State) (n : Nat) (q : Queue) : (s.setQueue n q).cores = s.cores := (rfl)
@[simp] theorem State.setQueue_pcie (s : State) (n : Nat) (q : Queue) : (s.setQueue n q).pcie = s.pcie := (rfl)
@[simp] theorem State.setQueue_pod (s : State) (n : Nat) (q : Queue) : (s.setQueue n q).pod = s.pod := (rfl)
@[simp] theorem State.setQueue_d2d (s : State) (n : Nat) (q : Queue) : (s.setQueue n q).d2d = s.d2d := (rfl)
@[simp] theorem State.setQueue_stops (s : State) (n : Nat) (q : Queue) : (s.setQueue n q).stops = s.stops := (rfl)
@[simp] theorem State.setQueue_board (s : State) (n : Nat) (q : Queue) : (s.setQueue n q).board = s.board := (rfl)
@[simp] theorem State.setQueue_fuses (s : State) (n : Nat) (q : Queue) : (s.setQueue n q).fuses = s.fuses := (rfl)
@[simp] theorem State.setQueue_boot (s : State) (n : Nat) (q : Queue) : (s.setQueue n q).boot = s.boot := (rfl)
@[simp] theorem State.setQueue_power (s : State) (n : Nat) (q : Queue) : (s.setQueue n q).power = s.power := (rfl)
@[simp] theorem State.setQueue_doe (s : State) (n : Nat) (q : Queue) : (s.setQueue n q).doe = s.doe := (rfl)
@[simp] theorem State.setQueue_obs (s : State) (n : Nat) (q : Queue) : (s.setQueue n q).obs = s.obs := (rfl)
@[simp] theorem State.setQueue_sideband (s : State) (n : Nat) (q : Queue) : (s.setQueue n q).sideband = s.sideband := (rfl)
@[simp] theorem State.setQueue_tap (s : State) (n : Nat) (q : Queue) : (s.setQueue n q).tap = s.tap := (rfl)
@[simp] theorem State.setQueue_outbox (s : State) (n : Nat) (q : Queue) : (s.setQueue n q).outbox = s.outbox := (rfl)

/-! ### State.setPeer -/

@[simp] theorem State.setPeer_pending (s : State) (n : Nat) (p : Peer) : (s.setPeer n p).pending = s.pending := (rfl)
@[simp] theorem State.setPeer_free (s : State) (n : Nat) (p : Peer) : (s.setPeer n p).free = s.free := (rfl)
@[simp] theorem State.setPeer_acCount (s : State) (n : Nat) (p : Peer) : (s.setPeer n p).acCount = s.acCount := (rfl)
@[simp] theorem State.setPeer_time (s : State) (n : Nat) (p : Peer) : (s.setPeer n p).time = s.time := (rfl)
@[simp] theorem State.setPeer_timeFrac (s : State) (n : Nat) (p : Peer) : (s.setPeer n p).timeFrac = s.timeFrac := (rfl)
@[simp] theorem State.setPeer_errSeq (s : State) (n : Nat) (p : Peer) : (s.setPeer n p).errSeq = s.errSeq := (rfl)
@[simp] theorem State.setPeer_regs (s : State) (n : Nat) (p : Peer) : (s.setPeer n p).regs = s.regs := (rfl)
@[simp] theorem State.setPeer_mem (s : State) (n : Nat) (p : Peer) : (s.setPeer n p).mem = s.mem := (rfl)
@[simp] theorem State.setPeer_clusters (s : State) (n : Nat) (p : Peer) : (s.setPeer n p).clusters = s.clusters := (rfl)
@[simp] theorem State.setPeer_grants (s : State) (n : Nat) (p : Peer) : (s.setPeer n p).grants = s.grants := (rfl)
@[simp] theorem State.setPeer_launches (s : State) (n : Nat) (p : Peer) : (s.setPeer n p).launches = s.launches := (rfl)
@[simp] theorem State.setPeer_nextLaunch (s : State) (n : Nat) (p : Peer) : (s.setPeer n p).nextLaunch = s.nextLaunch := (rfl)
@[simp] theorem State.setPeer_ctxs (s : State) (n : Nat) (p : Peer) : (s.setPeer n p).ctxs = s.ctxs := (rfl)
@[simp] theorem State.setPeer_queues (s : State) (n : Nat) (p : Peer) : (s.setPeer n p).queues = s.queues := (rfl)
@[simp] theorem State.setPeer_xlt (s : State) (n : Nat) (p : Peer) : (s.setPeer n p).xlt = s.xlt := (rfl)
@[simp] theorem State.setPeer_coh (s : State) (n : Nat) (p : Peer) : (s.setPeer n p).coh = s.coh := (rfl)
@[simp] theorem State.setPeer_hbm (s : State) (n : Nat) (p : Peer) : (s.setPeer n p).hbm = s.hbm := (rfl)
@[simp] theorem State.setPeer_cores (s : State) (n : Nat) (p : Peer) : (s.setPeer n p).cores = s.cores := (rfl)
@[simp] theorem State.setPeer_pcie (s : State) (n : Nat) (p : Peer) : (s.setPeer n p).pcie = s.pcie := (rfl)
@[simp] theorem State.setPeer_d2d (s : State) (n : Nat) (p : Peer) : (s.setPeer n p).d2d = s.d2d := (rfl)
@[simp] theorem State.setPeer_stops (s : State) (n : Nat) (p : Peer) : (s.setPeer n p).stops = s.stops := (rfl)
@[simp] theorem State.setPeer_board (s : State) (n : Nat) (p : Peer) : (s.setPeer n p).board = s.board := (rfl)
@[simp] theorem State.setPeer_fuses (s : State) (n : Nat) (p : Peer) : (s.setPeer n p).fuses = s.fuses := (rfl)
@[simp] theorem State.setPeer_boot (s : State) (n : Nat) (p : Peer) : (s.setPeer n p).boot = s.boot := (rfl)
@[simp] theorem State.setPeer_power (s : State) (n : Nat) (p : Peer) : (s.setPeer n p).power = s.power := (rfl)
@[simp] theorem State.setPeer_doe (s : State) (n : Nat) (p : Peer) : (s.setPeer n p).doe = s.doe := (rfl)
@[simp] theorem State.setPeer_obs (s : State) (n : Nat) (p : Peer) : (s.setPeer n p).obs = s.obs := (rfl)
@[simp] theorem State.setPeer_sideband (s : State) (n : Nat) (p : Peer) : (s.setPeer n p).sideband = s.sideband := (rfl)
@[simp] theorem State.setPeer_tap (s : State) (n : Nat) (p : Peer) : (s.setPeer n p).tap = s.tap := (rfl)
@[simp] theorem State.setPeer_outbox (s : State) (n : Nat) (p : Peer) : (s.setPeer n p).outbox = s.outbox := (rfl)

/-! ### State.setMuster -/

@[simp] theorem State.setMuster_pending (s : State) (n : Nat) (m : Muster) : (s.setMuster n m).pending = s.pending := (rfl)
@[simp] theorem State.setMuster_free (s : State) (n : Nat) (m : Muster) : (s.setMuster n m).free = s.free := (rfl)
@[simp] theorem State.setMuster_acCount (s : State) (n : Nat) (m : Muster) : (s.setMuster n m).acCount = s.acCount := (rfl)
@[simp] theorem State.setMuster_time (s : State) (n : Nat) (m : Muster) : (s.setMuster n m).time = s.time := (rfl)
@[simp] theorem State.setMuster_timeFrac (s : State) (n : Nat) (m : Muster) : (s.setMuster n m).timeFrac = s.timeFrac := (rfl)
@[simp] theorem State.setMuster_errSeq (s : State) (n : Nat) (m : Muster) : (s.setMuster n m).errSeq = s.errSeq := (rfl)
@[simp] theorem State.setMuster_regs (s : State) (n : Nat) (m : Muster) : (s.setMuster n m).regs = s.regs := (rfl)
@[simp] theorem State.setMuster_mem (s : State) (n : Nat) (m : Muster) : (s.setMuster n m).mem = s.mem := (rfl)
@[simp] theorem State.setMuster_clusters (s : State) (n : Nat) (m : Muster) : (s.setMuster n m).clusters = s.clusters := (rfl)
@[simp] theorem State.setMuster_grants (s : State) (n : Nat) (m : Muster) : (s.setMuster n m).grants = s.grants := (rfl)
@[simp] theorem State.setMuster_launches (s : State) (n : Nat) (m : Muster) : (s.setMuster n m).launches = s.launches := (rfl)
@[simp] theorem State.setMuster_nextLaunch (s : State) (n : Nat) (m : Muster) : (s.setMuster n m).nextLaunch = s.nextLaunch := (rfl)
@[simp] theorem State.setMuster_ctxs (s : State) (n : Nat) (m : Muster) : (s.setMuster n m).ctxs = s.ctxs := (rfl)
@[simp] theorem State.setMuster_queues (s : State) (n : Nat) (m : Muster) : (s.setMuster n m).queues = s.queues := (rfl)
@[simp] theorem State.setMuster_xlt (s : State) (n : Nat) (m : Muster) : (s.setMuster n m).xlt = s.xlt := (rfl)
@[simp] theorem State.setMuster_coh (s : State) (n : Nat) (m : Muster) : (s.setMuster n m).coh = s.coh := (rfl)
@[simp] theorem State.setMuster_hbm (s : State) (n : Nat) (m : Muster) : (s.setMuster n m).hbm = s.hbm := (rfl)
@[simp] theorem State.setMuster_cores (s : State) (n : Nat) (m : Muster) : (s.setMuster n m).cores = s.cores := (rfl)
@[simp] theorem State.setMuster_pcie (s : State) (n : Nat) (m : Muster) : (s.setMuster n m).pcie = s.pcie := (rfl)
@[simp] theorem State.setMuster_d2d (s : State) (n : Nat) (m : Muster) : (s.setMuster n m).d2d = s.d2d := (rfl)
@[simp] theorem State.setMuster_stops (s : State) (n : Nat) (m : Muster) : (s.setMuster n m).stops = s.stops := (rfl)
@[simp] theorem State.setMuster_board (s : State) (n : Nat) (m : Muster) : (s.setMuster n m).board = s.board := (rfl)
@[simp] theorem State.setMuster_fuses (s : State) (n : Nat) (m : Muster) : (s.setMuster n m).fuses = s.fuses := (rfl)
@[simp] theorem State.setMuster_boot (s : State) (n : Nat) (m : Muster) : (s.setMuster n m).boot = s.boot := (rfl)
@[simp] theorem State.setMuster_power (s : State) (n : Nat) (m : Muster) : (s.setMuster n m).power = s.power := (rfl)
@[simp] theorem State.setMuster_doe (s : State) (n : Nat) (m : Muster) : (s.setMuster n m).doe = s.doe := (rfl)
@[simp] theorem State.setMuster_obs (s : State) (n : Nat) (m : Muster) : (s.setMuster n m).obs = s.obs := (rfl)
@[simp] theorem State.setMuster_sideband (s : State) (n : Nat) (m : Muster) : (s.setMuster n m).sideband = s.sideband := (rfl)
@[simp] theorem State.setMuster_tap (s : State) (n : Nat) (m : Muster) : (s.setMuster n m).tap = s.tap := (rfl)
@[simp] theorem State.setMuster_outbox (s : State) (n : Nat) (m : Muster) : (s.setMuster n m).outbox = s.outbox := (rfl)

/-! ### State.setTraceQueue -/

@[simp] theorem State.setTraceQueue_pending (s : State) (n : Nat) (l : List (BitVec 256)) : (s.setTraceQueue n l).pending = s.pending := (rfl)
@[simp] theorem State.setTraceQueue_free (s : State) (n : Nat) (l : List (BitVec 256)) : (s.setTraceQueue n l).free = s.free := (rfl)
@[simp] theorem State.setTraceQueue_acCount (s : State) (n : Nat) (l : List (BitVec 256)) : (s.setTraceQueue n l).acCount = s.acCount := (rfl)
@[simp] theorem State.setTraceQueue_time (s : State) (n : Nat) (l : List (BitVec 256)) : (s.setTraceQueue n l).time = s.time := (rfl)
@[simp] theorem State.setTraceQueue_timeFrac (s : State) (n : Nat) (l : List (BitVec 256)) : (s.setTraceQueue n l).timeFrac = s.timeFrac := (rfl)
@[simp] theorem State.setTraceQueue_errSeq (s : State) (n : Nat) (l : List (BitVec 256)) : (s.setTraceQueue n l).errSeq = s.errSeq := (rfl)
@[simp] theorem State.setTraceQueue_regs (s : State) (n : Nat) (l : List (BitVec 256)) : (s.setTraceQueue n l).regs = s.regs := (rfl)
@[simp] theorem State.setTraceQueue_mem (s : State) (n : Nat) (l : List (BitVec 256)) : (s.setTraceQueue n l).mem = s.mem := (rfl)
@[simp] theorem State.setTraceQueue_clusters (s : State) (n : Nat) (l : List (BitVec 256)) : (s.setTraceQueue n l).clusters = s.clusters := (rfl)
@[simp] theorem State.setTraceQueue_grants (s : State) (n : Nat) (l : List (BitVec 256)) : (s.setTraceQueue n l).grants = s.grants := (rfl)
@[simp] theorem State.setTraceQueue_launches (s : State) (n : Nat) (l : List (BitVec 256)) : (s.setTraceQueue n l).launches = s.launches := (rfl)
@[simp] theorem State.setTraceQueue_nextLaunch (s : State) (n : Nat) (l : List (BitVec 256)) : (s.setTraceQueue n l).nextLaunch = s.nextLaunch := (rfl)
@[simp] theorem State.setTraceQueue_ctxs (s : State) (n : Nat) (l : List (BitVec 256)) : (s.setTraceQueue n l).ctxs = s.ctxs := (rfl)
@[simp] theorem State.setTraceQueue_queues (s : State) (n : Nat) (l : List (BitVec 256)) : (s.setTraceQueue n l).queues = s.queues := (rfl)
@[simp] theorem State.setTraceQueue_xlt (s : State) (n : Nat) (l : List (BitVec 256)) : (s.setTraceQueue n l).xlt = s.xlt := (rfl)
@[simp] theorem State.setTraceQueue_coh (s : State) (n : Nat) (l : List (BitVec 256)) : (s.setTraceQueue n l).coh = s.coh := (rfl)
@[simp] theorem State.setTraceQueue_hbm (s : State) (n : Nat) (l : List (BitVec 256)) : (s.setTraceQueue n l).hbm = s.hbm := (rfl)
@[simp] theorem State.setTraceQueue_cores (s : State) (n : Nat) (l : List (BitVec 256)) : (s.setTraceQueue n l).cores = s.cores := (rfl)
@[simp] theorem State.setTraceQueue_pcie (s : State) (n : Nat) (l : List (BitVec 256)) : (s.setTraceQueue n l).pcie = s.pcie := (rfl)
@[simp] theorem State.setTraceQueue_pod (s : State) (n : Nat) (l : List (BitVec 256)) : (s.setTraceQueue n l).pod = s.pod := (rfl)
@[simp] theorem State.setTraceQueue_d2d (s : State) (n : Nat) (l : List (BitVec 256)) : (s.setTraceQueue n l).d2d = s.d2d := (rfl)
@[simp] theorem State.setTraceQueue_stops (s : State) (n : Nat) (l : List (BitVec 256)) : (s.setTraceQueue n l).stops = s.stops := (rfl)
@[simp] theorem State.setTraceQueue_board (s : State) (n : Nat) (l : List (BitVec 256)) : (s.setTraceQueue n l).board = s.board := (rfl)
@[simp] theorem State.setTraceQueue_fuses (s : State) (n : Nat) (l : List (BitVec 256)) : (s.setTraceQueue n l).fuses = s.fuses := (rfl)
@[simp] theorem State.setTraceQueue_boot (s : State) (n : Nat) (l : List (BitVec 256)) : (s.setTraceQueue n l).boot = s.boot := (rfl)
@[simp] theorem State.setTraceQueue_power (s : State) (n : Nat) (l : List (BitVec 256)) : (s.setTraceQueue n l).power = s.power := (rfl)
@[simp] theorem State.setTraceQueue_doe (s : State) (n : Nat) (l : List (BitVec 256)) : (s.setTraceQueue n l).doe = s.doe := (rfl)
@[simp] theorem State.setTraceQueue_sideband (s : State) (n : Nat) (l : List (BitVec 256)) : (s.setTraceQueue n l).sideband = s.sideband := (rfl)
@[simp] theorem State.setTraceQueue_tap (s : State) (n : Nat) (l : List (BitVec 256)) : (s.setTraceQueue n l).tap = s.tap := (rfl)
@[simp] theorem State.setTraceQueue_outbox (s : State) (n : Nat) (l : List (BitVec 256)) : (s.setTraceQueue n l).outbox = s.outbox := (rfl)

/-! ### Counters change registers only -/

theorem State.setReg_regs_only (s t : State) (r : Reg) (v : Word) (h : ∃ q, t = { s with regs := q }) :
    ∃ q, t.setReg r v = { s with regs := q } := by
  obtain ⟨q, rfl⟩ := h
  exact ⟨_, rfl⟩

theorem State.bump_regs_only (s : State) (ctr ovf : Reg) (b n : Nat) :
    ∃ r, s.bump ctr ovf b n = { s with regs := r } := by
  have h : ∃ q, s.setRf ctr .value (s.rf ctr .value + n) = { s with regs := q } :=
    State.setReg_regs_only s s _ _ ⟨s.regs, rfl⟩
  unfold State.bump
  dsimp only
  split
  · exact State.setReg_regs_only _ _ _ _ (State.setReg_regs_only _ _ _ _ h)
  · exact h

theorem foldl_regs_only {α : Type} (f : State → α → State) (hf : ∀ s a, ∃ r, f s a = { s with regs := r })
    (l : List α) (s : State) : ∃ r, l.foldl f s = { s with regs := r } := by
  induction l generalizing s with
  | nil => exact ⟨s.regs, rfl⟩
  | cons a l ih =>
    obtain ⟨r, hr⟩ := hf s a
    obtain ⟨q, hq⟩ := ih (f s a)
    exact ⟨q, by rw [List.foldl_cons, hq, hr]⟩

theorem State.countCl_regs_only (s : State) (c ev ctx n : Nat) : ∃ r, s.countCl c ev ctx n = { s with regs := r } := by
  unfold State.countCl
  split
  · exact ⟨s.regs, rfl⟩
  · apply foldl_regs_only
    intro s a
    split
    · exact State.bump_regs_only ..
    · exact ⟨s.regs, rfl⟩

theorem State.countPkg_regs_only (s : State) (ev inst ctx n : Nat) :
    ∃ r, s.countPkg ev inst ctx n = { s with regs := r } := by
  unfold State.countPkg
  split
  · exact ⟨s.regs, rfl⟩
  · apply foldl_regs_only
    intro s a
    split
    · exact State.bump_regs_only ..
    · exact ⟨s.regs, rfl⟩

@[simp] theorem State.bump_pending (s : State) (ctr ovf : Reg) (b n : Nat) : (s.bump ctr ovf b n).pending = s.pending := by
  obtain ⟨r, h⟩ := s.bump_regs_only ctr ovf b n; rw [h]
@[simp] theorem State.bump_free (s : State) (ctr ovf : Reg) (b n : Nat) : (s.bump ctr ovf b n).free = s.free := by
  obtain ⟨r, h⟩ := s.bump_regs_only ctr ovf b n; rw [h]
@[simp] theorem State.bump_acCount (s : State) (ctr ovf : Reg) (b n : Nat) : (s.bump ctr ovf b n).acCount = s.acCount := by
  obtain ⟨r, h⟩ := s.bump_regs_only ctr ovf b n; rw [h]
@[simp] theorem State.bump_time (s : State) (ctr ovf : Reg) (b n : Nat) : (s.bump ctr ovf b n).time = s.time := by
  obtain ⟨r, h⟩ := s.bump_regs_only ctr ovf b n; rw [h]
@[simp] theorem State.bump_timeFrac (s : State) (ctr ovf : Reg) (b n : Nat) : (s.bump ctr ovf b n).timeFrac = s.timeFrac := by
  obtain ⟨r, h⟩ := s.bump_regs_only ctr ovf b n; rw [h]
@[simp] theorem State.bump_errSeq (s : State) (ctr ovf : Reg) (b n : Nat) : (s.bump ctr ovf b n).errSeq = s.errSeq := by
  obtain ⟨r, h⟩ := s.bump_regs_only ctr ovf b n; rw [h]
@[simp] theorem State.bump_mem (s : State) (ctr ovf : Reg) (b n : Nat) : (s.bump ctr ovf b n).mem = s.mem := by
  obtain ⟨r, h⟩ := s.bump_regs_only ctr ovf b n; rw [h]
@[simp] theorem State.bump_clusters (s : State) (ctr ovf : Reg) (b n : Nat) : (s.bump ctr ovf b n).clusters = s.clusters := by
  obtain ⟨r, h⟩ := s.bump_regs_only ctr ovf b n; rw [h]
@[simp] theorem State.bump_grants (s : State) (ctr ovf : Reg) (b n : Nat) : (s.bump ctr ovf b n).grants = s.grants := by
  obtain ⟨r, h⟩ := s.bump_regs_only ctr ovf b n; rw [h]
@[simp] theorem State.bump_launches (s : State) (ctr ovf : Reg) (b n : Nat) : (s.bump ctr ovf b n).launches = s.launches := by
  obtain ⟨r, h⟩ := s.bump_regs_only ctr ovf b n; rw [h]
@[simp] theorem State.bump_nextLaunch (s : State) (ctr ovf : Reg) (b n : Nat) : (s.bump ctr ovf b n).nextLaunch = s.nextLaunch := by
  obtain ⟨r, h⟩ := s.bump_regs_only ctr ovf b n; rw [h]
@[simp] theorem State.bump_ctxs (s : State) (ctr ovf : Reg) (b n : Nat) : (s.bump ctr ovf b n).ctxs = s.ctxs := by
  obtain ⟨r, h⟩ := s.bump_regs_only ctr ovf b n; rw [h]
@[simp] theorem State.bump_queues (s : State) (ctr ovf : Reg) (b n : Nat) : (s.bump ctr ovf b n).queues = s.queues := by
  obtain ⟨r, h⟩ := s.bump_regs_only ctr ovf b n; rw [h]
@[simp] theorem State.bump_xlt (s : State) (ctr ovf : Reg) (b n : Nat) : (s.bump ctr ovf b n).xlt = s.xlt := by
  obtain ⟨r, h⟩ := s.bump_regs_only ctr ovf b n; rw [h]
@[simp] theorem State.bump_coh (s : State) (ctr ovf : Reg) (b n : Nat) : (s.bump ctr ovf b n).coh = s.coh := by
  obtain ⟨r, h⟩ := s.bump_regs_only ctr ovf b n; rw [h]
@[simp] theorem State.bump_hbm (s : State) (ctr ovf : Reg) (b n : Nat) : (s.bump ctr ovf b n).hbm = s.hbm := by
  obtain ⟨r, h⟩ := s.bump_regs_only ctr ovf b n; rw [h]
@[simp] theorem State.bump_cores (s : State) (ctr ovf : Reg) (b n : Nat) : (s.bump ctr ovf b n).cores = s.cores := by
  obtain ⟨r, h⟩ := s.bump_regs_only ctr ovf b n; rw [h]
@[simp] theorem State.bump_pcie (s : State) (ctr ovf : Reg) (b n : Nat) : (s.bump ctr ovf b n).pcie = s.pcie := by
  obtain ⟨r, h⟩ := s.bump_regs_only ctr ovf b n; rw [h]
@[simp] theorem State.bump_pod (s : State) (ctr ovf : Reg) (b n : Nat) : (s.bump ctr ovf b n).pod = s.pod := by
  obtain ⟨r, h⟩ := s.bump_regs_only ctr ovf b n; rw [h]
@[simp] theorem State.bump_d2d (s : State) (ctr ovf : Reg) (b n : Nat) : (s.bump ctr ovf b n).d2d = s.d2d := by
  obtain ⟨r, h⟩ := s.bump_regs_only ctr ovf b n; rw [h]
@[simp] theorem State.bump_stops (s : State) (ctr ovf : Reg) (b n : Nat) : (s.bump ctr ovf b n).stops = s.stops := by
  obtain ⟨r, h⟩ := s.bump_regs_only ctr ovf b n; rw [h]
@[simp] theorem State.bump_board (s : State) (ctr ovf : Reg) (b n : Nat) : (s.bump ctr ovf b n).board = s.board := by
  obtain ⟨r, h⟩ := s.bump_regs_only ctr ovf b n; rw [h]
@[simp] theorem State.bump_fuses (s : State) (ctr ovf : Reg) (b n : Nat) : (s.bump ctr ovf b n).fuses = s.fuses := by
  obtain ⟨r, h⟩ := s.bump_regs_only ctr ovf b n; rw [h]
@[simp] theorem State.bump_boot (s : State) (ctr ovf : Reg) (b n : Nat) : (s.bump ctr ovf b n).boot = s.boot := by
  obtain ⟨r, h⟩ := s.bump_regs_only ctr ovf b n; rw [h]
@[simp] theorem State.bump_power (s : State) (ctr ovf : Reg) (b n : Nat) : (s.bump ctr ovf b n).power = s.power := by
  obtain ⟨r, h⟩ := s.bump_regs_only ctr ovf b n; rw [h]
@[simp] theorem State.bump_doe (s : State) (ctr ovf : Reg) (b n : Nat) : (s.bump ctr ovf b n).doe = s.doe := by
  obtain ⟨r, h⟩ := s.bump_regs_only ctr ovf b n; rw [h]
@[simp] theorem State.bump_obs (s : State) (ctr ovf : Reg) (b n : Nat) : (s.bump ctr ovf b n).obs = s.obs := by
  obtain ⟨r, h⟩ := s.bump_regs_only ctr ovf b n; rw [h]
@[simp] theorem State.bump_sideband (s : State) (ctr ovf : Reg) (b n : Nat) : (s.bump ctr ovf b n).sideband = s.sideband := by
  obtain ⟨r, h⟩ := s.bump_regs_only ctr ovf b n; rw [h]
@[simp] theorem State.bump_tap (s : State) (ctr ovf : Reg) (b n : Nat) : (s.bump ctr ovf b n).tap = s.tap := by
  obtain ⟨r, h⟩ := s.bump_regs_only ctr ovf b n; rw [h]
@[simp] theorem State.bump_outbox (s : State) (ctr ovf : Reg) (b n : Nat) : (s.bump ctr ovf b n).outbox = s.outbox := by
  obtain ⟨r, h⟩ := s.bump_regs_only ctr ovf b n; rw [h]

@[simp] theorem State.countCl_pending (s : State) (c ev ctx n : Nat) : (s.countCl c ev ctx n).pending = s.pending := by
  obtain ⟨r, h⟩ := s.countCl_regs_only c ev ctx n; rw [h]
@[simp] theorem State.countCl_free (s : State) (c ev ctx n : Nat) : (s.countCl c ev ctx n).free = s.free := by
  obtain ⟨r, h⟩ := s.countCl_regs_only c ev ctx n; rw [h]
@[simp] theorem State.countCl_acCount (s : State) (c ev ctx n : Nat) : (s.countCl c ev ctx n).acCount = s.acCount := by
  obtain ⟨r, h⟩ := s.countCl_regs_only c ev ctx n; rw [h]
@[simp] theorem State.countCl_time (s : State) (c ev ctx n : Nat) : (s.countCl c ev ctx n).time = s.time := by
  obtain ⟨r, h⟩ := s.countCl_regs_only c ev ctx n; rw [h]
@[simp] theorem State.countCl_timeFrac (s : State) (c ev ctx n : Nat) : (s.countCl c ev ctx n).timeFrac = s.timeFrac := by
  obtain ⟨r, h⟩ := s.countCl_regs_only c ev ctx n; rw [h]
@[simp] theorem State.countCl_errSeq (s : State) (c ev ctx n : Nat) : (s.countCl c ev ctx n).errSeq = s.errSeq := by
  obtain ⟨r, h⟩ := s.countCl_regs_only c ev ctx n; rw [h]
@[simp] theorem State.countCl_mem (s : State) (c ev ctx n : Nat) : (s.countCl c ev ctx n).mem = s.mem := by
  obtain ⟨r, h⟩ := s.countCl_regs_only c ev ctx n; rw [h]
@[simp] theorem State.countCl_clusters (s : State) (c ev ctx n : Nat) : (s.countCl c ev ctx n).clusters = s.clusters := by
  obtain ⟨r, h⟩ := s.countCl_regs_only c ev ctx n; rw [h]
@[simp] theorem State.countCl_grants (s : State) (c ev ctx n : Nat) : (s.countCl c ev ctx n).grants = s.grants := by
  obtain ⟨r, h⟩ := s.countCl_regs_only c ev ctx n; rw [h]
@[simp] theorem State.countCl_launches (s : State) (c ev ctx n : Nat) : (s.countCl c ev ctx n).launches = s.launches := by
  obtain ⟨r, h⟩ := s.countCl_regs_only c ev ctx n; rw [h]
@[simp] theorem State.countCl_nextLaunch (s : State) (c ev ctx n : Nat) : (s.countCl c ev ctx n).nextLaunch = s.nextLaunch := by
  obtain ⟨r, h⟩ := s.countCl_regs_only c ev ctx n; rw [h]
@[simp] theorem State.countCl_ctxs (s : State) (c ev ctx n : Nat) : (s.countCl c ev ctx n).ctxs = s.ctxs := by
  obtain ⟨r, h⟩ := s.countCl_regs_only c ev ctx n; rw [h]
@[simp] theorem State.countCl_queues (s : State) (c ev ctx n : Nat) : (s.countCl c ev ctx n).queues = s.queues := by
  obtain ⟨r, h⟩ := s.countCl_regs_only c ev ctx n; rw [h]
@[simp] theorem State.countCl_xlt (s : State) (c ev ctx n : Nat) : (s.countCl c ev ctx n).xlt = s.xlt := by
  obtain ⟨r, h⟩ := s.countCl_regs_only c ev ctx n; rw [h]
@[simp] theorem State.countCl_coh (s : State) (c ev ctx n : Nat) : (s.countCl c ev ctx n).coh = s.coh := by
  obtain ⟨r, h⟩ := s.countCl_regs_only c ev ctx n; rw [h]
@[simp] theorem State.countCl_hbm (s : State) (c ev ctx n : Nat) : (s.countCl c ev ctx n).hbm = s.hbm := by
  obtain ⟨r, h⟩ := s.countCl_regs_only c ev ctx n; rw [h]
@[simp] theorem State.countCl_cores (s : State) (c ev ctx n : Nat) : (s.countCl c ev ctx n).cores = s.cores := by
  obtain ⟨r, h⟩ := s.countCl_regs_only c ev ctx n; rw [h]
@[simp] theorem State.countCl_pcie (s : State) (c ev ctx n : Nat) : (s.countCl c ev ctx n).pcie = s.pcie := by
  obtain ⟨r, h⟩ := s.countCl_regs_only c ev ctx n; rw [h]
@[simp] theorem State.countCl_pod (s : State) (c ev ctx n : Nat) : (s.countCl c ev ctx n).pod = s.pod := by
  obtain ⟨r, h⟩ := s.countCl_regs_only c ev ctx n; rw [h]
@[simp] theorem State.countCl_d2d (s : State) (c ev ctx n : Nat) : (s.countCl c ev ctx n).d2d = s.d2d := by
  obtain ⟨r, h⟩ := s.countCl_regs_only c ev ctx n; rw [h]
@[simp] theorem State.countCl_stops (s : State) (c ev ctx n : Nat) : (s.countCl c ev ctx n).stops = s.stops := by
  obtain ⟨r, h⟩ := s.countCl_regs_only c ev ctx n; rw [h]
@[simp] theorem State.countCl_board (s : State) (c ev ctx n : Nat) : (s.countCl c ev ctx n).board = s.board := by
  obtain ⟨r, h⟩ := s.countCl_regs_only c ev ctx n; rw [h]
@[simp] theorem State.countCl_fuses (s : State) (c ev ctx n : Nat) : (s.countCl c ev ctx n).fuses = s.fuses := by
  obtain ⟨r, h⟩ := s.countCl_regs_only c ev ctx n; rw [h]
@[simp] theorem State.countCl_boot (s : State) (c ev ctx n : Nat) : (s.countCl c ev ctx n).boot = s.boot := by
  obtain ⟨r, h⟩ := s.countCl_regs_only c ev ctx n; rw [h]
@[simp] theorem State.countCl_power (s : State) (c ev ctx n : Nat) : (s.countCl c ev ctx n).power = s.power := by
  obtain ⟨r, h⟩ := s.countCl_regs_only c ev ctx n; rw [h]
@[simp] theorem State.countCl_doe (s : State) (c ev ctx n : Nat) : (s.countCl c ev ctx n).doe = s.doe := by
  obtain ⟨r, h⟩ := s.countCl_regs_only c ev ctx n; rw [h]
@[simp] theorem State.countCl_obs (s : State) (c ev ctx n : Nat) : (s.countCl c ev ctx n).obs = s.obs := by
  obtain ⟨r, h⟩ := s.countCl_regs_only c ev ctx n; rw [h]
@[simp] theorem State.countCl_sideband (s : State) (c ev ctx n : Nat) : (s.countCl c ev ctx n).sideband = s.sideband := by
  obtain ⟨r, h⟩ := s.countCl_regs_only c ev ctx n; rw [h]
@[simp] theorem State.countCl_tap (s : State) (c ev ctx n : Nat) : (s.countCl c ev ctx n).tap = s.tap := by
  obtain ⟨r, h⟩ := s.countCl_regs_only c ev ctx n; rw [h]
@[simp] theorem State.countCl_outbox (s : State) (c ev ctx n : Nat) : (s.countCl c ev ctx n).outbox = s.outbox := by
  obtain ⟨r, h⟩ := s.countCl_regs_only c ev ctx n; rw [h]

@[simp] theorem State.countPkg_pending (s : State) (ev inst ctx n : Nat) : (s.countPkg ev inst ctx n).pending = s.pending := by
  obtain ⟨r, h⟩ := s.countPkg_regs_only ev inst ctx n; rw [h]
@[simp] theorem State.countPkg_free (s : State) (ev inst ctx n : Nat) : (s.countPkg ev inst ctx n).free = s.free := by
  obtain ⟨r, h⟩ := s.countPkg_regs_only ev inst ctx n; rw [h]
@[simp] theorem State.countPkg_acCount (s : State) (ev inst ctx n : Nat) : (s.countPkg ev inst ctx n).acCount = s.acCount := by
  obtain ⟨r, h⟩ := s.countPkg_regs_only ev inst ctx n; rw [h]
@[simp] theorem State.countPkg_time (s : State) (ev inst ctx n : Nat) : (s.countPkg ev inst ctx n).time = s.time := by
  obtain ⟨r, h⟩ := s.countPkg_regs_only ev inst ctx n; rw [h]
@[simp] theorem State.countPkg_timeFrac (s : State) (ev inst ctx n : Nat) : (s.countPkg ev inst ctx n).timeFrac = s.timeFrac := by
  obtain ⟨r, h⟩ := s.countPkg_regs_only ev inst ctx n; rw [h]
@[simp] theorem State.countPkg_errSeq (s : State) (ev inst ctx n : Nat) : (s.countPkg ev inst ctx n).errSeq = s.errSeq := by
  obtain ⟨r, h⟩ := s.countPkg_regs_only ev inst ctx n; rw [h]
@[simp] theorem State.countPkg_mem (s : State) (ev inst ctx n : Nat) : (s.countPkg ev inst ctx n).mem = s.mem := by
  obtain ⟨r, h⟩ := s.countPkg_regs_only ev inst ctx n; rw [h]
@[simp] theorem State.countPkg_clusters (s : State) (ev inst ctx n : Nat) : (s.countPkg ev inst ctx n).clusters = s.clusters := by
  obtain ⟨r, h⟩ := s.countPkg_regs_only ev inst ctx n; rw [h]
@[simp] theorem State.countPkg_grants (s : State) (ev inst ctx n : Nat) : (s.countPkg ev inst ctx n).grants = s.grants := by
  obtain ⟨r, h⟩ := s.countPkg_regs_only ev inst ctx n; rw [h]
@[simp] theorem State.countPkg_launches (s : State) (ev inst ctx n : Nat) : (s.countPkg ev inst ctx n).launches = s.launches := by
  obtain ⟨r, h⟩ := s.countPkg_regs_only ev inst ctx n; rw [h]
@[simp] theorem State.countPkg_nextLaunch (s : State) (ev inst ctx n : Nat) : (s.countPkg ev inst ctx n).nextLaunch = s.nextLaunch := by
  obtain ⟨r, h⟩ := s.countPkg_regs_only ev inst ctx n; rw [h]
@[simp] theorem State.countPkg_ctxs (s : State) (ev inst ctx n : Nat) : (s.countPkg ev inst ctx n).ctxs = s.ctxs := by
  obtain ⟨r, h⟩ := s.countPkg_regs_only ev inst ctx n; rw [h]
@[simp] theorem State.countPkg_queues (s : State) (ev inst ctx n : Nat) : (s.countPkg ev inst ctx n).queues = s.queues := by
  obtain ⟨r, h⟩ := s.countPkg_regs_only ev inst ctx n; rw [h]
@[simp] theorem State.countPkg_xlt (s : State) (ev inst ctx n : Nat) : (s.countPkg ev inst ctx n).xlt = s.xlt := by
  obtain ⟨r, h⟩ := s.countPkg_regs_only ev inst ctx n; rw [h]
@[simp] theorem State.countPkg_coh (s : State) (ev inst ctx n : Nat) : (s.countPkg ev inst ctx n).coh = s.coh := by
  obtain ⟨r, h⟩ := s.countPkg_regs_only ev inst ctx n; rw [h]
@[simp] theorem State.countPkg_hbm (s : State) (ev inst ctx n : Nat) : (s.countPkg ev inst ctx n).hbm = s.hbm := by
  obtain ⟨r, h⟩ := s.countPkg_regs_only ev inst ctx n; rw [h]
@[simp] theorem State.countPkg_cores (s : State) (ev inst ctx n : Nat) : (s.countPkg ev inst ctx n).cores = s.cores := by
  obtain ⟨r, h⟩ := s.countPkg_regs_only ev inst ctx n; rw [h]
@[simp] theorem State.countPkg_pcie (s : State) (ev inst ctx n : Nat) : (s.countPkg ev inst ctx n).pcie = s.pcie := by
  obtain ⟨r, h⟩ := s.countPkg_regs_only ev inst ctx n; rw [h]
@[simp] theorem State.countPkg_pod (s : State) (ev inst ctx n : Nat) : (s.countPkg ev inst ctx n).pod = s.pod := by
  obtain ⟨r, h⟩ := s.countPkg_regs_only ev inst ctx n; rw [h]
@[simp] theorem State.countPkg_d2d (s : State) (ev inst ctx n : Nat) : (s.countPkg ev inst ctx n).d2d = s.d2d := by
  obtain ⟨r, h⟩ := s.countPkg_regs_only ev inst ctx n; rw [h]
@[simp] theorem State.countPkg_stops (s : State) (ev inst ctx n : Nat) : (s.countPkg ev inst ctx n).stops = s.stops := by
  obtain ⟨r, h⟩ := s.countPkg_regs_only ev inst ctx n; rw [h]
@[simp] theorem State.countPkg_board (s : State) (ev inst ctx n : Nat) : (s.countPkg ev inst ctx n).board = s.board := by
  obtain ⟨r, h⟩ := s.countPkg_regs_only ev inst ctx n; rw [h]
@[simp] theorem State.countPkg_fuses (s : State) (ev inst ctx n : Nat) : (s.countPkg ev inst ctx n).fuses = s.fuses := by
  obtain ⟨r, h⟩ := s.countPkg_regs_only ev inst ctx n; rw [h]
@[simp] theorem State.countPkg_boot (s : State) (ev inst ctx n : Nat) : (s.countPkg ev inst ctx n).boot = s.boot := by
  obtain ⟨r, h⟩ := s.countPkg_regs_only ev inst ctx n; rw [h]
@[simp] theorem State.countPkg_power (s : State) (ev inst ctx n : Nat) : (s.countPkg ev inst ctx n).power = s.power := by
  obtain ⟨r, h⟩ := s.countPkg_regs_only ev inst ctx n; rw [h]
@[simp] theorem State.countPkg_doe (s : State) (ev inst ctx n : Nat) : (s.countPkg ev inst ctx n).doe = s.doe := by
  obtain ⟨r, h⟩ := s.countPkg_regs_only ev inst ctx n; rw [h]
@[simp] theorem State.countPkg_obs (s : State) (ev inst ctx n : Nat) : (s.countPkg ev inst ctx n).obs = s.obs := by
  obtain ⟨r, h⟩ := s.countPkg_regs_only ev inst ctx n; rw [h]
@[simp] theorem State.countPkg_sideband (s : State) (ev inst ctx n : Nat) : (s.countPkg ev inst ctx n).sideband = s.sideband := by
  obtain ⟨r, h⟩ := s.countPkg_regs_only ev inst ctx n; rw [h]
@[simp] theorem State.countPkg_tap (s : State) (ev inst ctx n : Nat) : (s.countPkg ev inst ctx n).tap = s.tap := by
  obtain ⟨r, h⟩ := s.countPkg_regs_only ev inst ctx n; rw [h]
@[simp] theorem State.countPkg_outbox (s : State) (ev inst ctx n : Nat) : (s.countPkg ev inst ctx n).outbox = s.outbox := by
  obtain ⟨r, h⟩ := s.countPkg_regs_only ev inst ctx n; rw [h]

/-! ### Putting back the rope of an issue changes clusters only -/

theorem State.putRope_clusters_only (s : State) (k : IssueCtx) (r : Rope) :
    ∃ c, s.putRope k r = { s with clusters := c } := by
  unfold State.putRope
  split
  · exact ⟨_, rfl⟩
  · exact ⟨s.clusters, rfl⟩

@[simp] theorem State.finish_pending (s : State) (k : IssueCtx) (r : Rope) : (s.finish k r).pending = s.pending := by
  obtain ⟨c, h⟩ := s.putRope_clusters_only k r.next; rw [State.finish, h]
@[simp] theorem State.finish_free (s : State) (k : IssueCtx) (r : Rope) : (s.finish k r).free = s.free := by
  obtain ⟨c, h⟩ := s.putRope_clusters_only k r.next; rw [State.finish, h]
@[simp] theorem State.finish_acCount (s : State) (k : IssueCtx) (r : Rope) : (s.finish k r).acCount = s.acCount := by
  obtain ⟨c, h⟩ := s.putRope_clusters_only k r.next; rw [State.finish, h]
@[simp] theorem State.finish_time (s : State) (k : IssueCtx) (r : Rope) : (s.finish k r).time = s.time := by
  obtain ⟨c, h⟩ := s.putRope_clusters_only k r.next; rw [State.finish, h]
@[simp] theorem State.finish_timeFrac (s : State) (k : IssueCtx) (r : Rope) : (s.finish k r).timeFrac = s.timeFrac := by
  obtain ⟨c, h⟩ := s.putRope_clusters_only k r.next; rw [State.finish, h]
@[simp] theorem State.finish_errSeq (s : State) (k : IssueCtx) (r : Rope) : (s.finish k r).errSeq = s.errSeq := by
  obtain ⟨c, h⟩ := s.putRope_clusters_only k r.next; rw [State.finish, h]
@[simp] theorem State.finish_regs (s : State) (k : IssueCtx) (r : Rope) : (s.finish k r).regs = s.regs := by
  obtain ⟨c, h⟩ := s.putRope_clusters_only k r.next; rw [State.finish, h]
@[simp] theorem State.finish_mem (s : State) (k : IssueCtx) (r : Rope) : (s.finish k r).mem = s.mem := by
  obtain ⟨c, h⟩ := s.putRope_clusters_only k r.next; rw [State.finish, h]
@[simp] theorem State.finish_grants (s : State) (k : IssueCtx) (r : Rope) : (s.finish k r).grants = s.grants := by
  obtain ⟨c, h⟩ := s.putRope_clusters_only k r.next; rw [State.finish, h]
@[simp] theorem State.finish_launches (s : State) (k : IssueCtx) (r : Rope) : (s.finish k r).launches = s.launches := by
  obtain ⟨c, h⟩ := s.putRope_clusters_only k r.next; rw [State.finish, h]
@[simp] theorem State.finish_nextLaunch (s : State) (k : IssueCtx) (r : Rope) : (s.finish k r).nextLaunch = s.nextLaunch := by
  obtain ⟨c, h⟩ := s.putRope_clusters_only k r.next; rw [State.finish, h]
@[simp] theorem State.finish_ctxs (s : State) (k : IssueCtx) (r : Rope) : (s.finish k r).ctxs = s.ctxs := by
  obtain ⟨c, h⟩ := s.putRope_clusters_only k r.next; rw [State.finish, h]
@[simp] theorem State.finish_queues (s : State) (k : IssueCtx) (r : Rope) : (s.finish k r).queues = s.queues := by
  obtain ⟨c, h⟩ := s.putRope_clusters_only k r.next; rw [State.finish, h]
@[simp] theorem State.finish_xlt (s : State) (k : IssueCtx) (r : Rope) : (s.finish k r).xlt = s.xlt := by
  obtain ⟨c, h⟩ := s.putRope_clusters_only k r.next; rw [State.finish, h]
@[simp] theorem State.finish_coh (s : State) (k : IssueCtx) (r : Rope) : (s.finish k r).coh = s.coh := by
  obtain ⟨c, h⟩ := s.putRope_clusters_only k r.next; rw [State.finish, h]
@[simp] theorem State.finish_hbm (s : State) (k : IssueCtx) (r : Rope) : (s.finish k r).hbm = s.hbm := by
  obtain ⟨c, h⟩ := s.putRope_clusters_only k r.next; rw [State.finish, h]
@[simp] theorem State.finish_cores (s : State) (k : IssueCtx) (r : Rope) : (s.finish k r).cores = s.cores := by
  obtain ⟨c, h⟩ := s.putRope_clusters_only k r.next; rw [State.finish, h]
@[simp] theorem State.finish_pcie (s : State) (k : IssueCtx) (r : Rope) : (s.finish k r).pcie = s.pcie := by
  obtain ⟨c, h⟩ := s.putRope_clusters_only k r.next; rw [State.finish, h]
@[simp] theorem State.finish_pod (s : State) (k : IssueCtx) (r : Rope) : (s.finish k r).pod = s.pod := by
  obtain ⟨c, h⟩ := s.putRope_clusters_only k r.next; rw [State.finish, h]
@[simp] theorem State.finish_d2d (s : State) (k : IssueCtx) (r : Rope) : (s.finish k r).d2d = s.d2d := by
  obtain ⟨c, h⟩ := s.putRope_clusters_only k r.next; rw [State.finish, h]
@[simp] theorem State.finish_stops (s : State) (k : IssueCtx) (r : Rope) : (s.finish k r).stops = s.stops := by
  obtain ⟨c, h⟩ := s.putRope_clusters_only k r.next; rw [State.finish, h]
@[simp] theorem State.finish_board (s : State) (k : IssueCtx) (r : Rope) : (s.finish k r).board = s.board := by
  obtain ⟨c, h⟩ := s.putRope_clusters_only k r.next; rw [State.finish, h]
@[simp] theorem State.finish_fuses (s : State) (k : IssueCtx) (r : Rope) : (s.finish k r).fuses = s.fuses := by
  obtain ⟨c, h⟩ := s.putRope_clusters_only k r.next; rw [State.finish, h]
@[simp] theorem State.finish_boot (s : State) (k : IssueCtx) (r : Rope) : (s.finish k r).boot = s.boot := by
  obtain ⟨c, h⟩ := s.putRope_clusters_only k r.next; rw [State.finish, h]
@[simp] theorem State.finish_power (s : State) (k : IssueCtx) (r : Rope) : (s.finish k r).power = s.power := by
  obtain ⟨c, h⟩ := s.putRope_clusters_only k r.next; rw [State.finish, h]
@[simp] theorem State.finish_doe (s : State) (k : IssueCtx) (r : Rope) : (s.finish k r).doe = s.doe := by
  obtain ⟨c, h⟩ := s.putRope_clusters_only k r.next; rw [State.finish, h]
@[simp] theorem State.finish_obs (s : State) (k : IssueCtx) (r : Rope) : (s.finish k r).obs = s.obs := by
  obtain ⟨c, h⟩ := s.putRope_clusters_only k r.next; rw [State.finish, h]
@[simp] theorem State.finish_sideband (s : State) (k : IssueCtx) (r : Rope) : (s.finish k r).sideband = s.sideband := by
  obtain ⟨c, h⟩ := s.putRope_clusters_only k r.next; rw [State.finish, h]
@[simp] theorem State.finish_tap (s : State) (k : IssueCtx) (r : Rope) : (s.finish k r).tap = s.tap := by
  obtain ⟨c, h⟩ := s.putRope_clusters_only k r.next; rw [State.finish, h]
@[simp] theorem State.finish_outbox (s : State) (k : IssueCtx) (r : Rope) : (s.finish k r).outbox = s.outbox := by
  obtain ⟨c, h⟩ := s.putRope_clusters_only k r.next; rw [State.finish, h]

end Sys2Proof.Machine
end

