-- ==== Sys2Proof/Laws/Registers.lean ====
section
/-! SUPPORT. Laws of registers and their fields: a read after a write. -/

namespace Sys2Proof.Machine

/-! ### Fields of a number -/

theorem testBit_bits (x lo w j : Nat) : (bits x lo w).testBit j = (decide (j < w) && x.testBit (lo + j)) := by
  rw [bits, Nat.testBit_mod_two_pow, Nat.testBit_shiftRight]

/-- The bits of a number after a field of it is set. -/
theorem testBit_setBits (x lo w v j : Nat) :
    (setBits x lo w v).testBit j = if lo ≤ j ∧ j < lo + w then v.testBit (j - lo) else x.testBit j := by
  have h0 : x % 2 ^ (lo + w) = 2 ^ lo * bits x lo w + x % 2 ^ lo := by
    rw [bits, Nat.shiftRight_eq_div_pow, Nat.pow_add, Nat.mod_mul, Nat.add_comm]
  have h1 := Nat.div_add_mod x (2 ^ (lo + w))
  have e : setBits x lo w v = 2 ^ lo * (2 ^ w * (x / 2 ^ (lo + w)) + v % 2 ^ w) + x % 2 ^ lo := by
    unfold setBits
    rw [Nat.mul_add, ← Nat.mul_assoc, ← Nat.pow_add, Nat.mul_comm (bits x lo w), Nat.mul_comm (v % 2 ^ w)]
    omega
  rw [e, Nat.testBit_two_pow_mul_add _ (Nat.mod_lt _ (Nat.two_pow_pos lo))]
  by_cases h2 : j < lo
  · rw [if_pos h2, if_neg (by omega), Nat.testBit_mod_two_pow]
    simp [h2]
  · rw [if_neg h2, Nat.testBit_two_pow_mul_add _ (Nat.mod_lt _ (Nat.two_pow_pos w))]
    by_cases h3 : j - lo < w
    · rw [if_pos h3, if_pos (by omega), Nat.testBit_mod_two_pow]
      simp [h3]
    · rw [if_neg h3, if_neg (by omega), Nat.testBit_div_two_pow]
      congr 1
      omega

/-- A field read after it is set. -/
theorem bits_setBits (x lo w v : Nat) : bits (setBits x lo w v) lo w = v % 2 ^ w := by
  apply Nat.eq_of_testBit_eq
  intro j
  rw [testBit_bits, testBit_setBits, Nat.testBit_mod_two_pow]
  by_cases h : j < w
  · rw [if_pos (by omega)]
    simp [h]
  · simp [h]

/-- A field is not changed by another being set. -/
theorem bits_setBits_ne (x lo w v lo' w' : Nat) (h : lo' + w' ≤ lo ∨ lo + w ≤ lo') :
    bits (setBits x lo w v) lo' w' = bits x lo' w' := by
  apply Nat.eq_of_testBit_eq
  intro j
  rw [testBit_bits, testBit_bits, testBit_setBits]
  by_cases hj : j < w'
  · rw [if_neg (by omega)]
  · simp [hj]

/-! ### Fields of a word -/

theorem bits_mod (x n lo w : Nat) (h : lo + w ≤ n) : bits (x % 2 ^ n) lo w = bits x lo w := by
  apply Nat.eq_of_testBit_eq
  intro j
  rw [testBit_bits, testBit_bits, Nat.testBit_mod_two_pow]
  by_cases hj : j < w
  · simp [hj, show lo + j < n by omega]
  · simp [hj]

theorem fld_putFld (x : Word) (lo w v : Nat) (h : lo + w ≤ 64) : fld (putFld x lo w v) lo w = v % 2 ^ w := by
  rw [fld, putFld, BitVec.toNat_ofNat, bits_mod _ _ _ _ h, bits_setBits]

theorem fld_putFld_ne (x : Word) (lo w v lo' w' : Nat) (h : lo' + w' ≤ lo ∨ lo + w ≤ lo') (h' : lo' + w' ≤ 64) :
    fld (putFld x lo w v) lo' w' = fld x lo' w' := by
  rw [fld, putFld, BitVec.toNat_ofNat, bits_mod _ _ _ _ h', bits_setBits_ne _ _ _ _ _ _ h, fld]

theorem fld_lt (x : Word) (lo w : Nat) : fld x lo w < 2 ^ w := Nat.mod_lt _ (Nat.two_pow_pos w)

/-! ### Registers -/

@[simp] theorem State.reg_setReg_self (s : State) (r : Reg) (v : Word) : (s.setReg r v).reg r = v :=
  Table.get_set_self _ _ _ _

/-- A write of one register leaves every register of another address. -/
theorem State.reg_setReg_ne (s : State) (r r' : Reg) (v : Word) (h : r'.addr ≠ r.addr) :
    (s.setReg r v).reg r' = s.reg r' := by
  unfold State.reg State.setReg
  rw [Table.get_set_of_ne _ _ h]

end Sys2Proof.Machine
end

