-- ==== Sys2Proof/Laws/Fabric.lean ====
section
/-! SUPPORT. Laws of the coherent fabric: what its operations can change, and that memory keeps its canonical form. -/

namespace Sys2Proof.Machine

/-- `t` differs from `s` at most in registers, memory, the fabric, the stacks and the cores, and memory keeps its
canonical form. -/
def Fab (s t : State) : Prop :=
  (∃ r m c h k, t = { s with regs := r, mem := m, coh := c, hbm := h, cores := k }) ∧ (s.mem.wf = true → t.mem.wf = true)

theorem Fab.refl (s : State) : Fab s s := ⟨⟨_, _, _, _, _, rfl⟩, id⟩

theorem Fab.trans {s t u : State} (h1 : Fab s t) (h2 : Fab t u) : Fab s u := by
  obtain ⟨⟨r, m, c, h, k, rfl⟩, w1⟩ := h1
  obtain ⟨⟨r', m', c', h', k', rfl⟩, w2⟩ := h2
  exact ⟨⟨_, _, _, _, _, rfl⟩, fun w => w2 (w1 w)⟩

theorem Fab.coh {s t : State} (c : Coh) (h : Fab s t) : Fab s { t with coh := c } :=
  h.trans ⟨⟨_, _, _, _, _, rfl⟩, id⟩

theorem Fab.regs {s t u : State} (h : Fab s t) (hu : ∃ r, u = { t with regs := r }) : Fab s u := by
  obtain ⟨r, rfl⟩ := hu
  exact h.trans ⟨⟨_, _, _, _, _, rfl⟩, id⟩

theorem Fab.mem {s t : State} (m : Mem) (h : Fab s t) (w : t.mem.wf = true → m.wf = true) : Fab s { t with mem := m } :=
  h.trans ⟨⟨_, _, _, _, _, rfl⟩, w⟩

theorem Fab.foldl {α : Type} {s : State} {f : State → α → State} (hf : ∀ t a, Fab s t → Fab s (f t a)) (l : List α)
    (t : State) (h : Fab s t) : Fab s (l.foldl f t) := by
  induction l generalizing t with
  | nil => exact h
  | cons a l ih => exact ih _ (hf t a h)

/-! ### Plain updates -/

variable {s t : State}

theorem Fab.satRf {r : Reg} {f : RF} {n : Nat} (h : Fab s t) : Fab s (t.satRf r f n) := h.regs ⟨_, rfl⟩
theorem Fab.setReg {r : Reg} {v : Word} (h : Fab s t) : Fab s (t.setReg r v) := h.regs ⟨_, rfl⟩
theorem Fab.countPkg {a b c d : Nat} (h : Fab s t) : Fab s (t.countPkg a b c d) := h.regs (t.countPkg_regs_only a b c d)
theorem Fab.memLast {a b c d : Nat} (h : Fab s t) : Fab s (t.memLast a b c d) := h.setReg

theorem Fab.setAgent {a : Nat} {g : CAgent} (h : Fab s t) : Fab s (t.setAgent a g) := h.coh _
theorem Fab.mapCoh {f : Coh → Coh} (h : Fab s t) : Fab s (t.mapCoh f) := h.coh _
theorem Fab.cohSend {m : CMsg} (h : Fab s t) : Fab s (t.cohSend m) := h.coh _
theorem Fab.setCohReq {a l : Nat} {q : CReq} (h : Fab s t) : Fab s (t.setCohReq a l q) := h.coh _
theorem Fab.dropCohReq {a l : Nat} (h : Fab s t) : Fab s (t.dropCohReq a l) := h.coh _
theorem Fab.setLine {a l : Nat} {x : CLine} (h : Fab s t) : Fab s (t.setLine a l x) := h.coh _
theorem Fab.unreserve {a l : Nat} {b : Option Nat} (h : Fab s t) : Fab s (t.unreserve a l b) :=
  h.trans ⟨⟨_, _, _, _, _, rfl⟩, id⟩
theorem Fab.dropLine {a l : Nat} (h : Fab s t) : Fab s (t.dropLine a l) := (h.coh _).unreserve
theorem Fab.setWb {a l : Nat} {w : WbBuf} (h : Fab s t) : Fab s (t.setWb a l w) := h.coh _
theorem Fab.dropWb {a l : Nat} (h : Fab s t) : Fab s (t.dropWb a l) := h.coh _
theorem Fab.setTrans {l : Nat} {x : Trans} (h : Fab s t) : Fab s (t.setTrans l x) := h.coh _
theorem Fab.endTrans {l : Nat} (h : Fab s t) : Fab s (t.endTrans l) := h.coh _
theorem Fab.touchWay {a l w : Nat} {b : Bool} (h : Fab s t) : Fab s (t.touchWay a l w b) := h.coh _
theorem Fab.setCore {k : Nat} {c : Core} (h : Fab s t) : Fab s (t.setCore k c) := h.trans ⟨⟨_, _, _, _, _, rfl⟩, id⟩
theorem Fab.coreGets {k v : Nat} {r : Option Nat} (h : Fab s t) : Fab s (t.coreGets k v r) := h.setCore
theorem Fab.freeDir {l : Nat} (h : Fab s t) : Fab s (t.freeDir l) := h.coh _

theorem Fab.setDir {l o : Nat} {d : DirState} {p : List Nat} (h : Fab s t) : Fab s (t.setDir l d o p) := by
  unfold State.setDir; split <;> exact h.coh _

theorem Fab.setShared {l : Nat} {p : List Nat} (h : Fab s t) : Fab s (t.setShared l p) := by
  unfold State.setShared; split
  · exact h.freeDir
  · exact h.setDir

/-! ### The memory-side copy -/

theorem Fab.setSide {l : Nat} {x : SideLine} (h : Fab s t) : Fab s (t.setSide l x) := h.trans ⟨⟨_, _, _, _, _, rfl⟩, id⟩
theorem Fab.sideTake {l : Nat} {b : BitVec 4} (h : Fab s t) : Fab s (t.sideTake l b) := h.setSide

theorem Fab.rowAccess {a b : Nat} (h : Fab s t) : Fab s (t.rowAccess a b) := by
  unfold State.rowAccess; dsimp only; split
  · exact h
  · exact h.trans ⟨⟨_, _, _, _, _, rfl⟩, id⟩

theorem Fab.hbmBurst {k : Nat} (h : Fab s t) : Fab s (t.hbmBurst k) := h.rowAccess.countPkg
theorem Fab.hbmStore {k : Nat} (h : Fab s t) : Fab s (t.hbmStore k) := h.rowAccess.countPkg
theorem Fab.poisonRead {k : Nat} (h : Fab s t) : Fab s (t.poisonRead k) := h.satRf.memLast

theorem Fab.sideRead {l : Nat} {b : BitVec 4} (h : Fab s t) : Fab s (t.sideRead l b) := by
  refine Fab.sideTake (Fab.foldl (fun t i ht => ?_) _ _ h)
  split
  · split
    · exact ht.hbmBurst.poisonRead
    · exact ht.hbmBurst
  · exact ht

theorem Fab.sideFill {l : Nat} (h : Fab s t) : Fab s (t.sideFill l) := h.sideRead

/-- Reading at the memory-side copy leaves the memory as it is. -/
@[simp] theorem State.sideTake_mem (s : State) (l : Nat) (b : BitVec 4) : (s.sideTake l b).mem = s.mem := rfl
@[simp] theorem State.setSide_mem (s : State) (l : Nat) (x : SideLine) : (s.setSide l x).mem = s.mem := rfl
@[simp] theorem State.rowAccess_mem (s : State) (a b : Nat) : (s.rowAccess a b).mem = s.mem := by
  unfold State.rowAccess; dsimp only; split <;> rfl
@[simp] theorem State.hbmBurst_mem (s : State) (k : Nat) : (s.hbmBurst k).mem = s.mem := by simp [State.hbmBurst]
@[simp] theorem State.hbmStore_mem (s : State) (k : Nat) : (s.hbmStore k).mem = s.mem := by simp [State.hbmStore]
@[simp] theorem State.poisonRead_mem (s : State) (k : Nat) : (s.poisonRead k).mem = s.mem := by
  simp [State.poisonRead, State.memLast]

@[simp] theorem State.sideRead_mem (s : State) (l : Nat) (b : BitVec 4) : (s.sideRead l b).mem = s.mem := by
  unfold State.sideRead
  rw [State.sideTake_mem]
  refine foldl_keeps (P := fun t : State => t.mem = s.mem) (fun t i ht => ?_) _ _ rfl
  split
  · dsimp only; split
    · simpa using ht
    · simpa using ht
  · exact ht

@[simp] theorem State.sideFill_mem (s : State) (l : Nat) : (s.sideFill l).mem = s.mem := s.sideRead_mem l 15

/-- A write at the memory-side copy makes the change asked for. -/
@[simp] theorem State.sideStore_mem (s : State) (l : Nat) (a b : BitVec 4) (f : Mem → Mem) :
    (s.sideStore l a b f).mem = f s.mem := by simp [State.sideStore]

@[simp] theorem State.memWrite_mem (s : State) (l : Nat) (d : Line) (m : BitVec 128) :
    (s.memWrite l d m).mem = s.mem.writeLine l d m := by simp [State.memWrite]

@[simp] theorem State.memTake_mem (s : State) (l : Nat) (d : Line) (p : BitVec 4) :
    (s.memTake l d p).mem = (s.mem.writeBytes l d (BitVec.allOnes 128)).setPoison l 15 p := by simp [State.memTake]

theorem Fab.sideStore {l : Nat} {a b : BitVec 4} {f : Mem → Mem} (h : Fab s t)
    (w : ∀ m : Mem, m.wf = true → (f m).wf = true) : Fab s (t.sideStore l a b f) :=
  Fab.mem _ h.sideRead.sideTake.setSide (w _)

theorem Fab.memWrite {l : Nat} {d : Line} {m : BitVec 128} (h : Fab s t) : Fab s (t.memWrite l d m) :=
  h.sideStore fun _ w => Mem.writeLine_wf _ _ _ w

theorem Fab.memTake {l : Nat} {d : Line} {p : BitVec 4} (h : Fab s t) : Fab s (t.memTake l d p) :=
  h.sideStore fun _ w => Mem.setPoison_wf _ _ _ (Mem.writeBytes_wf _ _ _ w)

/-! ### Cores -/

theorem Fab.lineWrite {a l : Nat} {x : CLine} {d : Line} {m : BitVec 128} {w : Option Nat} (h : Fab s t) :
    Fab s (t.lineWrite a l x d m w) := h.setLine.unreserve

theorem Fab.coreLoad {k l o n : Nat} {x : CLine} {r : Option Nat} (h : Fab s t) : Fab s (t.coreLoad k l x o n r) := by
  unfold State.coreLoad; split
  · exact h.setCore
  · exact h.coreGets

theorem Fab.readUse {l : Nat} {x : CLine} {u : LineUse} (h : Fab s t) : Fab s (t.readUse l x u) := by
  unfold State.readUse; split
  · exact h.coreLoad
  · exact h

theorem Fab.writeUse {a l : Nat} {x : CLine} {u : LineUse} {d : Line} {m : BitVec 128} (h : Fab s t) :
    Fab s (t.writeUse a l x u d m) := by
  unfold State.writeUse; split
  · dsimp only; split
    · exact h.setLine.coreLoad
    · exact h.setLine.coreLoad.lineWrite
  · exact h.setLine.coreLoad
  · dsimp only; split
    · exact h.lineWrite.coreGets
    · exact h.setLine.coreGets
  · exact h.lineWrite

/-! ### Messages -/

theorem Fab.snoopAnswer {a l k : Nat} {d : SnpDest} {x : Option (Line × BitVec 4 × Bool)} (h : Fab s t) :
    Fab s (t.snoopAnswer a l k d x) := by
  unfold State.snoopAnswer; dsimp only; split
  · exact h.cohSend.cohSend
  · exact h.cohSend.cohSend
  · exact h.cohSend

theorem Fab.setCopy {a l : Nat} {w : Bool} {x : Option LineState} (h : Fab s t) : Fab s (t.setCopy a l w x) := by
  unfold State.setCopy; repeat' split
  all_goals first | exact h | exact h.setWb | exact h.setLine | exact h.dropLine

theorem Fab.takeSnpShr {a l : Nat} {d : SnpDest} (h : Fab s t) : Fab s (t.takeSnpShr a l d) := by
  unfold State.takeSnpShr; split
  · exact h.setCopy.snoopAnswer
  · exact h.snoopAnswer
  · exact h.setCopy.snoopAnswer
  · exact h.snoopAnswer

theorem Fab.takeSnpInv {a l : Nat} {d : SnpDest} (h : Fab s t) : Fab s (t.takeSnpInv a l d) := by
  unfold State.takeSnpInv; split
  · exact h.setCopy.snoopAnswer
  · exact h.setCopy.snoopAnswer
  · exact h.snoopAnswer

theorem Fab.takeSnpCur {a l : Nat} (h : Fab s t) : Fab s (t.takeSnpCur a l) := by
  unfold State.takeSnpCur; split <;> exact h.snoopAnswer

theorem Fab.homeData {a l : Nat} {g : Option LineState} (h : Fab s t) : Fab s (t.homeData a l g) := h.sideFill.cohSend

theorem Fab.homeAtomic {a l x : Nat} {o : HomeAtomic} (h : Fab s t) : Fab s (t.homeAtomic a l x o) := by
  unfold State.homeAtomic; dsimp only; split
  · split
    · exact h.sideFill.setCohReq
    · exact h.sideFill
  · exact h.sideFill.memWrite

theorem Fab.finishTrans {l : Nat} {x : Trans} (h : Fab s t) : Fab s (t.finishTrans l x) := by
  unfold State.finishTrans; dsimp only
  have home : ∀ {u : State} {g : Option LineState} {y : Trans}, Fab s u → Fab s ((u.homeData x.agent l g).setTrans l y) :=
    fun hu => hu.homeData.setTrans
  have granted : ∀ {u : State} {m : CMsg} {y : Trans}, Fab s u → Fab s ((u.cohSend m).setTrans l y) :=
    fun hu => hu.cohSend.setTrans
  have done : ∀ {u : State} {m : CMsg}, Fab s u → Fab s ((u.cohSend m).endTrans l) := fun hu => hu.cohSend.endTrans
  split
  · split
    · exact home h.setDir
    · split
      · exact home h.setDir
      · split
        · exact home h.setDir
        · split
          · exact granted h.setDir
          · split
            · exact granted h.setDir
            · exact home h.setDir
      · split
        · exact home h.setDir
        · exact granted h.setDir
  · split
    · exact home h.setDir
    · split
      · exact granted h.setDir
      · exact home h.setDir
  · split
    · exact home h.setDir
    · split
      · exact granted h.setDir
      · split
        · exact granted h.setDir
        · exact home h.setDir
  · split
    · split
      · exact done h.memTake.setWb.setShared
      · exact done h
    · exact done h
  · split
    · split
      · split
        · exact done h.memTake.setWb.setShared
        · exact done h.memTake.setWb
      · exact done h
    · exact done h
  · split
    · exact h.cohSend.endTrans
    · exact h.homeData.endTrans
  · exact done h.memWrite.freeDir
  · exact done h.homeAtomic.freeDir
  · exact h.satRf.freeDir.endTrans

theorem Fab.checkTrans {l : Nat} (h : Fab s t) : Fab s (t.checkTrans l) := by
  unfold State.checkTrans; split
  · split
    · exact h.finishTrans
    · exact h
  · exact h

theorem Fab.takeSnpRsp {a l k : Nat} {b : Bool} {x : Trans} (h : Fab s t) : Fab s (t.takeSnpRsp a l k b x) :=
  h.setTrans.checkTrans

theorem Fab.homeGets {l : Nat} {d : Line} {p : BitVec 4} (h : Fab s t) : Fab s (t.homeGets l d p) := by
  unfold State.homeGets; split
  · dsimp only; split
    · exact h.setTrans.checkTrans
    · exact h.memTake.setTrans.checkTrans
  · exact h.memTake

theorem Fab.install {a l : Nat} (h : Fab s t) : Fab s (t.install a l) := by
  unfold State.install; split
  · exact h
  · dsimp only; split
    · split
      · exact h.dropCohReq.touchWay.setLine.readUse.cohSend
      · exact h.dropCohReq.touchWay.writeUse.cohSend
    · exact h

theorem Fab.takeData {a l : Nat} {d : Line} {p : BitVec 4} {b : Bool} {g : Option LineState} (h : Fab s t) :
    Fab s (t.takeData a l d p b g) := by
  unfold State.takeData; split
  · split
    · exact h.dropCohReq
    · exact h.setCohReq.install
  · exact h

theorem Fab.takeCmp {a l : Nat} {g : Option LineState} (h : Fab s t) : Fab s (t.takeCmp a l g) := by
  unfold State.takeCmp; split
  · exact h.setCohReq.install
  · dsimp only; split
    · exact h.dropCohReq.dropWb
    · split
      · split
        · exact h.dropCohReq.dropWb.setLine
        · exact h.dropCohReq.dropWb
      · exact h.dropCohReq.dropWb
    · exact h.dropCohReq
  · exact h

theorem Fab.takeNack {a l : Nat} (h : Fab s t) : Fab s (t.takeNack a l) := by
  unfold State.takeNack; split
  · exact h.setCohReq
  · exact h

theorem Fab.deliver {m : CMsg} (h : Fab s t) : Fab s (t.deliver m) := by
  unfold State.deliver; dsimp only; split
  · exact h.mapCoh.takeSnpShr
  · exact h.mapCoh.takeSnpInv
  · exact h.mapCoh.takeSnpCur
  · split
    · exact h.mapCoh.takeSnpRsp
    · exact h.mapCoh
  · exact h.mapCoh.takeCmp
  · exact h.mapCoh.takeNack
  · exact h.mapCoh.endTrans
  · split
    · exact h.mapCoh.homeGets
    · exact h.mapCoh.takeData

theorem Fab.drain {l : Nat} (n : Nat) (h : Fab s t) : Fab s (State.drain l n t) := by
  induction n generalizing t with
  | zero => exact h
  | succ n ih =>
    unfold State.drain; repeat' split
    all_goals first | exact h | exact ih h.deliver

theorem Fab.lineEnded {l : Nat} (h : Fab s t) : Fab s (t.lineEnded l) := h.drain _

/-! ### Accesses at the home -/

theorem Fab.cohWrite {l : Nat} {d : Line} {m : BitVec 128} (h : Fab s t) : Fab s (t.cohWrite l d m) := by
  unfold State.cohWrite; dsimp only
  refine Fab.trans (t := State.memWrite _ _ _ _) (Fab.memWrite ?_) ⟨⟨_, _, _, _, _, rfl⟩, id⟩
  split
  · exact h.lineEnded.memTake
  · exact h.lineEnded

theorem Fab.cohPoison {l : Nat} {b : BitVec 4} (h : Fab s t) : Fab s (t.cohPoison l b) :=
  h.cohWrite.sideStore fun _ w => Mem.setPoison_wf _ _ _ w

theorem Fab.homeWrite {c l : Nat} {d : Line} {m : BitVec 128} (h : Fab s t) : Fab s (t.homeWrite c l d m).1 := by
  unfold State.homeWrite; repeat' split
  all_goals first | exact h | exact h.cohWrite

theorem Fab.homeFetch {c l : Nat} (h : Fab s t) : Fab s (t.homeFetch c l).1 := by
  unfold State.homeFetch; dsimp only; split
  · exact h
  · exact h.sideFill

/-- Every write of memory keeps its canonical form. -/
theorem State.cohWrite_wf {s : State} (line : Nat) (d : Line) (mask : BitVec 128) (h : s.mem.wf = true) :
    (s.cohWrite line d mask).mem.wf = true := (Fab.refl s).cohWrite.2 h

theorem State.cohPoison_wf {s : State} (line : Nat) (which : BitVec 4) (h : s.mem.wf = true) :
    (s.cohPoison line which).mem.wf = true := (Fab.refl s).cohPoison.2 h

theorem State.homeWrite_wf {s : State} (ctx line : Nat) (d : Line) (mask : BitVec 128) (h : s.mem.wf = true) :
    (s.homeWrite ctx line d mask).1.mem.wf = true := (Fab.refl s).homeWrite.2 h

/-- A read at the home leaves the memory as it is. -/
@[simp] theorem State.homeFetch_mem (s : State) (ctx line : Nat) : (s.homeFetch ctx line).1.mem = s.mem := by
  unfold State.homeFetch; dsimp only; split
  · rfl
  · simp

@[simp] theorem State.homeFetch_line (s : State) (ctx line : Nat) : (s.homeFetch ctx line).2 = s.homeRead ctx line := rfl

end Sys2Proof.Machine
end

