-- ==== Sys2Proof/Laws/Words.lean ====
section
/-! SUPPORT. The words of cluster instructions and their fields: each format's fields of its word, and the word of the
fields (06_instruction_set.md Tables 6.1 to 6.5). -/

namespace Sys2Proof

theorem toNat_app {n m : Nat} (x : BitVec n) (y : BitVec m) :
    BitVec.toNat (x ++ y) = x.toNat * 2 ^ m + y.toNat := by
  rw [BitVec.toNat_append, ← Nat.shiftLeft_add_eq_or_of_lt y.isLt, Nat.shiftLeft_eq]

theorem bit1_toNat (b : Bool) : (bit1 b).toNat = b.toNat := by cases b <;> rfl

theorem getLsbD_div (w : Word) (i : Nat) : w.getLsbD i = decide (w.toNat / 2 ^ i % 2 = 1) := by
  rw [BitVec.getLsbD, Nat.testBit_eq_decide_div_mod_eq]

theorem extract_toNat (w : Word) (i n : Nat) : (w.extractLsb' i n).toNat = w.toNat / 2 ^ i % 2 ^ n := by
  rw [BitVec.extractLsb'_toNat, Nat.shiftRight_eq_div_pow]

theorem decide_bool (b : Bool) (x : Nat) (h : x = b.toNat) : decide (x = 1) = b := by cases b <;> simp_all

theorem toNat_decide (x : Nat) : (decide (x % 2 = 1)).toNat = x % 2 := by
  rcases Nat.mod_two_eq_zero_or_one x with h | h <;> simp [h]

/-- A field and what lies below it make the lower part of a number. -/
theorem field_mod (x i n : Nat) : x / 2 ^ i % 2 ^ n * 2 ^ i + x % 2 ^ i = x % 2 ^ (i + n) := by
  rw [Nat.pow_add, Nat.mod_mul, Nat.mul_comm, Nat.add_comm]

/-! ### Format V -/

theorem VFmt.word_toNat (op : BitVec 8) (f : VFmt) : (f.word op).toNat =
      0 * 2 ^ 62 + op.toNat * 2 ^ 54 + f.ge.toNat * 2 ^ 53 + f.gn.toNat * 2 ^ 52 + f.gp.toNat * 2 ^ 49 +
      f.dst.toNat * 2 ^ 41 + f.sa.toNat * 2 ^ 33 + f.sb.toNat * 2 ^ 25 + f.sc.toNat * 2 ^ 17 + f.ua.toNat * 2
      ^ 16 + f.ub.toNat * 2 ^ 15 + f.uc.toNat * 2 ^ 14 + f.ty.toNat * 2 ^ 10 + f.mod.toNat := by
  show BitVec.toNat (w := 2 + 8 + 1 + 1 + 3 + 8 + 8 + 8 + 8 + 1 + 1 + 1 + 4 + 10)
    (0#2 ++ op ++ bit1 f.ge ++ bit1 f.gn ++ f.gp ++ f.dst ++ f.sa ++ f.sb ++ f.sc ++ bit1 f.ua ++ bit1
      f.ub ++ bit1 f.uc ++ f.ty ++ f.mod) = _
  simp only [toNat_app, bit1_toNat, BitVec.toNat_ofNat]
  omega

@[simp] theorem VFmt.ofWord_word (op : BitVec 8) (f : VFmt) : VFmt.ofWord (f.word op) = f := by
  obtain ⟨ge, gn, gp, dst, sa, sb, sc, ua, ub, uc, ty, mod⟩ := f
  have := op.isLt
  have := ge.toNat_le
  have := gn.toNat_le
  have := gp.isLt
  have := dst.isLt
  have := sa.isLt
  have := sb.isLt
  have := sc.isLt
  have := ua.toNat_le
  have := ub.toNat_le
  have := uc.toNat_le
  have := ty.isLt
  have := mod.isLt
  simp only [VFmt.ofWord, VFmt.mk.injEq]
  refine ⟨?_, ?_, ?_, ?_, ?_, ?_, ?_, ?_, ?_, ?_, ?_, ?_⟩
  all_goals first
    | (rw [getLsbD_div, VFmt.word_toNat]; apply decide_bool; dsimp only; omega)
    | (apply BitVec.eq_of_toNat_eq; rw [extract_toNat, VFmt.word_toNat]; dsimp only; omega)

@[simp] theorem VFmt.wordFmt_word (op : BitVec 8) (f : VFmt) : wordFmt (f.word op) = 0#2 := by
  obtain ⟨ge, gn, gp, dst, sa, sb, sc, ua, ub, uc, ty, mod⟩ := f
  have := op.isLt
  have := ge.toNat_le
  have := gn.toNat_le
  have := gp.isLt
  have := dst.isLt
  have := sa.isLt
  have := sb.isLt
  have := sc.isLt
  have := ua.toNat_le
  have := ub.toNat_le
  have := uc.toNat_le
  have := ty.isLt
  have := mod.isLt
  apply BitVec.eq_of_toNat_eq
  rw [wordFmt, extract_toNat, VFmt.word_toNat]
  simp only [BitVec.toNat_ofNat]
  omega

@[simp] theorem VFmt.wordOp_word (op : BitVec 8) (f : VFmt) : wordOp (f.word op) = op := by
  obtain ⟨ge, gn, gp, dst, sa, sb, sc, ua, ub, uc, ty, mod⟩ := f
  have := op.isLt
  have := ge.toNat_le
  have := gn.toNat_le
  have := gp.isLt
  have := dst.isLt
  have := sa.isLt
  have := sb.isLt
  have := sc.isLt
  have := ua.toNat_le
  have := ub.toNat_le
  have := uc.toNat_le
  have := ty.isLt
  have := mod.isLt
  apply BitVec.eq_of_toNat_eq
  rw [wordOp, extract_toNat, VFmt.word_toNat]
  simp only
  omega

theorem VFmt.word_ofWord (w : Word) (h : wordFmt w = 0#2) : (VFmt.ofWord w).word (wordOp w) = w := by
  have h2 := congrArg BitVec.toNat h
  rw [wordFmt, extract_toNat] at h2
  apply BitVec.eq_of_toNat_eq
  rw [VFmt.word_toNat]
  simp only [VFmt.ofWord, wordOp, extract_toNat, getLsbD_div, toNat_decide]
  clear h
  have t62 := field_mod w.toNat 62 2
  have t54 := field_mod w.toNat 54 8
  have t53 := field_mod w.toNat 53 1
  have t52 := field_mod w.toNat 52 1
  have t49 := field_mod w.toNat 49 3
  have t41 := field_mod w.toNat 41 8
  have t33 := field_mod w.toNat 33 8
  have t25 := field_mod w.toNat 25 8
  have t17 := field_mod w.toNat 17 8
  have t16 := field_mod w.toNat 16 1
  have t15 := field_mod w.toNat 15 1
  have t14 := field_mod w.toNat 14 1
  have t10 := field_mod w.toNat 10 4
  rw [h2] at t62
  clear h2
  simp only [Nat.reduceAdd, Nat.reducePow, Nat.pow_zero, Nat.div_one, Nat.mod_one, Nat.add_zero, Nat.mul_one, Nat.pow_one, BitVec.toNat_ofNat, Nat.reduceMod] at *
  rw [Nat.mod_eq_of_lt w.isLt] at t62
  generalize w.toNat / 18014398509481984 % 256 = x54 at *
  generalize w.toNat / 9007199254740992 % 2 = x53 at *
  generalize w.toNat / 4503599627370496 % 2 = x52 at *
  generalize w.toNat / 562949953421312 % 8 = x49 at *
  generalize w.toNat / 2199023255552 % 256 = x41 at *
  generalize w.toNat / 8589934592 % 256 = x33 at *
  generalize w.toNat / 33554432 % 256 = x25 at *
  generalize w.toNat / 131072 % 256 = x17 at *
  generalize w.toNat / 65536 % 2 = x16 at *
  generalize w.toNat / 32768 % 2 = x15 at *
  generalize w.toNat / 16384 % 2 = x14 at *
  generalize w.toNat / 1024 % 16 = x10 at *
  generalize w.toNat % 4611686018427387904 = y62 at *
  generalize w.toNat % 18014398509481984 = y54 at *
  generalize w.toNat % 9007199254740992 = y53 at *
  generalize w.toNat % 4503599627370496 = y52 at *
  generalize w.toNat % 562949953421312 = y49 at *
  generalize w.toNat % 2199023255552 = y41 at *
  generalize w.toNat % 8589934592 = y33 at *
  generalize w.toNat % 33554432 = y25 at *
  generalize w.toNat % 131072 = y17 at *
  generalize w.toNat % 65536 = y16 at *
  generalize w.toNat % 32768 = y15 at *
  generalize w.toNat % 16384 = y14 at *
  generalize w.toNat % 1024 = y10 at *
  generalize w.toNat = z at *
  subst t62 t54 t53 t52 t49 t41 t33 t25 t17 t16 t15 t14 t10
  simp only [Nat.zero_mul, Nat.zero_add, Nat.reduceMul, Nat.add_assoc]

/-! ### Format I -/

theorem IFmt.word_toNat (op : BitVec 8) (f : IFmt) : (f.word op).toNat =
      1 * 2 ^ 62 + op.toNat * 2 ^ 54 + f.ge.toNat * 2 ^ 53 + f.gn.toNat * 2 ^ 52 + f.gp.toNat * 2 ^ 49 +
      f.dst.toNat * 2 ^ 41 + f.sa.toNat * 2 ^ 33 + f.res.toNat * 2 ^ 32 + f.imm.toNat := by
  show BitVec.toNat (w := 2 + 8 + 1 + 1 + 3 + 8 + 8 + 1 + 32)
    (1#2 ++ op ++ bit1 f.ge ++ bit1 f.gn ++ f.gp ++ f.dst ++ f.sa ++ bit1 f.res ++ f.imm) = _
  simp only [toNat_app, bit1_toNat, BitVec.toNat_ofNat]
  omega

@[simp] theorem IFmt.ofWord_word (op : BitVec 8) (f : IFmt) : IFmt.ofWord (f.word op) = f := by
  obtain ⟨ge, gn, gp, dst, sa, res, imm⟩ := f
  have := op.isLt
  have := ge.toNat_le
  have := gn.toNat_le
  have := gp.isLt
  have := dst.isLt
  have := sa.isLt
  have := res.toNat_le
  have := imm.isLt
  simp only [IFmt.ofWord, IFmt.mk.injEq]
  refine ⟨?_, ?_, ?_, ?_, ?_, ?_, ?_⟩
  all_goals first
    | (rw [getLsbD_div, IFmt.word_toNat]; apply decide_bool; dsimp only; omega)
    | (apply BitVec.eq_of_toNat_eq; rw [extract_toNat, IFmt.word_toNat]; dsimp only; omega)

@[simp] theorem IFmt.wordFmt_word (op : BitVec 8) (f : IFmt) : wordFmt (f.word op) = 1#2 := by
  obtain ⟨ge, gn, gp, dst, sa, res, imm⟩ := f
  have := op.isLt
  have := ge.toNat_le
  have := gn.toNat_le
  have := gp.isLt
  have := dst.isLt
  have := sa.isLt
  have := res.toNat_le
  have := imm.isLt
  apply BitVec.eq_of_toNat_eq
  rw [wordFmt, extract_toNat, IFmt.word_toNat]
  simp only [BitVec.toNat_ofNat]
  omega

@[simp] theorem IFmt.wordOp_word (op : BitVec 8) (f : IFmt) : wordOp (f.word op) = op := by
  obtain ⟨ge, gn, gp, dst, sa, res, imm⟩ := f
  have := op.isLt
  have := ge.toNat_le
  have := gn.toNat_le
  have := gp.isLt
  have := dst.isLt
  have := sa.isLt
  have := res.toNat_le
  have := imm.isLt
  apply BitVec.eq_of_toNat_eq
  rw [wordOp, extract_toNat, IFmt.word_toNat]
  simp only
  omega

theorem IFmt.word_ofWord (w : Word) (h : wordFmt w = 1#2) : (IFmt.ofWord w).word (wordOp w) = w := by
  have h2 := congrArg BitVec.toNat h
  rw [wordFmt, extract_toNat] at h2
  apply BitVec.eq_of_toNat_eq
  rw [IFmt.word_toNat]
  simp only [IFmt.ofWord, wordOp, extract_toNat, getLsbD_div, toNat_decide]
  clear h
  have t62 := field_mod w.toNat 62 2
  have t54 := field_mod w.toNat 54 8
  have t53 := field_mod w.toNat 53 1
  have t52 := field_mod w.toNat 52 1
  have t49 := field_mod w.toNat 49 3
  have t41 := field_mod w.toNat 41 8
  have t33 := field_mod w.toNat 33 8
  have t32 := field_mod w.toNat 32 1
  rw [h2] at t62
  clear h2
  simp only [Nat.reduceAdd, Nat.reducePow, Nat.pow_zero, Nat.div_one, Nat.mod_one, Nat.add_zero, Nat.mul_one, Nat.pow_one, BitVec.toNat_ofNat, Nat.reduceMod] at *
  rw [Nat.mod_eq_of_lt w.isLt] at t62
  generalize w.toNat / 18014398509481984 % 256 = x54 at *
  generalize w.toNat / 9007199254740992 % 2 = x53 at *
  generalize w.toNat / 4503599627370496 % 2 = x52 at *
  generalize w.toNat / 562949953421312 % 8 = x49 at *
  generalize w.toNat / 2199023255552 % 256 = x41 at *
  generalize w.toNat / 8589934592 % 256 = x33 at *
  generalize w.toNat / 4294967296 % 2 = x32 at *
  generalize w.toNat % 4611686018427387904 = y62 at *
  generalize w.toNat % 18014398509481984 = y54 at *
  generalize w.toNat % 9007199254740992 = y53 at *
  generalize w.toNat % 4503599627370496 = y52 at *
  generalize w.toNat % 562949953421312 = y49 at *
  generalize w.toNat % 2199023255552 = y41 at *
  generalize w.toNat % 8589934592 = y33 at *
  generalize w.toNat % 4294967296 = y32 at *
  generalize w.toNat = z at *
  subst t62 t54 t53 t52 t49 t41 t33 t32
  simp only [Nat.zero_mul, Nat.zero_add, Nat.reduceMul, Nat.add_assoc]

/-! ### Format M -/

theorem MFmt.word_toNat (op : BitVec 8) (f : MFmt) : (f.word op).toNat =
      2 * 2 ^ 62 + op.toNat * 2 ^ 54 + f.ge.toNat * 2 ^ 53 + f.gn.toNat * 2 ^ 52 + f.gp.toNat * 2 ^ 49 +
      f.data.toNat * 2 ^ 41 + f.addr.toNat * 2 ^ 33 + f.uaddr.toNat * 2 ^ 32 + f.spc.toNat * 2 ^ 31 +
      f.scope.toNat * 2 ^ 29 + f.size.toNat * 2 ^ 26 + f.sub.toNat * 2 ^ 22 + f.ch.toNat * 2 ^ 20 +
      f.off.toNat := by
  show BitVec.toNat (w := 2 + 8 + 1 + 1 + 3 + 8 + 8 + 1 + 1 + 2 + 3 + 4 + 2 + 20)
    (2#2 ++ op ++ bit1 f.ge ++ bit1 f.gn ++ f.gp ++ f.data ++ f.addr ++ bit1 f.uaddr ++ bit1 f.spc ++
      f.scope ++ f.size ++ f.sub ++ f.ch ++ f.off) = _
  simp only [toNat_app, bit1_toNat, BitVec.toNat_ofNat]
  omega

@[simp] theorem MFmt.ofWord_word (op : BitVec 8) (f : MFmt) : MFmt.ofWord (f.word op) = f := by
  obtain ⟨ge, gn, gp, data, addr, uaddr, spc, scope, size, sub, ch, off⟩ := f
  have := op.isLt
  have := ge.toNat_le
  have := gn.toNat_le
  have := gp.isLt
  have := data.isLt
  have := addr.isLt
  have := uaddr.toNat_le
  have := spc.toNat_le
  have := scope.isLt
  have := size.isLt
  have := sub.isLt
  have := ch.isLt
  have := off.isLt
  simp only [MFmt.ofWord, MFmt.mk.injEq]
  refine ⟨?_, ?_, ?_, ?_, ?_, ?_, ?_, ?_, ?_, ?_, ?_, ?_⟩
  all_goals first
    | (rw [getLsbD_div, MFmt.word_toNat]; apply decide_bool; dsimp only; omega)
    | (apply BitVec.eq_of_toNat_eq; rw [extract_toNat, MFmt.word_toNat]; dsimp only; omega)

@[simp] theorem MFmt.wordFmt_word (op : BitVec 8) (f : MFmt) : wordFmt (f.word op) = 2#2 := by
  obtain ⟨ge, gn, gp, data, addr, uaddr, spc, scope, size, sub, ch, off⟩ := f
  have := op.isLt
  have := ge.toNat_le
  have := gn.toNat_le
  have := gp.isLt
  have := data.isLt
  have := addr.isLt
  have := uaddr.toNat_le
  have := spc.toNat_le
  have := scope.isLt
  have := size.isLt
  have := sub.isLt
  have := ch.isLt
  have := off.isLt
  apply BitVec.eq_of_toNat_eq
  rw [wordFmt, extract_toNat, MFmt.word_toNat]
  simp only [BitVec.toNat_ofNat]
  omega

@[simp] theorem MFmt.wordOp_word (op : BitVec 8) (f : MFmt) : wordOp (f.word op) = op := by
  obtain ⟨ge, gn, gp, data, addr, uaddr, spc, scope, size, sub, ch, off⟩ := f
  have := op.isLt
  have := ge.toNat_le
  have := gn.toNat_le
  have := gp.isLt
  have := data.isLt
  have := addr.isLt
  have := uaddr.toNat_le
  have := spc.toNat_le
  have := scope.isLt
  have := size.isLt
  have := sub.isLt
  have := ch.isLt
  have := off.isLt
  apply BitVec.eq_of_toNat_eq
  rw [wordOp, extract_toNat, MFmt.word_toNat]
  simp only
  omega

theorem MFmt.word_ofWord (w : Word) (h : wordFmt w = 2#2) : (MFmt.ofWord w).word (wordOp w) = w := by
  have h2 := congrArg BitVec.toNat h
  rw [wordFmt, extract_toNat] at h2
  apply BitVec.eq_of_toNat_eq
  rw [MFmt.word_toNat]
  simp only [MFmt.ofWord, wordOp, extract_toNat, getLsbD_div, toNat_decide]
  clear h
  have t62 := field_mod w.toNat 62 2
  have t54 := field_mod w.toNat 54 8
  have t53 := field_mod w.toNat 53 1
  have t52 := field_mod w.toNat 52 1
  have t49 := field_mod w.toNat 49 3
  have t41 := field_mod w.toNat 41 8
  have t33 := field_mod w.toNat 33 8
  have t32 := field_mod w.toNat 32 1
  have t31 := field_mod w.toNat 31 1
  have t29 := field_mod w.toNat 29 2
  have t26 := field_mod w.toNat 26 3
  have t22 := field_mod w.toNat 22 4
  have t20 := field_mod w.toNat 20 2
  rw [h2] at t62
  clear h2
  simp only [Nat.reduceAdd, Nat.reducePow, Nat.pow_zero, Nat.div_one, Nat.mod_one, Nat.add_zero, Nat.mul_one, Nat.pow_one, BitVec.toNat_ofNat, Nat.reduceMod] at *
  rw [Nat.mod_eq_of_lt w.isLt] at t62
  generalize w.toNat / 18014398509481984 % 256 = x54 at *
  generalize w.toNat / 9007199254740992 % 2 = x53 at *
  generalize w.toNat / 4503599627370496 % 2 = x52 at *
  generalize w.toNat / 562949953421312 % 8 = x49 at *
  generalize w.toNat / 2199023255552 % 256 = x41 at *
  generalize w.toNat / 8589934592 % 256 = x33 at *
  generalize w.toNat / 4294967296 % 2 = x32 at *
  generalize w.toNat / 2147483648 % 2 = x31 at *
  generalize w.toNat / 536870912 % 4 = x29 at *
  generalize w.toNat / 67108864 % 8 = x26 at *
  generalize w.toNat / 4194304 % 16 = x22 at *
  generalize w.toNat / 1048576 % 4 = x20 at *
  generalize w.toNat % 4611686018427387904 = y62 at *
  generalize w.toNat % 18014398509481984 = y54 at *
  generalize w.toNat % 9007199254740992 = y53 at *
  generalize w.toNat % 4503599627370496 = y52 at *
  generalize w.toNat % 562949953421312 = y49 at *
  generalize w.toNat % 2199023255552 = y41 at *
  generalize w.toNat % 8589934592 = y33 at *
  generalize w.toNat % 4294967296 = y32 at *
  generalize w.toNat % 2147483648 = y31 at *
  generalize w.toNat % 536870912 = y29 at *
  generalize w.toNat % 67108864 = y26 at *
  generalize w.toNat % 4194304 = y22 at *
  generalize w.toNat % 1048576 = y20 at *
  generalize w.toNat = z at *
  subst t62 t54 t53 t52 t49 t41 t33 t32 t31 t29 t26 t22 t20
  simp only [Nat.zero_mul, Nat.zero_add, Nat.reduceMul, Nat.add_assoc]

/-! ### Format C -/

theorem CFmt.word_toNat (op : BitVec 8) (f : CFmt) : (f.word op).toNat =
      3 * 2 ^ 62 + op.toNat * 2 ^ 54 + f.res.toNat * 2 ^ 49 + f.bp.toNat * 2 ^ 46 + f.bn.toNat * 2 ^ 45 +
      f.alw.toNat * 2 ^ 44 + f.tgt.toNat * 2 ^ 22 + f.jn.toNat := by
  show BitVec.toNat (w := 2 + 8 + 5 + 3 + 1 + 1 + 22 + 22)
    (3#2 ++ op ++ f.res ++ f.bp ++ bit1 f.bn ++ bit1 f.alw ++ f.tgt ++ f.jn) = _
  simp only [toNat_app, bit1_toNat, BitVec.toNat_ofNat]
  omega

@[simp] theorem CFmt.ofWord_word (op : BitVec 8) (f : CFmt) : CFmt.ofWord (f.word op) = f := by
  obtain ⟨res, bp, bn, alw, tgt, jn⟩ := f
  have := op.isLt
  have := res.isLt
  have := bp.isLt
  have := bn.toNat_le
  have := alw.toNat_le
  have := tgt.isLt
  have := jn.isLt
  simp only [CFmt.ofWord, CFmt.mk.injEq]
  refine ⟨?_, ?_, ?_, ?_, ?_, ?_⟩
  all_goals first
    | (rw [getLsbD_div, CFmt.word_toNat]; apply decide_bool; dsimp only; omega)
    | (apply BitVec.eq_of_toNat_eq; rw [extract_toNat, CFmt.word_toNat]; dsimp only; omega)

@[simp] theorem CFmt.wordFmt_word (op : BitVec 8) (f : CFmt) : wordFmt (f.word op) = 3#2 := by
  obtain ⟨res, bp, bn, alw, tgt, jn⟩ := f
  have := op.isLt
  have := res.isLt
  have := bp.isLt
  have := bn.toNat_le
  have := alw.toNat_le
  have := tgt.isLt
  have := jn.isLt
  apply BitVec.eq_of_toNat_eq
  rw [wordFmt, extract_toNat, CFmt.word_toNat]
  simp only [BitVec.toNat_ofNat]
  omega

@[simp] theorem CFmt.wordOp_word (op : BitVec 8) (f : CFmt) : wordOp (f.word op) = op := by
  obtain ⟨res, bp, bn, alw, tgt, jn⟩ := f
  have := op.isLt
  have := res.isLt
  have := bp.isLt
  have := bn.toNat_le
  have := alw.toNat_le
  have := tgt.isLt
  have := jn.isLt
  apply BitVec.eq_of_toNat_eq
  rw [wordOp, extract_toNat, CFmt.word_toNat]
  simp only
  omega

theorem CFmt.word_ofWord (w : Word) (h : wordFmt w = 3#2) : (CFmt.ofWord w).word (wordOp w) = w := by
  have h2 := congrArg BitVec.toNat h
  rw [wordFmt, extract_toNat] at h2
  apply BitVec.eq_of_toNat_eq
  rw [CFmt.word_toNat]
  simp only [CFmt.ofWord, wordOp, extract_toNat, getLsbD_div, toNat_decide]
  clear h
  have t62 := field_mod w.toNat 62 2
  have t54 := field_mod w.toNat 54 8
  have t49 := field_mod w.toNat 49 5
  have t46 := field_mod w.toNat 46 3
  have t45 := field_mod w.toNat 45 1
  have t44 := field_mod w.toNat 44 1
  have t22 := field_mod w.toNat 22 22
  rw [h2] at t62
  clear h2
  simp only [Nat.reduceAdd, Nat.reducePow, Nat.pow_zero, Nat.div_one, Nat.mod_one, Nat.add_zero, Nat.mul_one, Nat.pow_one, BitVec.toNat_ofNat, Nat.reduceMod] at *
  rw [Nat.mod_eq_of_lt w.isLt] at t62
  generalize w.toNat / 18014398509481984 % 256 = x54 at *
  generalize w.toNat / 562949953421312 % 32 = x49 at *
  generalize w.toNat / 70368744177664 % 8 = x46 at *
  generalize w.toNat / 35184372088832 % 2 = x45 at *
  generalize w.toNat / 17592186044416 % 2 = x44 at *
  generalize w.toNat / 4194304 % 4194304 = x22 at *
  generalize w.toNat % 4611686018427387904 = y62 at *
  generalize w.toNat % 18014398509481984 = y54 at *
  generalize w.toNat % 562949953421312 = y49 at *
  generalize w.toNat % 70368744177664 = y46 at *
  generalize w.toNat % 35184372088832 = y45 at *
  generalize w.toNat % 17592186044416 = y44 at *
  generalize w.toNat % 4194304 = y22 at *
  generalize w.toNat = z at *
  subst t62 t54 t49 t46 t45 t44 t22
  simp only [Nat.zero_mul, Nat.zero_add, Nat.reduceMul, Nat.add_assoc]

end Sys2Proof
end

