-- ==== Sys2Proof/Laws/PerInstr.lean ====
section
/-! SUPPORT. Statements about every command as syntax, one lemma per constructor of `Instr`. -/

namespace Sys2Proof.Laws

/-- The word of a cluster instruction decodes to that instruction, with the rope that issues it. -/
def Encoding.Statement (c : Instr) : Prop := ∀ i w, encodeRope c = some (i, w) → decodeRope i w = some c

end Sys2Proof.Laws

namespace Sys2Proof.Laws.Encoding

theorem vfmt {op : BitVec 8} {f : VFmt} {i : Issue} {c : Instr} (h : instrV op.toNat i f = some c) :
    decodeRope i (f.word op) = some c := by simp [decodeRope, h]

theorem ifmt {op : BitVec 8} {f : IFmt} {i : Issue} {c : Instr} (h : instrI op.toNat i f = some c) :
    decodeRope i (f.word op) = some c := by simp [decodeRope, h]

theorem mfmt {op : BitVec 8} {f : MFmt} {i : Issue} {c : Instr} (h : instrM op.toNat i f = some c) :
    decodeRope i (f.word op) = some c := by simp [decodeRope, h]

theorem cfmt {op : BitVec 8} {f : CFmt} {i : Issue} {c : Instr} (h : instrC op.toNat i f = some c) :
    decodeRope i (f.word op) = some c := by simp [decodeRope, h]

theorem uadd (i : Issue) (f : VFmt) : Statement (.uadd i f) := by
  rintro _ _ ⟨⟩; exact vfmt rfl

theorem usub (i : Issue) (f : VFmt) : Statement (.usub i f) := by
  rintro _ _ ⟨⟩; exact vfmt rfl

theorem umul (i : Issue) (f : VFmt) : Statement (.umul i f) := by
  rintro _ _ ⟨⟩; exact vfmt rfl

theorem umulhu (i : Issue) (f : VFmt) : Statement (.umulhu i f) := by
  rintro _ _ ⟨⟩; exact vfmt rfl

theorem uand (i : Issue) (f : VFmt) : Statement (.uand i f) := by
  rintro _ _ ⟨⟩; exact vfmt rfl

theorem uor (i : Issue) (f : VFmt) : Statement (.uor i f) := by
  rintro _ _ ⟨⟩; exact vfmt rfl

theorem uxor (i : Issue) (f : VFmt) : Statement (.uxor i f) := by
  rintro _ _ ⟨⟩; exact vfmt rfl

theorem ushl (i : Issue) (f : VFmt) : Statement (.ushl i f) := by
  rintro _ _ ⟨⟩; exact vfmt rfl

theorem ushr (i : Issue) (f : VFmt) : Statement (.ushr i f) := by
  rintro _ _ ⟨⟩; exact vfmt rfl

theorem usar (i : Issue) (f : VFmt) : Statement (.usar i f) := by
  rintro _ _ ⟨⟩; exact vfmt rfl

theorem umin (i : Issue) (f : VFmt) : Statement (.umin i f) := by
  rintro _ _ ⟨⟩; exact vfmt rfl

theorem umax (i : Issue) (f : VFmt) : Statement (.umax i f) := by
  rintro _ _ ⟨⟩; exact vfmt rfl

theorem ucmp (i : Issue) (f : VFmt) : Statement (.ucmp i f) := by
  rintro _ _ ⟨⟩; exact vfmt rfl

theorem utov (i : Issue) (f : VFmt) : Statement (.utov i f) := by
  rintro _ _ ⟨⟩; exact vfmt rfl

theorem vtou (i : Issue) (f : VFmt) : Statement (.vtou i f) := by
  rintro _ _ ⟨⟩; exact vfmt rfl

theorem ptou (i : Issue) (f : VFmt) : Statement (.ptou i f) := by
  rintro _ _ ⟨⟩; exact vfmt rfl

theorem utop (i : Issue) (f : VFmt) : Statement (.utop i f) := by
  rintro _ _ ⟨⟩; exact vfmt rfl

theorem sread (i : Issue) (f : VFmt) : Statement (.sread i f) := by
  rintro _ _ ⟨⟩; exact vfmt rfl

theorem vlaneid (i : Issue) (f : VFmt) : Statement (.vlaneid i f) := by
  rintro _ _ ⟨⟩; exact vfmt rfl

theorem pand (i : Issue) (f : VFmt) : Statement (.pand i f) := by
  rintro _ _ ⟨⟩; exact vfmt rfl

theorem por (i : Issue) (f : VFmt) : Statement (.por i f) := by
  rintro _ _ ⟨⟩; exact vfmt rfl

theorem pxor (i : Issue) (f : VFmt) : Statement (.pxor i f) := by
  rintro _ _ ⟨⟩; exact vfmt rfl

theorem pandn (i : Issue) (f : VFmt) : Statement (.pandn i f) := by
  rintro _ _ ⟨⟩; exact vfmt rfl

theorem umovi (i : Issue) (f : IFmt) : Statement (.umovi i f) := by
  rintro _ _ ⟨⟩; exact ifmt rfl

theorem umovhi (i : Issue) (f : IFmt) : Statement (.umovhi i f) := by
  rintro _ _ ⟨⟩; exact ifmt rfl

theorem uaddi (i : Issue) (f : IFmt) : Statement (.uaddi i f) := by
  rintro _ _ ⟨⟩; exact ifmt rfl

theorem uandi (i : Issue) (f : IFmt) : Statement (.uandi i f) := by
  rintro _ _ ⟨⟩; exact ifmt rfl

theorem uori (i : Issue) (f : IFmt) : Statement (.uori i f) := by
  rintro _ _ ⟨⟩; exact ifmt rfl

theorem ushli (i : Issue) (f : IFmt) : Statement (.ushli i f) := by
  rintro _ _ ⟨⟩; exact ifmt rfl

theorem ushri (i : Issue) (f : IFmt) : Statement (.ushri i f) := by
  rintro _ _ ⟨⟩; exact ifmt rfl

theorem vadd (i : Issue) (f : VFmt) : Statement (.vadd i f) := by
  rintro _ _ ⟨⟩; exact vfmt rfl

theorem vsub (i : Issue) (f : VFmt) : Statement (.vsub i f) := by
  rintro _ _ ⟨⟩; exact vfmt rfl

theorem vmul (i : Issue) (f : VFmt) : Statement (.vmul i f) := by
  rintro _ _ ⟨⟩; exact vfmt rfl

theorem vmulh (i : Issue) (f : VFmt) : Statement (.vmulh i f) := by
  rintro _ _ ⟨⟩; exact vfmt rfl

theorem vand (i : Issue) (f : VFmt) : Statement (.vand i f) := by
  rintro _ _ ⟨⟩; exact vfmt rfl

theorem vor (i : Issue) (f : VFmt) : Statement (.vor i f) := by
  rintro _ _ ⟨⟩; exact vfmt rfl

theorem vxor (i : Issue) (f : VFmt) : Statement (.vxor i f) := by
  rintro _ _ ⟨⟩; exact vfmt rfl

theorem vshl (i : Issue) (f : VFmt) : Statement (.vshl i f) := by
  rintro _ _ ⟨⟩; exact vfmt rfl

theorem vshr (i : Issue) (f : VFmt) : Statement (.vshr i f) := by
  rintro _ _ ⟨⟩; exact vfmt rfl

theorem vsar (i : Issue) (f : VFmt) : Statement (.vsar i f) := by
  rintro _ _ ⟨⟩; exact vfmt rfl

theorem vmin (i : Issue) (f : VFmt) : Statement (.vmin i f) := by
  rintro _ _ ⟨⟩; exact vfmt rfl

theorem vmax (i : Issue) (f : VFmt) : Statement (.vmax i f) := by
  rintro _ _ ⟨⟩; exact vfmt rfl

theorem vsel (i : Issue) (f : VFmt) : Statement (.vsel i f) := by
  rintro _ _ ⟨⟩; exact vfmt rfl

theorem vcmp (i : Issue) (f : VFmt) : Statement (.vcmp i f) := by
  rintro _ _ ⟨⟩; exact vfmt rfl

theorem vmov (i : Issue) (f : VFmt) : Statement (.vmov i f) := by
  rintro _ _ ⟨⟩; exact vfmt rfl

theorem vpopc (i : Issue) (f : VFmt) : Statement (.vpopc i f) := by
  rintro _ _ ⟨⟩; exact vfmt rfl

theorem vmovi (i : Issue) (f : IFmt) : Statement (.vmovi i f) := by
  rintro _ _ ⟨⟩; exact ifmt rfl

theorem vaddi (i : Issue) (f : IFmt) : Statement (.vaddi i f) := by
  rintro _ _ ⟨⟩; exact ifmt rfl

theorem vfadd (i : Issue) (f : VFmt) : Statement (.vfadd i f) := by
  rintro _ _ ⟨⟩; exact vfmt rfl

theorem vfsub (i : Issue) (f : VFmt) : Statement (.vfsub i f) := by
  rintro _ _ ⟨⟩; exact vfmt rfl

theorem vfmul (i : Issue) (f : VFmt) : Statement (.vfmul i f) := by
  rintro _ _ ⟨⟩; exact vfmt rfl

theorem vfma (i : Issue) (f : VFmt) : Statement (.vfma i f) := by
  rintro _ _ ⟨⟩; exact vfmt rfl

theorem vfmin (i : Issue) (f : VFmt) : Statement (.vfmin i f) := by
  rintro _ _ ⟨⟩; exact vfmt rfl

theorem vfmax (i : Issue) (f : VFmt) : Statement (.vfmax i f) := by
  rintro _ _ ⟨⟩; exact vfmt rfl

theorem vfcmp (i : Issue) (f : VFmt) : Statement (.vfcmp i f) := by
  rintro _ _ ⟨⟩; exact vfmt rfl

theorem vfdiv (i : Issue) (f : VFmt) : Statement (.vfdiv i f) := by
  rintro _ _ ⟨⟩; exact vfmt rfl

theorem vfsqrt (i : Issue) (f : VFmt) : Statement (.vfsqrt i f) := by
  rintro _ _ ⟨⟩; exact vfmt rfl

theorem vfrcp (i : Issue) (f : VFmt) : Statement (.vfrcp i f) := by
  rintro _ _ ⟨⟩; exact vfmt rfl

theorem vfrsq (i : Issue) (f : VFmt) : Statement (.vfrsq i f) := by
  rintro _ _ ⟨⟩; exact vfmt rfl

theorem vfexp2 (i : Issue) (f : VFmt) : Statement (.vfexp2 i f) := by
  rintro _ _ ⟨⟩; exact vfmt rfl

theorem vflog2 (i : Issue) (f : VFmt) : Statement (.vflog2 i f) := by
  rintro _ _ ⟨⟩; exact vfmt rfl

theorem vcvt (i : Issue) (f : VFmt) : Statement (.vcvt i f) := by
  rintro _ _ ⟨⟩; exact vfmt rfl

theorem vshfl (i : Issue) (f : VFmt) : Statement (.vshfl i f) := by
  rintro _ _ ⟨⟩; exact vfmt rfl

theorem vred (i : Issue) (f : VFmt) : Statement (.vred i f) := by
  rintro _ _ ⟨⟩; exact vfmt rfl

theorem twait (i : Issue) (f : VFmt) : Statement (.twait i f) := by
  rintro _ _ ⟨⟩; exact vfmt rfl

theorem taccOpen (i : Issue) (f : VFmt) : Statement (.taccOpen i f) := by
  rintro _ _ ⟨⟩; exact vfmt rfl

theorem tmma (i : Issue) (f : VFmt) : Statement (.tmma i f) := by
  rintro _ _ ⟨⟩; exact vfmt rfl

theorem tstore (i : Issue) (f : VFmt) : Statement (.tstore i f) := by
  rintro _ _ ⟨⟩; exact vfmt rfl

theorem taccLdp (i : Issue) (f : VFmt) : Statement (.taccLdp i f) := by
  rintro _ _ ⟨⟩; exact vfmt rfl

theorem tcomb (i : Issue) (f : VFmt) : Statement (.tcomb i f) := by
  rintro _ _ ⟨⟩; exact vfmt rfl

theorem taccRel (i : Issue) (f : VFmt) : Statement (.taccRel i f) := by
  rintro _ _ ⟨⟩; exact vfmt rfl

theorem haulCopy (i : Issue) (f : VFmt) : Statement (.haulCopy i f) := by
  rintro _ _ ⟨⟩; exact vfmt rfl

theorem haulGather (i : Issue) (f : VFmt) : Statement (.haulGather i f) := by
  rintro _ _ ⟨⟩; exact vfmt rfl

theorem haulScatter (i : Issue) (f : VFmt) : Statement (.haulScatter i f) := by
  rintro _ _ ⟨⟩; exact vfmt rfl

theorem haulRed (i : Issue) (f : VFmt) : Statement (.haulRed i f) := by
  rintro _ _ ⟨⟩; exact vfmt rfl

theorem haulPut (i : Issue) (f : VFmt) : Statement (.haulPut i f) := by
  rintro _ _ ⟨⟩; exact vfmt rfl

theorem haulGet (i : Issue) (f : VFmt) : Statement (.haulGet i f) := by
  rintro _ _ ⟨⟩; exact vfmt rfl

theorem bellSig (i : Issue) (f : VFmt) : Statement (.bellSig i f) := by
  rintro _ _ ⟨⟩; exact vfmt rfl

theorem bellWait (i : Issue) (f : VFmt) : Statement (.bellWait i f) := by
  rintro _ _ ⟨⟩; exact vfmt rfl

theorem bellRead (i : Issue) (f : VFmt) : Statement (.bellRead i f) := by
  rintro _ _ ⟨⟩; exact vfmt rfl

theorem bellXchg (i : Issue) (f : VFmt) : Statement (.bellXchg i f) := by
  rintro _ _ ⟨⟩; exact vfmt rfl

theorem ld (i : Issue) (f : MFmt) : Statement (.ld i f) := by
  rintro _ _ ⟨⟩; exact mfmt rfl

theorem st (i : Issue) (f : MFmt) : Statement (.st i f) := by
  rintro _ _ ⟨⟩; exact mfmt rfl

theorem atom (i : Issue) (f : MFmt) : Statement (.atom i f) := by
  rintro _ _ ⟨⟩; exact mfmt rfl

theorem red (i : Issue) (f : MFmt) : Statement (.red i f) := by
  rintro _ _ ⟨⟩; exact mfmt rfl

theorem tallyAdd (i : Issue) (f : MFmt) : Statement (.tallyAdd i f) := by
  rintro _ _ ⟨⟩; exact mfmt rfl

theorem tallyCvt (i : Issue) (f : MFmt) : Statement (.tallyCvt i f) := by
  rintro _ _ ⟨⟩; exact mfmt rfl

theorem tallyFlags (i : Issue) (f : MFmt) : Statement (.tallyFlags i f) := by
  rintro _ _ ⟨⟩; exact mfmt rfl

theorem spinwait (i : Issue) (f : MFmt) : Statement (.spinwait i f) := by
  rintro _ _ ⟨⟩; exact mfmt rfl

theorem glock (i : Issue) (f : MFmt) : Statement (.glock i f) := by
  rintro _ _ ⟨⟩; exact mfmt rfl

theorem gunlock (i : Issue) (f : MFmt) : Statement (.gunlock i f) := by
  rintro _ _ ⟨⟩; exact mfmt rfl

theorem fence (i : Issue) (f : MFmt) : Statement (.fence i f) := by
  rintro _ _ ⟨⟩; exact mfmt rfl

theorem nop (i : Issue) (f : CFmt) : Statement (.nop i f) := by
  rintro _ _ ⟨⟩; exact cfmt rfl

theorem bra (i : Issue) (f : CFmt) : Statement (.bra i f) := by
  rintro _ _ ⟨⟩; exact cfmt rfl

theorem call (i : Issue) (f : CFmt) : Statement (.call i f) := by
  rintro _ _ ⟨⟩; exact cfmt rfl

theorem ret (i : Issue) (f : CFmt) : Statement (.ret i f) := by
  rintro _ _ ⟨⟩; exact cfmt rfl

theorem exit (i : Issue) (f : CFmt) : Statement (.exit i f) := by
  rintro _ _ ⟨⟩; exact cfmt rfl

theorem bar (i : Issue) (f : CFmt) : Statement (.bar i f) := by
  rintro _ _ ⟨⟩; exact cfmt rfl

theorem cairn (i : Issue) (f : IFmt) : Statement (.cairn i f) := by
  rintro _ _ ⟨⟩; exact ifmt rfl

theorem ropeLivelock (cluster slot : Nat) :
    Statement (.ropeLivelock cluster slot) := by
  rintro _ _ ⟨⟩

theorem spinwaitReread (cluster slot : Nat) (host : HostAnswer) :
    Statement (.spinwaitReread cluster slot host) := by
  rintro _ _ ⟨⟩

theorem glockPass (cluster slot : Nat) :
    Statement (.glockPass cluster slot) := by
  rintro _ _ ⟨⟩

theorem partyLaunch (cluster : Nat) :
    Statement (.partyLaunch cluster) := by
  rintro _ _ ⟨⟩

theorem partyEnd (cluster party : Nat) :
    Statement (.partyEnd cluster party) := by
  rintro _ _ ⟨⟩

theorem tensorMilestone (cluster : Nat) (host : HostAnswer) (ecc : Ecc) (silent : Option (Nat × Word)) :
    Statement (.tensorMilestone cluster host ecc silent) := by
  rintro _ _ ⟨⟩

theorem permitGrant (die : Nat) :
    Statement (.permitGrant die) := by
  rintro _ _ ⟨⟩

theorem permitLoss (cluster : Nat) :
    Statement (.permitLoss cluster) := by
  rintro _ _ ⟨⟩

theorem shadowCheck (cluster : Nat) :
    Statement (.shadowCheck cluster) := by
  rintro _ _ ⟨⟩

theorem haulOpStart (cluster : Nat) (host : HostAnswer) :
    Statement (.haulOpStart cluster host) := by
  rintro _ _ ⟨⟩

theorem haulMilestone (cluster : Nat) :
    Statement (.haulMilestone cluster) := by
  rintro _ _ ⟨⟩

theorem nopCmd (queue : Nat) :
    Statement (.nopCmd queue) := by
  rintro _ _ ⟨⟩

theorem windowFence (queue : Nat) :
    Statement (.windowFence queue) := by
  rintro _ _ ⟨⟩

theorem launch (queue : Nat) :
    Statement (.launch queue) := by
  rintro _ _ ⟨⟩

theorem bellWaitCmd (queue : Nat) :
    Statement (.bellWaitCmd queue) := by
  rintro _ _ ⟨⟩

theorem bellSignal (queue : Nat) :
    Statement (.bellSignal queue) := by
  rintro _ _ ⟨⟩

theorem hintHeavy (queue : Nat) :
    Statement (.hintHeavy queue) := by
  rintro _ _ ⟨⟩

theorem publish (queue : Nat) (host : HostAnswer) :
    Statement (.publish queue host) := by
  rintro _ _ ⟨⟩

theorem init (queue : Nat) :
    Statement (.init queue) := by
  rintro _ _ ⟨⟩

theorem close (queue : Nat) :
    Statement (.close queue) := by
  rintro _ _ ⟨⟩

theorem discard (queue : Nat) :
    Statement (.discard queue) := by
  rintro _ _ ⟨⟩

theorem xltInv (queue : Nat) :
    Statement (.xltInv queue) := by
  rintro _ _ ⟨⟩

theorem tableLoad (queue : Nat) (host : HostAnswer) :
    Statement (.tableLoad queue host) := by
  rintro _ _ ⟨⟩

theorem ctxCreate (queue : Nat) (host : HostAnswer) :
    Statement (.ctxCreate queue host) := by
  rintro _ _ ⟨⟩

theorem ctxDestroy (queue : Nat) :
    Statement (.ctxDestroy queue) := by
  rintro _ _ ⟨⟩

theorem allReduce (queue : Nat) :
    Statement (.allReduce queue) := by
  rintro _ _ ⟨⟩

theorem reduceScatter (queue : Nat) :
    Statement (.reduceScatter queue) := by
  rintro _ _ ⟨⟩

theorem allGather (queue : Nat) :
    Statement (.allGather queue) := by
  rintro _ _ ⟨⟩

theorem broadcast (queue : Nat) :
    Statement (.broadcast queue) := by
  rintro _ _ ⟨⟩

theorem reduce (queue : Nat) :
    Statement (.reduce queue) := by
  rintro _ _ ⟨⟩

theorem barrier (queue : Nat) :
    Statement (.barrier queue) := by
  rintro _ _ ⟨⟩

theorem muster (queue : Nat) :
    Statement (.muster queue) := by
  rintro _ _ ⟨⟩

theorem commandComplete (queue seq : Nat) :
    Statement (.commandComplete queue seq) := by
  rintro _ _ ⟨⟩

theorem doorbell (master : Master) (value : Word) :
    Statement (.doorbell master value) := by
  rintro _ _ ⟨⟩

theorem fetch (queue : Nat) (host : HostAnswer) :
    Statement (.fetch queue host) := by
  rintro _ _ ⟨⟩

theorem sealReread (queue : Nat) (host : HostAnswer) :
    Statement (.sealReread queue host) := by
  rintro _ _ ⟨⟩

theorem sealCrc (queue : Nat) :
    Statement (.sealCrc queue) := by
  rintro _ _ ⟨⟩

theorem queueEnable (master : Master) (queue : Nat) (value : Word) :
    Statement (.queueEnable master queue value) := by
  rintro _ _ ⟨⟩

theorem queueDisable (master : Master) (queue : Nat) (value : Word) :
    Statement (.queueDisable master queue value) := by
  rintro _ _ ⟨⟩

theorem resume (master : Master) (queue : Nat) (value : Word) :
    Statement (.resume master queue value) := by
  rintro _ _ ⟨⟩

theorem ringEnable (master : Master) (ring : Nat) (value : Word) :
    Statement (.ringEnable master ring value) := by
  rintro _ _ ⟨⟩

theorem ringDisable (master : Master) (ring : Nat) (value : Word) :
    Statement (.ringDisable master ring value) := by
  rintro _ _ ⟨⟩

theorem headAdvance (master : Master) (ring : Nat) (value : Word) :
    Statement (.headAdvance master ring value) := by
  rintro _ _ ⟨⟩

theorem runtimeStop (master : Master) (value : Word) :
    Statement (.runtimeStop master value) := by
  rintro _ _ ⟨⟩

theorem windowWrite (tlp : WriteTlp) :
    Statement (.windowWrite tlp) := by
  rintro _ _ ⟨⟩

theorem windowRead (offset length : Nat) :
    Statement (.windowRead offset length) := by
  rintro _ _ ⟨⟩

theorem windowBaseWrite (master : Master) (window : Nat) (value : Word) :
    Statement (.windowBaseWrite master window value) := by
  rintro _ _ ⟨⟩

theorem bootSramWrite (offset : Nat) (data : List (Option Byte)) :
    Statement (.bootSramWrite offset data) := by
  rintro _ _ ⟨⟩

theorem registerWrite (write : BarWrite) (rival : Option BarWrite) :
    Statement (.registerWrite write rival) := by
  rintro _ _ ⟨⟩

theorem registerSignal (master : Master) (bell : Nat) (value : Word) :
    Statement (.registerSignal master bell value) := by
  rintro _ _ ⟨⟩

theorem ownerWrite (master : Master) (bell : Nat) (value : Word) :
    Statement (.ownerWrite master bell value) := by
  rintro _ _ ⟨⟩

theorem invalidation (master : Master) (value : Word) :
    Statement (.invalidation master value) := by
  rintro _ _ ⟨⟩

theorem drain (cache : RcId) :
    Statement (.drain cache) := by
  rintro _ _ ⟨⟩

theorem applyOwner (master : Master) (value : Word) :
    Statement (.applyOwner master value) := by
  rintro _ _ ⟨⟩

theorem applyOwnerDone :
    Statement (.applyOwnerDone) := by
  rintro _ _ ⟨⟩

theorem walk (agent : XltAgent) (ctx va need : Nat) (upset : Ecc) :
    Statement (.walk agent ctx va need upset) := by
  rintro _ _ ⟨⟩

theorem retry (master : Master) (value : Word) :
    Statement (.retry master value) := by
  rintro _ _ ⟨⟩

theorem fatal (master : Master) (value : Word) :
    Statement (.fatal master value) := by
  rintro _ _ ⟨⟩

theorem heldFaultAdmit :
    Statement (.heldFaultAdmit) := by
  rintro _ _ ⟨⟩

theorem rds (agent ctx line : Nat) (access : LineAccess) :
    Statement (.rds agent ctx line access) := by
  rintro _ _ ⟨⟩

theorem rdx (agent ctx line : Nat) (data : Line) (mask : BitVec 128) (access : LineAccess) :
    Statement (.rdx agent ctx line data mask access) := by
  rintro _ _ ⟨⟩

theorem upg (agent ctx line : Nat) (data : Line) (mask : BitVec 128) (access : LineAccess) :
    Statement (.upg agent ctx line data mask access) := by
  rintro _ _ ⟨⟩

theorem wbd (agent line : Nat) :
    Statement (.wbd agent line) := by
  rintro _ _ ⟨⟩

theorem wbc (agent line : Nat) :
    Statement (.wbc agent line) := by
  rintro _ _ ⟨⟩

theorem rdcur (agent ctx line : Nat) (upset : Upset) :
    Statement (.rdcur agent ctx line upset) := by
  rintro _ _ ⟨⟩

theorem wrnc (agent ctx line : Nat) (data : Line) (mask : BitVec 128) (upset : Upset) :
    Statement (.wrnc agent ctx line data mask upset) := by
  rintro _ _ ⟨⟩

theorem atomh (agent ctx addr : Nat) (op : HomeAtomic) (upset : Upset) :
    Statement (.atomh agent ctx addr op upset) := by
  rintro _ _ ⟨⟩

theorem snpshr (agent line : Nat) :
    Statement (.snpshr agent line) := by
  rintro _ _ ⟨⟩

theorem snpinv (agent line : Nat) :
    Statement (.snpinv agent line) := by
  rintro _ _ ⟨⟩

theorem snpcur (agent line : Nat) :
    Statement (.snpcur agent line) := by
  rintro _ _ ⟨⟩

theorem snprsp (agent line : Nat) :
    Statement (.snprsp agent line) := by
  rintro _ _ ⟨⟩

theorem cmp (agent line : Nat) :
    Statement (.cmp agent line) := by
  rintro _ _ ⟨⟩

theorem nack (agent line : Nat) :
    Statement (.nack agent line) := by
  rintro _ _ ⟨⟩

theorem requestResend (agent line : Nat) (upset : Upset) :
    Statement (.requestResend agent line upset) := by
  rintro _ _ ⟨⟩

theorem installAck (agent line : Nat) :
    Statement (.installAck agent line) := by
  rintro _ _ ⟨⟩

theorem lineData (agent line : Nat) (upset : Upset) :
    Statement (.lineData agent line upset) := by
  rintro _ _ ⟨⟩

theorem clean (master : Master) (engine : Nat) (value : Word) :
    Statement (.clean master engine value) := by
  rintro _ _ ⟨⟩

theorem cleanInv (master : Master) (engine : Nat) (value : Word) :
    Statement (.cleanInv master engine value) := by
  rintro _ _ ⟨⟩

theorem sweepDone (engine : Nat) :
    Statement (.sweepDone engine) := by
  rintro _ _ ⟨⟩

theorem scrubRead (stack : Nat) (flips : List (Nat × BitVec 272)) (onDie : Nat) :
    Statement (.scrubRead stack flips onDie) := by
  rintro _ _ ⟨⟩

theorem refresh (stack bank : Nat) :
    Statement (.refresh stack bank) := by
  rintro _ _ ⟨⟩

theorem rfm (stack bank : Nat) :
    Statement (.rfm stack bank) := by
  rintro _ _ ⟨⟩

theorem hbmTempRead (stack : Nat) (celsius : Int) :
    Statement (.hbmTempRead stack celsius) := by
  rintro _ _ ⟨⟩

theorem parityRetry (stack sector : Nat) (again : Bool) :
    Statement (.parityRetry stack sector again) := by
  rintro _ _ ⟨⟩

theorem d2dFrame (link dir slice : Nat) (sent : D2dSent) (got : BitVec 1152) :
    Statement (.d2dFrame link dir slice sent got) := by
  rintro _ _ ⟨⟩

theorem replayTimeout (link dir slice : Nat) :
    Statement (.replayTimeout link dir slice) := by
  rintro _ _ ⟨⟩

theorem d2dWireFail (link dir slice : Nat) :
    Statement (.d2dWireFail link dir slice) := by
  rintro _ _ ⟨⟩

theorem lockLost (generator : Nat) :
    Statement (.lockLost generator) := by
  rintro _ _ ⟨⟩

theorem powerSample (watts : Nat) :
    Statement (.powerSample watts) := by
  rintro _ _ ⟨⟩

theorem forcedPeriodEnd :
    Statement (.forcedPeriodEnd) := by
  rintro _ _ ⟨⟩

theorem powerTick (vin10mV : Nat) :
    Statement (.powerTick vin10mV) := by
  rintro _ _ ⟨⟩

theorem hintEnd :
    Statement (.hintEnd) := by
  rintro _ _ ⟨⟩

theorem tempRead (celsius : List Int) :
    Statement (.tempRead celsius) := by
  rintro _ _ ⟨⟩

theorem thermtrip (die : Nat) (celsius : Int) :
    Statement (.thermtrip die celsius) := by
  rintro _ _ ⟨⟩

theorem vin48OutOfRange (above : Bool) :
    Statement (.vin48OutOfRange above) := by
  rintro _ _ ⟨⟩

theorem pgDrop :
    Statement (.pgDrop) := by
  rintro _ _ ⟨⟩

theorem vauxLoss :
    Statement (.vauxLoss) := by
  rintro _ _ ⟨⟩

theorem powerOnReset :
    Statement (.powerOnReset) := by
  rintro _ _ ⟨⟩

theorem cold (source : Option BarWrite) :
    Statement (.cold source) := by
  rintro _ _ ⟨⟩

theorem keepMem (master : Master) (value : Word) :
    Statement (.keepMem master value) := by
  rintro _ _ ⟨⟩

theorem functionLevelReset :
    Statement (.functionLevelReset) := by
  rintro _ _ ⟨⟩

theorem verify (master : Master) (value : Word) :
    Statement (.verify master value) := by
  rintro _ _ ⟨⟩

theorem romTime :
    Statement (.romTime) := by
  rintro _ _ ⟨⟩

theorem verifyTime :
    Statement (.verifyTime) := by
  rintro _ _ ⟨⟩

theorem clocks (locked : Bool) :
    Statement (.clocks locked) := by
  rintro _ _ ⟨⟩

theorem links (failedSlices : List (Nat × Nat × Nat)) :
    Statement (.links failedSlices) := by
  rintro _ _ ⟨⟩

theorem clusters (selftestFails : List (Nat × Nat)) :
    Statement (.clusters selftestFails) := by
  rintro _ _ ⟨⟩

theorem memory (trained : BitVec 20) :
    Statement (.memory trained) := by
  rintro _ _ ⟨⟩

theorem services :
    Statement (.services) := by
  rintro _ _ ⟨⟩

theorem retirementRequest (master : Master) (value : Word) :
    Statement (.retirementRequest master value) := by
  rintro _ _ ⟨⟩

theorem reeveWdt :
    Statement (.reeveWdt) := by
  rintro _ _ ⟨⟩

theorem beat (master : Master) (value : Word) :
    Statement (.beat master value) := by
  rintro _ _ ⟨⟩

theorem runtimeStall :
    Statement (.runtimeStall) := by
  rintro _ _ ⟨⟩

theorem routeWrite (master : Master) (source : Nat) (value : Word) :
    Statement (.routeWrite master source value) := by
  rintro _ _ ⟨⟩

theorem linkDown :
    Statement (.linkDown) := by
  rintro _ _ ⟨⟩

theorem completionTimeout (id : Nat) :
    Statement (.completionTimeout id) := by
  rintro _ _ ⟨⟩

theorem apertureReadCompletion (id : Nat) (answer : HostAnswer) :
    Statement (.apertureReadCompletion id answer) := by
  rintro _ _ ⟨⟩

theorem msixUnmask (mask : MsixMask) :
    Statement (.msixUnmask mask) := by
  rintro _ _ ⟨⟩

theorem doeDiscovery (request : List Byte) :
    Statement (.doeDiscovery request) := by
  rintro _ _ ⟨⟩

theorem doeAbort :
    Statement (.doeAbort) := by
  rintro _ _ ⟨⟩

theorem getVersion (request : List Byte) :
    Statement (.getVersion request) := by
  rintro _ _ ⟨⟩

theorem getCapabilities (request : List Byte) :
    Statement (.getCapabilities request) := by
  rintro _ _ ⟨⟩

theorem negotiateAlgorithms (request : List Byte) :
    Statement (.negotiateAlgorithms request) := by
  rintro _ _ ⟨⟩

theorem getDigests (request : List Byte) :
    Statement (.getDigests request) := by
  rintro _ _ ⟨⟩

theorem getCertificate (request : List Byte) :
    Statement (.getCertificate request) := by
  rintro _ _ ⟨⟩

theorem challenge (request : List Byte) :
    Statement (.challenge request) := by
  rintro _ _ ⟨⟩

theorem getMeasurements (request : List Byte) :
    Statement (.getMeasurements request) := by
  rintro _ _ ⟨⟩

theorem keyExchange (request : List Byte) :
    Statement (.keyExchange request) := by
  rintro _ _ ⟨⟩

theorem finish (request : List Byte) :
    Statement (.finish request) := by
  rintro _ _ ⟨⟩

theorem endSession (request : List Byte) :
    Statement (.endSession request) := by
  rintro _ _ ⟨⟩

theorem heartbeat (request : List Byte) :
    Statement (.heartbeat request) := by
  rintro _ _ ⟨⟩

theorem data (frame : Frame) :
    Statement (.data frame) := by
  rintro _ _ ⟨⟩

theorem read (frame : Frame) :
    Statement (.read frame) := by
  rintro _ _ ⟨⟩

theorem bell (frame : Frame) :
    Statement (.bell frame) := by
  rintro _ _ ⟨⟩

theorem ack (frame : Frame) :
    Statement (.ack frame) := by
  rintro _ _ ⟨⟩

theorem hold (frame : Frame) :
    Statement (.hold frame) := by
  rintro _ _ ⟨⟩

theorem refuse (frame : Frame) :
    Statement (.refuse frame) := by
  rintro _ _ ⟨⟩

theorem ackTimer (peer : Nat) :
    Statement (.ackTimer peer) := by
  rintro _ _ ⟨⟩

theorem rtoResend (peer psn : Nat) :
    Statement (.rtoResend peer psn) := by
  rintro _ _ ⟨⟩

theorem portMaskRestore (peer port : Nat) :
    Statement (.portMaskRestore peer port) := by
  rintro _ _ ⟨⟩

theorem peerLost (peer : Nat) :
    Statement (.peerLost peer) := by
  rintro _ _ ⟨⟩

theorem portUp (port : Nat) :
    Statement (.portUp port) := by
  rintro _ _ ⟨⟩

theorem portDown (port : Nat) :
    Statement (.portDown port) := by
  rintro _ _ ⟨⟩

theorem bindingWrite (master : Master) (ctx : Nat) (value : Word) :
    Statement (.bindingWrite master ctx value) := by
  rintro _ _ ⟨⟩

theorem ptpMessage (msg : PtpMsg) :
    Statement (.ptpMessage msg) := by
  rintro _ _ ⟨⟩

theorem ppsEdge :
    Statement (.ppsEdge) := by
  rintro _ _ ⟨⟩

theorem timeSet (master : Master) (value : Word) :
    Statement (.timeSet master value) := by
  rintro _ _ ⟨⟩

theorem segmentRun (frame : Frame) :
    Statement (.segmentRun frame) := by
  rintro _ _ ⟨⟩

theorem credit (frame : Frame) :
    Statement (.credit frame) := by
  rintro _ _ ⟨⟩

theorem ready (frame : Frame) :
    Statement (.ready frame) := by
  rintro _ _ ⟨⟩

theorem musterAck (frame : Frame) :
    Statement (.musterAck frame) := by
  rintro _ _ ⟨⟩

theorem go (frame : Frame) :
    Statement (.go frame) := by
  rintro _ _ ⟨⟩

theorem abort (frame : Frame) :
    Statement (.abort frame) := by
  rintro _ _ ⟨⟩

theorem timeout (ctx : Nat) :
    Statement (.timeout ctx) := by
  rintro _ _ ⟨⟩

theorem readyHoldExpiry (ctx : Nat) :
    Statement (.readyHoldExpiry ctx) := by
  rintro _ _ ⟨⟩

theorem pulse (frame : Option Frame) :
    Statement (.pulse frame) := by
  rintro _ _ ⟨⟩

theorem traceAdmit (source : TraceSrc) :
    Statement (.traceAdmit source) := by
  rintro _ _ ⟨⟩

theorem traceRingWrite (master : Master) (value : Word) :
    Statement (.traceRingWrite master value) := by
  rintro _ _ ⟨⟩

theorem shadowRingWrite (master : Master) (value : Word) :
    Statement (.shadowRingWrite master value) := by
  rintro _ _ ⟨⟩

theorem errorRingWrite (master : Master) (value : Word) :
    Statement (.errorRingWrite master value) := by
  rintro _ _ ⟨⟩

theorem freeze (master : Master) (value : Word) :
    Statement (.freeze master value) := by
  rintro _ _ ⟨⟩

theorem clearAll (master : Master) (value : Word) :
    Statement (.clearAll master value) := by
  rintro _ _ ⟨⟩

theorem counterWrite (write : BarWrite) (hit : Bool) :
    Statement (.counterWrite write hit) := by
  rintro _ _ ⟨⟩

theorem sbTransfer (address : Nat) (write : Option Word) (parityOk : Bool) :
    Statement (.sbTransfer address write parityOk) := by
  rintro _ _ ⟨⟩

theorem tripClear (value : Word) :
    Statement (.tripClear value) := by
  rintro _ _ ⟨⟩

theorem entdaa (address : BitVec 7) :
    Statement (.entdaa address) := by
  rintro _ _ ⟨⟩

theorem setdasa (address : BitVec 7) :
    Statement (.setdasa address) := by
  rintro _ _ ⟨⟩

theorem rstdaa :
    Statement (.rstdaa) := by
  rintro _ _ ⟨⟩

theorem getstatus :
    Statement (.getstatus) := by
  rintro _ _ ⟨⟩

theorem bypass (bits : List Bool) :
    Statement (.bypass bits) := by
  rintro _ _ ⟨⟩

theorem idcode (tap : Nat) :
    Statement (.idcode tap) := by
  rintro _ _ ⟨⟩

theorem samplePreload (pins : List Bool) (bits : List Bool) :
    Statement (.samplePreload pins bits) := by
  rintro _ _ ⟨⟩

theorem extest (bits : List Bool) :
    Statement (.extest bits) := by
  rintro _ _ ⟨⟩

theorem coreParity (core : Nat) :
    Statement (.coreParity core) := by
  rintro _ _ ⟨⟩

theorem linkUp (speed width : Nat) (flit : Bool) :
    Statement (.linkUp speed width flit) := by
  rintro _ _ ⟨⟩

theorem perstRelease :
    Statement (.perstRelease) := by
  rintro _ _ ⟨⟩

theorem vin48InRange :
    Statement (.vin48InRange) := by
  rintro _ _ ⟨⟩

theorem vaux3v3Present :
    Statement (.vaux3v3Present) := by
  rintro _ _ ⟨⟩

theorem bootStageOverrun :
    Statement (.bootStageOverrun) := by
  rintro _ _ ⟨⟩

theorem l1Evict (cluster ctx line : Nat) (invalidate : Bool) :
    Statement (.l1Evict cluster ctx line invalidate) := by
  rintro _ _ ⟨⟩

theorem unsupportedDoeObject (request : List Byte) :
    Statement (.unsupportedDoeObject request) := by
  rintro _ _ ⟨⟩

theorem unsupportedSpdmRequest (request : List Byte) :
    Statement (.unsupportedSpdmRequest request) := by
  rintro _ _ ⟨⟩

end Sys2Proof.Laws.Encoding
end

