-- ==== Sys2Proof/Laws/Pod.lean ====
section
/-! SUPPORT. Frames of the pod: what an arrival and a sequenced frame come to, and what sending one leaves as it
was. -/

namespace Sys2Proof.Machine

/-- A frame that its receiver does not discard is taken by the row of its type. -/
theorem State.reaches_arrive {s t : State} {f : Frame} {ty : Nat} {act : State → State} (h : s.reaches f t)
    (ht : f.type = ty) : s.arrive f ty act = act (s.wrapRf (.podPortFrames f.port) .rx 1) := by
  obtain ⟨h1, h2, h3, h4, h5, _⟩ := h
  simp [State.arrive, h1, h2, h3, h4, h5, ht]

/-- A fresh sequenced frame is acted on, in the context of its job. -/
theorem State.fresh_sequenced {s t : State} {f : Frame} {n : Nat} {act : State → Nat → State} (h : s.reaches f t)
    (hf : t.fresh f n) : (s.wrapRf (.podPortFrames f.port) .rx 1).sequenced f act = act t n := by
  obtain ⟨_, _, _, _, _, h5⟩ := h
  obtain ⟨a, b, c, d, e, g⟩ := hf
  unfold State.sequenced
  simp only [h5] at *
  simp only [a]
  rw [if_neg, if_neg, if_neg, if_neg]
  · simp only [List.any_eq_true]; rintro ⟨x, hx, hy⟩; exact g x hx (by simpa using hy)
  · simp only [List.any_eq_true]; rintro ⟨x, hx, hy⟩; exact e x hx (by simpa using hy)
  · omega
  · simp only [List.contains_iff_mem]
    rintro (q | q | q)
    · omega
    · omega
    · exact d q

/-- Sending a frame leaves the transport's own state. -/
@[simp] theorem State.emitFrame_pod (s : State) (port peer : Nat) (hdr payload : List Byte) :
    (s.emitFrame port peer hdr payload).pod = s.pod := by
  simp only [State.emitFrame]
  split
  · rfl
  · simp

@[simp] theorem State.emitPlain_pod (s : State) (port peer type psn job stamp : Nat) (payload : List Byte) :
    (s.emitPlain port peer type psn job stamp payload).pod = s.pod := by simp [State.emitPlain]

/-- Marking a frame received changes only what is kept for its peer. -/
theorem State.markRx_pod (s : State) (n psn : Nat) : ∃ l, (s.markRx n psn).pod = { s.pod with peers := l } := by
  have h : ∀ (c : Bool) (a b : State), a.pod = { s.pod with peers := a.pod.peers } →
      b.pod = { s.pod with peers := b.pod.peers } → ∃ l, (if c then a else b).pod = { s.pod with peers := l } := by
    intro c a b ha hb
    cases c
    · exact ⟨_, hb⟩
    · exact ⟨_, ha⟩
  exact h _ _ _ (by simp [State.sendAck, State.setPeer]) (by simp [State.setPeer])

/-- An ACK sent changes only what is kept for its peer. -/
theorem State.sendAck_pod (s : State) (n : Nat) : ∃ l, (s.sendAck n).pod = { s.pod with peers := l } :=
  ⟨_, by simp only [State.sendAck, State.emitPlain_pod, State.setPeer]; rfl⟩

end Sys2Proof.Machine
end

