-- ==== Sys2Proof/Laws/Vectors.lean ====
section
/-! SUPPORT. Laws of a rope's registers: what each write of them leaves, in the terms of Safety.lean. -/

namespace Sys2Proof.Machine

/-! ### Uniform and predicate registers -/

@[simp] theorem Rope.ureg_setU (r : Rope) (n j : Nat) (v : Word) :
    (r.setU n v).ureg j = if j = n then v else r.ureg j := Table.get_set 0 r.u n j v

@[simp] theorem Rope.preg_setP (r : Rope) (n j : Nat) (v : Mask) :
    (r.setP n v).preg j = if j = n then v else r.preg j := Table.get_set 0 r.p n j v

theorem Rope.setU_wrote (r : Rope) (n : Nat) (v : Word) : wroteU r (r.setU n v) n v :=
  ⟨rfl, by simp, fun j h => by simp [h]⟩

theorem Rope.writeP_wrote (r : Rope) (n : Nat) (e v : Mask) : wroteP r (r.writeP n e v) n e v.getLsbD := by
  refine ⟨rfl, fun l hl => ?_, fun j h => by simp [Rope.writeP, h]⟩
  simp only [Rope.writeP, Rope.preg_setP, if_true, BitVec.getLsbD_or, BitVec.getLsbD_and, BitVec.getLsbD_not]
  cases e.getLsbD l <;> simp [hl]

/-! ### Vector registers -/

theorem vpack_cons (x : Nat) (t : List Nat) : vpack (x :: t) = 2 ^ 32 * vpack t + x % 2 ^ 32 := by
  unfold vpack
  rw [List.foldr_cons, Nat.add_comm]

theorem bits_step (a b i : Nat) (hb : b < 2 ^ 32) : bits (2 ^ 32 * a + b) (32 * (i + 1)) 32 = bits a (32 * i) 32 := by
  have e2 : (2 : Nat) ^ (32 * (i + 1)) = 2 ^ 32 * 2 ^ (32 * i) := by rw [Nat.mul_add, Nat.pow_add, Nat.mul_comm]
  simp only [bits, Nat.shiftRight_eq_div_pow]
  rw [e2, ← Nat.div_div_eq_div_mul, Nat.mul_add_div (Nat.two_pow_pos 32), Nat.div_eq_of_lt hb, Nat.add_zero]

theorem vpack_bits (l : List Nat) (i : Nat) (h : i < l.length) : bits (vpack l) (32 * i) 32 = l[i] % 2 ^ 32 := by
  induction l generalizing i with
  | nil => exact absurd h (Nat.not_lt_zero _)
  | cons x t ih =>
    rw [vpack_cons]
    cases i with
    | zero =>
      simp only [bits, Nat.mul_zero, Nat.shiftRight_zero, List.getElem_cons_zero]
      rw [Nat.mul_add_mod, Nat.mod_mod]
    | succ i =>
      have h' : i < t.length := by simpa using h
      rw [List.getElem_cons_succ, ← ih i h', bits_step _ _ _ (Nat.mod_lt _ (Nat.two_pow_pos 32))]

theorem Rope.vreg_writeLanes (r : Rope) (reg k j : Nat) (e : Mask) (vals : List Nat) :
    (r.writeLanes reg k e vals).vreg j = if j = reg then
      BitVec.ofNat 1024 (vpack ((vals.zip (List.range 32)).map fun p =>
        if e.getLsbD p.2 then bits p.1 (32 * k) 32 else bits (r.vreg reg).toNat (32 * p.2) 32)) else r.vreg j :=
  Table.get_set 0 r.v reg j _

/-- Each lane of a register after its lanes in `e` are written. -/
theorem Rope.lane_writeLanes (r : Rope) (reg k l : Nat) (e : Mask) (vals : List Nat) (hv : vals.length = 32)
    (hl : l < 32) : bits ((r.writeLanes reg k e vals).vreg reg).toNat (32 * l) 32 =
      if e.getLsbD l then bits (vals[l]?.getD 0) (32 * k) 32 else bits (r.vreg reg).toNat (32 * l) 32 := by
  rw [Rope.vreg_writeLanes, if_pos rfl, BitVec.toNat_ofNat, bits_mod _ _ _ _ (show 32 * l + 32 ≤ 1024 by omega)]
  rw [vpack_bits _ l (by simp [hv, hl])]
  simp only [List.getElem_map, List.getElem_zip, List.getElem_range]
  have h2 : ∀ x a, bits x a 32 % 2 ^ 32 = bits x a 32 := fun x a => Nat.mod_eq_of_lt (Nat.mod_lt _ (by decide))
  split
  · rw [h2]
    simp [show l < vals.length by omega]
  · rw [h2]

/-- A number's low part as the sum of its 32-bit pieces. -/
theorem sum_pieces (x n : Nat) :
    (List.range n).foldl (fun a j => a + 2 ^ (32 * j) * bits x (32 * j) 32) 0 = x % 2 ^ (32 * n) := by
  induction n with
  | zero => rw [Nat.mul_zero, Nat.pow_zero, Nat.mod_one]; rfl
  | succ n ih =>
    rw [List.range_succ, List.foldl_append, ih, List.foldl_cons, List.foldl_nil, bits, Nat.shiftRight_eq_div_pow,
      Nat.mul_add, Nat.mul_one, Nat.pow_add, Nat.mod_mul]

theorem foldl_congr {α β : Type} {f g : β → α → β} (l : List α) (b : β) (h : ∀ a ∈ l, ∀ b, f b a = g b a) :
    l.foldl f b = l.foldl g b := by
  induction l generalizing b with
  | nil => rfl
  | cons a l ih =>
    rw [List.foldl_cons, List.foldl_cons, h a List.mem_cons_self, ih _ fun x hx => h x (List.mem_cons_of_mem a hx)]

theorem Rope.writeLanes_v_only (r q : Rope) (reg k : Nat) (e : Mask) (vals : List Nat) (h : q = { r with v := q.v }) :
    q.writeLanes reg k e vals = { r with v := (q.writeLanes reg k e vals).v } := by
  obtain ⟨x, hx⟩ : ∃ x, q = { r with v := x } := ⟨_, h⟩
  subst hx
  rfl

/-- Writing the first `m` registers of a value: each takes its piece in the lanes of `e`, no other changes. -/
theorem Rope.writeLanes_fold (r : Rope) (field m : Nat) (e : Mask) (vals : List Nat) (hv : vals.length = 32) :
    let q := (List.range m).foldl (fun r k => r.writeLanes (field + k) k e vals) r
    q = { r with v := q.v } ∧
    (∀ j, j < m → ∀ l, l < 32 → bits (q.vreg (field + j)).toNat (32 * l) 32 =
      if e.getLsbD l then bits (vals[l]?.getD 0) (32 * j) 32 else bits (r.vreg (field + j)).toNat (32 * l) 32) ∧
    ∀ j, j < field ∨ field + m ≤ j → q.vreg j = r.vreg j := by
  induction m with
  | zero => exact ⟨rfl, fun j hj => absurd hj (Nat.not_lt_zero _), fun _ _ => rfl⟩
  | succ m ih =>
    obtain ⟨h1, h2, h3⟩ := ih
    rw [List.range_succ, List.foldl_append, List.foldl_cons, List.foldl_nil]
    refine ⟨?_, ?_, ?_⟩
    · exact Rope.writeLanes_v_only r _ _ _ _ _ h1
    · intro j hj l hl
      by_cases hjm : j = m
      · subst hjm
        rw [Rope.lane_writeLanes _ _ _ _ _ _ hv hl, h3 _ (Or.inr (Nat.le_refl _))]
      · rw [Rope.vreg_writeLanes, if_neg (by omega)]
        exact h2 j (by omega) l hl
    · intro j hj
      rw [Rope.vreg_writeLanes, if_neg (by omega)]
      exact h3 j (by omega)

/-- What a write of a value of `n` registers leaves. -/
theorem Rope.vwrite_wrote (r : Rope) (field n : Nat) (e : Mask) (vals : List Nat) (hv : vals.length = 32) :
    wroteV r (r.vwrite field n e vals) n field e (fun l => vals[l]?.getD 0 % 2 ^ (32 * n)) := by
  by_cases hf : field = 255
  · simp [wroteV, Rope.vwrite, hf]
  · obtain ⟨h1, h2, h3⟩ := Rope.writeLanes_fold r field n e vals hv
    unfold Rope.vwrite
    rw [if_neg hf]
    refine ⟨h1, fun h => absurd h hf, fun _ => ⟨fun l hl => ?_, h3⟩⟩
    unfold Rope.lane
    split
    · rename_i he
      refine Eq.trans ?_ (sum_pieces _ _)
      refine foldl_congr _ _ fun j hj b => ?_
      rw [h2 j (List.mem_range.mp hj) l hl, if_pos he]
    · rename_i he
      refine foldl_congr _ _ fun j hj b => ?_
      rw [h2 j (List.mem_range.mp hj) l hl, if_neg he]

/-- Each lane of a source operand. -/
theorem Rope.source_getElem (r : Rope) (uni : Bool) (field n l : Nat) (hl : l < 32) :
    (r.source uni field n)[l]?.getD 0 = r.operand uni n field l := by
  unfold Rope.source Rope.operand
  split
  · rw [List.getElem?_replicate_of_lt hl]
    rfl
  · unfold Rope.vread
    split
    · rw [List.getElem?_replicate_of_lt hl]
      rfl
    · rw [List.getElem?_map, List.getElem?_range hl]
      rfl

theorem Rope.source_length (r : Rope) (uni : Bool) (field n : Nat) : (r.source uni field n).length = 32 := by
  unfold Rope.source
  split
  · rw [List.length_replicate]
  · unfold Rope.vread
    split
    · rw [List.length_replicate]
    · rw [List.length_map, List.length_range]

theorem tyRegs_cases (ty : Nat) : tyRegs ty = 1 ∨ tyRegs ty = 2 := by
  unfold tyRegs
  split
  · exact Or.inr rfl
  · exact Or.inl rfl

end Sys2Proof.Machine
end

