-- ==== Sys2Proof/WellFormed.lean ====
section
/-! DEFINITION. Which commands are well formed: every operand names something the block has
(05_clusters_ropes_parties.md R134; 07 Table 7.6; 09 R282; 12 R378, R381, R394; 13 R399; 14 R431; 15 Table 15.2). -/

namespace Sys2Proof

/-- A core of the Square is one of 72 (14 R431). -/
def Master.ok : Master → Bool
  | .core k => decide (k < 72)
  | .host => true
  | .reeve => true

/-- One of the 704 logical clusters and its 64 rope slots. -/
def Issue.ok (i : Issue) : Bool := decide (i.cluster < 704) && decide (i.slot < 64)

/-- An offset of BAR0. -/
def BarWrite.ok (w : BarWrite) : Bool := w.master.ok && decide (w.offset < 2 ^ 26)

/-- Addresses of host memory lie below 2^55, where the aperture ends (09 Table 9.1). -/
def HostAnswer.ok (h : HostAnswer) : Bool :=
  (h.cells.all fun c => decide (c.1 < 2 ^ 55)) && h.failed.all fun a => decide (a < 2 ^ 55) && a % 32 == 0

/-- One of the six ports, and a header of 64 bytes (15 Table 15.2). -/
def Frame.ok (f : Frame) : Bool :=
  decide (f.port < 6) && decide (f.mac.length = 6) && decide (f.header.length = 64)

/-- A TLP within BAR2, with flips of sectors that it writes. -/
def WriteTlp.ok (t : WriteTlp) : Bool :=
  decide (t.offset + t.bytes.length ≤ 2 ^ 36) && decide ((t.flips.map Prod.fst).Nodup) &&
    t.flips.all fun f => decide (t.offset / 32 ≤ f.1) && decide (32 * f.1 < t.offset + t.bytes.length)

/-- One of the 2,048 vectors, or the function mask. -/
def MsixMask.ok : MsixMask → Bool
  | .vector n => decide (n < 2048)
  | .function _ => true

def RcId.ok : RcId → Bool
  | .cluster c => decide (c < 704)
  | .square => true

def XltAgent.ok : XltAgent → Bool
  | .rope c slot => decide (c < 704) && decide (slot < 64)
  | .tensor c => decide (c < 704)
  | .haul c => decide (c < 704)
  | .cmdProc q => decide (q < 256)
  | .coll e => decide (e < 4)
  | .port p => decide (p < 6)

def TraceSrc.ok : TraceSrc → Bool
  | .rope c slot => decide (c < 704) && decide (slot < 64)
  | .tensor c => decide (c < 704)
  | .haul c => decide (c < 704)
  | .cmdProc p => decide (p < 16)

def PtpMsg.ok : PtpMsg → Bool
  | .sync p d n _ t => decide (p < 6) && decide (d < 256) && decide (n < 65536) && decide (t < 2 ^ 64)
  | .followUp p d n t => decide (p < 6) && decide (d < 256) && decide (n < 65536) && decide (t < 2 ^ 64)
  | .delayReq p d n => decide (p < 6) && decide (d < 256) && decide (n < 65536)
  | .delayResp p d n t => decide (p < 6) && decide (d < 256) && decide (n < 65536) && decide (t < 2 ^ 64)
  | .announce p d => decide (p < 6) && decide (d < 256)
  | .sendDelayReq p => decide (p < 6)
  | .sendAnnounce p => decide (p < 6)
  | .sendSync p => decide (p < 6)

/-- A sector of a line, or 4 for none. -/
def Upset.ok (u : Upset) : Bool :=
  decide (u.sector < 4) && u.flips.all (fun f => decide (f.1 < 4)) && decide ((u.flips.map Prod.fst).Nodup)

/-- An aligned span of 2^size bytes, at most 8, of a line. -/
def spanOk (off size : Nat) : Bool := decide (size ≤ 3) && off % 2 ^ size == 0 && decide (off < 128)

/-- A use that an agent's accesses may have: a core group's cache serves its own eight cores (14 R431), every other
agent units. AMO, LR and SC act on 4 or 8 bytes. -/
def LineUse.ok (u : LineUse) (agent : Nat) : Bool :=
  (match u.core with
    | some k => decide (5 ≤ agent) && decide (agent < 14) && k / 8 == agent - 5
    | none => !(decide (5 ≤ agent) && decide (agent < 14))) &&
  (match u with
    | .load _ off size => spanOk off size
    | .amo _ off size sub _ _ => spanOk off size && decide (2 ≤ size) && decide (sub ≤ 9)
    | .lr _ off size => spanOk off size && decide (2 ≤ size)
    | .sc _ off size _ => spanOk off size && decide (2 ≤ size)
    | _ => true)

/-- A well-formed access of a line. -/
def LineAccess.ok (x : LineAccess) (agent : Nat) : Bool := x.use.ok agent && x.upset.ok

/-- R284: a context that a request of an agent may carry; a core group's carries 0. -/
def agentCtxOk (agent ctx : Nat) : Bool :=
  decide (ctx < 63) && (!(decide (5 ≤ agent) && decide (agent < 14)) || ctx == 0)

/-- A well-formed command. -/
def Instr.wellFormed : Instr → Bool
  | .uadd i _ => i.ok
  | .usub i _ => i.ok
  | .umul i _ => i.ok
  | .umulhu i _ => i.ok
  | .uand i _ => i.ok
  | .uor i _ => i.ok
  | .uxor i _ => i.ok
  | .ushl i _ => i.ok
  | .ushr i _ => i.ok
  | .usar i _ => i.ok
  | .umin i _ => i.ok
  | .umax i _ => i.ok
  | .ucmp i _ => i.ok
  | .utov i _ => i.ok
  | .vtou i _ => i.ok
  | .ptou i _ => i.ok
  | .utop i _ => i.ok
  | .sread i _ => i.ok
  | .vlaneid i _ => i.ok
  | .pand i _ => i.ok
  | .por i _ => i.ok
  | .pxor i _ => i.ok
  | .pandn i _ => i.ok
  | .umovi i _ => i.ok
  | .umovhi i _ => i.ok
  | .uaddi i _ => i.ok
  | .uandi i _ => i.ok
  | .uori i _ => i.ok
  | .ushli i _ => i.ok
  | .ushri i _ => i.ok
  | .vadd i _ => i.ok
  | .vsub i _ => i.ok
  | .vmul i _ => i.ok
  | .vmulh i _ => i.ok
  | .vand i _ => i.ok
  | .vor i _ => i.ok
  | .vxor i _ => i.ok
  | .vshl i _ => i.ok
  | .vshr i _ => i.ok
  | .vsar i _ => i.ok
  | .vmin i _ => i.ok
  | .vmax i _ => i.ok
  | .vsel i _ => i.ok
  | .vcmp i _ => i.ok
  | .vmov i _ => i.ok
  | .vpopc i _ => i.ok
  | .vmovi i _ => i.ok
  | .vaddi i _ => i.ok
  | .vfadd i _ => i.ok
  | .vfsub i _ => i.ok
  | .vfmul i _ => i.ok
  | .vfma i _ => i.ok
  | .vfmin i _ => i.ok
  | .vfmax i _ => i.ok
  | .vfcmp i _ => i.ok
  | .vfdiv i _ => i.ok
  | .vfsqrt i _ => i.ok
  | .vfrcp i _ => i.ok
  | .vfrsq i _ => i.ok
  | .vfexp2 i _ => i.ok
  | .vflog2 i _ => i.ok
  | .vcvt i _ => i.ok
  | .vshfl i _ => i.ok
  | .vred i _ => i.ok
  | .twait i _ => i.ok
  | .taccOpen i _ => i.ok
  | .tmma i _ => i.ok
  | .tstore i _ => i.ok
  | .taccLdp i _ => i.ok
  | .tcomb i _ => i.ok
  | .taccRel i _ => i.ok
  | .haulCopy i _ => i.ok
  | .haulGather i _ => i.ok
  | .haulScatter i _ => i.ok
  | .haulRed i _ => i.ok
  | .haulPut i _ => i.ok
  | .haulGet i _ => i.ok
  | .bellSig i _ => i.ok
  | .bellWait i _ => i.ok
  | .bellRead i _ => i.ok
  | .bellXchg i _ => i.ok
  | .ld i _ => i.ok
  | .st i _ => i.ok
  | .atom i _ => i.ok
  | .red i _ => i.ok
  | .tallyAdd i _ => i.ok
  | .tallyCvt i _ => i.ok
  | .tallyFlags i _ => i.ok
  | .spinwait i _ => i.ok
  | .glock i _ => i.ok
  | .gunlock i _ => i.ok
  | .fence i _ => i.ok
  | .nop i _ => i.ok
  | .bra i _ => i.ok
  | .call i _ => i.ok
  | .ret i _ => i.ok
  | .exit i _ => i.ok
  | .bar i _ => i.ok
  | .cairn i _ => i.ok
  | .ropeLivelock cluster slot => decide (cluster < 704) && decide (slot < 64)
  | .spinwaitReread cluster slot host => decide (cluster < 704) && decide (slot < 64) && host.ok
  | .glockPass cluster slot => decide (cluster < 704) && decide (slot < 64)
  | .partyLaunch cluster => decide (cluster < 704)
  | .partyEnd cluster party => decide (cluster < 704) && decide (party < 16)
  | .tensorMilestone cluster host _ _ => decide (cluster < 704) && host.ok
  | .permitGrant die => decide (die < 4)
  | .permitLoss cluster => decide (cluster < 704)
  | .shadowCheck cluster => decide (cluster < 704)
  | .haulOpStart cluster host => decide (cluster < 704) && host.ok
  | .haulMilestone cluster => decide (cluster < 704)
  | .nopCmd queue => decide (queue < 256)
  | .windowFence queue => decide (queue < 256)
  | .launch queue => decide (queue < 256)
  | .bellWaitCmd queue => decide (queue < 256)
  | .bellSignal queue => decide (queue < 256)
  | .hintHeavy queue => decide (queue < 256)
  | .publish queue host => decide (queue < 256) && host.ok
  | .init queue => decide (queue < 256)
  | .close queue => decide (queue < 256)
  | .discard queue => decide (queue < 256)
  | .xltInv queue => decide (queue < 256)
  | .tableLoad queue host => decide (queue < 256) && host.ok
  | .ctxCreate queue host => decide (queue < 256) && host.ok
  | .ctxDestroy queue => decide (queue < 256)
  | .allReduce queue => decide (queue < 256)
  | .reduceScatter queue => decide (queue < 256)
  | .allGather queue => decide (queue < 256)
  | .broadcast queue => decide (queue < 256)
  | .reduce queue => decide (queue < 256)
  | .barrier queue => decide (queue < 256)
  | .muster queue => decide (queue < 256)
  | .commandComplete queue seq => decide (queue < 256) && decide (seq < 2 ^ 32)
  | .doorbell master _ => master.ok
  | .fetch queue host => decide (queue < 256) && host.ok
  | .sealReread queue host => decide (queue < 256) && host.ok
  | .sealCrc queue => decide (queue < 256)
  | .queueEnable master queue _ => master.ok && decide (queue < 256)
  | .queueDisable master queue _ => master.ok && decide (queue < 256)
  | .resume master queue _ => master.ok && decide (queue < 256)
  | .ringEnable master ring _ => master.ok && decide (ring < 64)
  | .ringDisable master ring _ => master.ok && decide (ring < 64)
  | .headAdvance master ring _ => master.ok && decide (ring < 64)
  | .runtimeStop master _ => master.ok
  | .windowWrite tlp => tlp.ok
  | .windowRead offset _ => decide (offset < 2 ^ 36)
  | .windowBaseWrite master window _ => master.ok && decide (window < 4)
  | .bootSramWrite offset _ => decide (offset < 2 ^ 36)
  | .registerWrite write rival => write.ok && rival.all BarWrite.ok
  | .registerSignal master b _ => master.ok && decide (b < 16384)
  | .ownerWrite master b _ => master.ok && decide (b < 16384)
  | .invalidation master _ => master.ok
  | .drain cache => cache.ok
  | .applyOwner master _ => master.ok
  | .applyOwnerDone => true
  | .walk agent ctx va need _ => agent.ok && decide (ctx < 64) && decide (va < 2 ^ 64) && decide (need < 8)
  | .retry master _ => master.ok
  | .fatal master _ => master.ok
  | .heldFaultAdmit => true
  | .rds agent ctx line acc => decide (agent < 46730) && agentCtxOk agent ctx && decide (line < 2 ^ 49) &&
      acc.ok agent && acc.use.reads
  | .rdx agent ctx line _ _ acc => decide (agent < 46730) && agentCtxOk agent ctx && decide (line < 2 ^ 49) &&
      acc.ok agent && acc.use.writes
  | .upg agent ctx line _ _ acc => decide (agent < 46730) && agentCtxOk agent ctx && decide (line < 2 ^ 49) &&
      acc.ok agent && acc.use.writes
  | .wbd agent line => decide (agent < 46730) && decide (line < 2 ^ 33)
  | .wbc agent line => decide (agent < 46730) && decide (line < 2 ^ 33)
  | .rdcur agent ctx line upset => decide (agent < 46730) && agentCtxOk agent ctx && decide (line < 2 ^ 33) && upset.ok
  | .wrnc agent ctx line _ _ upset => decide (agent < 46730) && agentCtxOk agent ctx && decide (line < 2 ^ 33) && upset.ok
  | .atomh agent ctx addr _ upset => decide (agent < 46730) && agentCtxOk agent ctx && decide (addr < 2 ^ 40) && upset.ok
  | .snpshr agent line => decide (agent < 46730) && decide (line < 2 ^ 33)
  | .snpinv agent line => decide (agent < 46730) && decide (line < 2 ^ 33)
  | .snpcur agent line => decide (agent < 46730) && decide (line < 2 ^ 33)
  | .snprsp agent line => decide (agent < 46730) && decide (line < 2 ^ 33)
  | .cmp agent line => decide (agent < 46730) && decide (line < 2 ^ 33)
  | .nack agent line => decide (agent < 46730) && decide (line < 2 ^ 33)
  | .requestResend agent line upset => decide (agent < 46730) && decide (line < 2 ^ 33) && upset.ok
  | .installAck agent line => decide (agent < 46730) && decide (line < 2 ^ 33)
  | .lineData agent line upset => decide (agent ≤ 46730) && decide (line < 2 ^ 33) && upset.ok
  | .clean master engine _ => master.ok && decide (engine < 5)
  | .cleanInv master engine _ => master.ok && decide (engine < 5)
  | .sweepDone engine => decide (engine < 5)
  | .scrubRead stack flips _ => decide (stack < 20) && flips.all (fun f => decide (f.1 < 4)) &&
      decide ((flips.map Prod.fst).Nodup)
  | .refresh stack bank => decide (stack < 20) && decide (bank < 3072)
  | .rfm stack bank => decide (stack < 20) && decide (bank < 3072)
  | .hbmTempRead stack _ => decide (stack < 20)
  | .parityRetry stack _ _ => decide (stack < 20)
  | .d2dFrame link dir slice sent _ => decide (link < 8) && decide (dir < 2) && decide (slice < 128) &&
    sent.msgs.all fun m => decide (m.src < 5) && decide (m.dst < 5) && m.line.all fun l => decide (l < 2 ^ 33)
  | .replayTimeout link dir slice => decide (link < 8) && decide (dir < 2) && decide (slice < 128)
  | .d2dWireFail link dir slice => decide (link < 8) && decide (dir < 2) && decide (slice < 128)
  | .lockLost generator => decide (generator < 5)
  | .powerSample _ => true
  | .forcedPeriodEnd => true
  | .powerTick _ => true
  | .hintEnd => true
  | .tempRead celsius => decide (celsius.length = 5)
  | .thermtrip die _ => decide (die < 5)
  | .vin48OutOfRange _ => true
  | .pgDrop => true
  | .vauxLoss => true
  | .powerOnReset => true
  | .cold source => source.all BarWrite.ok
  | .keepMem master _ => master.ok
  | .functionLevelReset => true
  | .verify master _ => master.ok
  | .romTime => true
  | .verifyTime => true
  | .clocks _ => true
  | .links _ => true
  | .clusters _ => true
  | .memory _ => true
  | .services => true
  | .retirementRequest master _ => master.ok
  | .reeveWdt => true
  | .beat master _ => master.ok
  | .runtimeStall => true
  | .routeWrite master source _ => master.ok && decide (source < 128)
  | .linkDown => true
  | .completionTimeout _ => true
  | .apertureReadCompletion _ answer => answer.ok
  | .msixUnmask mask => mask.ok
  | .doeDiscovery _ => true
  | .doeAbort => true
  | .getVersion _ => true
  | .getCapabilities _ => true
  | .negotiateAlgorithms _ => true
  | .getDigests _ => true
  | .getCertificate _ => true
  | .challenge _ => true
  | .getMeasurements _ => true
  | .keyExchange _ => true
  | .finish _ => true
  | .endSession _ => true
  | .heartbeat _ => true
  | .data frame => frame.ok
  | .read frame => frame.ok
  | .bell frame => frame.ok
  | .ack frame => frame.ok
  | .hold frame => frame.ok
  | .refuse frame => frame.ok
  | .ackTimer peer => decide (peer < 65536)
  | .rtoResend peer psn => decide (peer < 65536) && decide (psn < 2 ^ 32)
  | .portMaskRestore peer port => decide (peer < 65536) && decide (port < 6)
  | .peerLost peer => decide (peer < 65536)
  | .portUp port => decide (port < 6)
  | .portDown port => decide (port < 6)
  | .bindingWrite master ctx _ => master.ok && decide (ctx < 64)
  | .ptpMessage msg => msg.ok
  | .ppsEdge => true
  | .timeSet master _ => master.ok
  | .segmentRun frame => frame.ok
  | .credit frame => frame.ok
  | .ready frame => frame.ok
  | .musterAck frame => frame.ok
  | .go frame => frame.ok
  | .abort frame => frame.ok
  | .timeout ctx => decide (ctx < 64)
  | .readyHoldExpiry ctx => decide (ctx < 64)
  | .pulse frame => frame.all Frame.ok
  | .traceAdmit source => source.ok
  | .traceRingWrite master _ => master.ok
  | .shadowRingWrite master _ => master.ok
  | .errorRingWrite master _ => master.ok
  | .freeze master _ => master.ok
  | .clearAll master _ => master.ok
  | .counterWrite write _ => write.ok
  | .sbTransfer address _ _ => decide (address < 256)
  | .tripClear _ => true
  | .entdaa _ => true
  | .setdasa _ => true
  | .rstdaa => true
  | .getstatus => true
  | .bypass _ => true
  | .idcode tap => decide (tap < 5)
  | .samplePreload _ _ => true
  | .extest _ => true
  | .coreParity core => decide (core < 72)
  | .linkUp _ _ _ => true
  | .perstRelease => true
  | .vin48InRange => true
  | .vaux3v3Present => true
  | .bootStageOverrun => true
  | .l1Evict cluster ctx line _ => decide (cluster < 704) && decide (ctx < 64) && decide (line < 2 ^ 48)
  | .unsupportedDoeObject _ => true
  | .unsupportedSpdmRequest _ => true

end Sys2Proof
end

