-- ==== Sys2Proof/Tests/Slice0.lean ====
section
/-! SUPPORT. Small tests: ill-formed commands are refused, words written out from the spec decode to their instruction,
single steps on small states, and for each statement a state and operands that meet its hypotheses. -/

namespace Sys2Proof.Tests

open Sys2Proof.Machine

/-! ### Ill-formed commands: one for each check of each row -/

def badIssues : List Issue := [⟨704, 0, .none⟩, ⟨0, 64, .none⟩]
def vz : VFmt := ⟨false, false, 0, 0, 0, 0, 0, false, false, false, 0, 0⟩
def iz : IFmt := ⟨false, false, 0, 0, 0, false, 0⟩
def mz : MFmt := ⟨false, false, 0, 0, 0, false, false, 0, 0, 0, 0, 0⟩
def cz : CFmt := ⟨0, 0, false, false, 0, 0⟩
def hostOk : HostAnswer := ⟨[], []⟩
def badHosts : List HostAnswer := [⟨[(2 ^ 55, 0)], []⟩, ⟨[], [2 ^ 55]⟩, ⟨[], [1]⟩]
def badWrites : List BarWrite := [⟨.core 72, 0, 8, 0⟩, ⟨.host, 2 ^ 26, 8, 0⟩]
def mac0 : List Byte := List.replicate 6 0
def badFrames : List Frame :=
  [⟨6, mac0, none, 0, true, List.replicate 64 0, []⟩, ⟨0, mac0, none, 0, true, [], []⟩,
    ⟨0, [], none, 0, true, List.replicate 64 0, []⟩]
def noUp : Upset := noUpset
def badUp : Upset := { noUpset with sector := 4 }
def plainUse : LineAccess := ⟨.unit false, noUp⟩

/-- Uses that no agent 0, and none that core 0's group, agent 5, may make. -/
def badUses : List LineAccess :=
  [⟨.unit false, badUp⟩, ⟨.unit false, { noUpset with flips := [(4, 0)] }⟩,
    ⟨.unit false, { noUpset with flips := [(0, 0), (0, 1)] }⟩, ⟨.load 0 0 0, noUp⟩]
def badCoreUses : List LineAccess :=
  [plainUse, ⟨.load 8 0 0, noUp⟩, ⟨.load 0 1 1, noUp⟩, ⟨.load 0 128 0, noUp⟩, ⟨.load 0 0 4, noUp⟩,
    ⟨.amo 0 0 1 0 0 0, noUp⟩, ⟨.amo 0 0 2 10 0 0, noUp⟩, ⟨.lr 0 0 1, noUp⟩, ⟨.sc 0 0 1 0, noUp⟩]

theorem test_ill_formed_v : (badIssues.all fun i =>
    ([.uadd, .usub, .umul, .umulhu, .uand, .uor, .uxor, .ushl, .ushr, .usar, .umin, .umax, .ucmp, .utov, .vtou, .ptou,
      .utop, .sread, .vlaneid, .vadd, .vsub, .vmul, .vmulh, .vand, .vor, .vxor, .vshl, .vshr, .vsar, .vmin, .vmax,
      .vsel, .vcmp, .vmov, .vpopc, .vfadd, .vfsub, .vfmul, .vfma, .vfmin, .vfmax, .vfcmp, .vfdiv, .vfsqrt, .vfrcp,
      .vfrsq, .vfexp2, .vflog2, .vcvt, .vshfl, .vred, .pand, .por, .pxor, .pandn, .twait, .taccOpen, .tmma, .tstore,
      .taccLdp, .tcomb, .taccRel, .haulCopy, .haulGather, .haulScatter, .haulRed, .haulPut, .haulGet, .bellSig,
      .bellWait, .bellRead, .bellXchg] : List (Issue → VFmt → Instr)).all fun c => !(c i vz).wellFormed) = true := by
  decide +kernel

theorem test_ill_formed_imc : (badIssues.all fun i =>
    ([.umovi, .umovhi, .uaddi, .uandi, .uori, .ushli, .ushri, .vmovi, .vaddi, .cairn] :
      List (Issue → IFmt → Instr)).all (fun c => !(c i iz).wellFormed) &&
    ([.st, .red, .tallyAdd, .tallyFlags, .gunlock, .fence] :
      List (Issue → MFmt → Instr)).all (fun c => !(c i mz).wellFormed) &&
    ([.nop, .bra, .call, .ret, .exit, .bar] : List (Issue → CFmt → Instr)).all fun c => !(c i cz).wellFormed) = true := by
  decide +kernel

theorem test_ill_formed_m : (badIssues.all fun i =>
    ([.ld, .atom, .tallyCvt, .spinwait, .glock] : List (Issue → MFmt → Instr)).all fun c => !(c i mz).wellFormed) =
      true := by
  decide +kernel

theorem test_ill_formed_engines :
    ([.ropeLivelock 704 0, .ropeLivelock 0 64, .glockPass 704 0, .glockPass 0 64, .spinwaitReread 704 0 hostOk,
      .spinwaitReread 0 64 hostOk, .partyLaunch 704, .partyEnd 704 0, .partyEnd 0 16,
      .tensorMilestone 704 hostOk .none none, .permitGrant 4, .permitLoss 704, .shadowCheck 704,
      .haulOpStart 704 hostOk, .haulMilestone 704] ++
      (badHosts.flatMap fun h => [.spinwaitReread 0 0 h, .tensorMilestone 0 h .none none, .haulOpStart 0 h, .publish 0 h,
        .tableLoad 0 h, .ctxCreate 0 h, .fetch 0 h, .sealReread 0 h, .apertureReadCompletion 0 h]) :
      List Instr).all (fun c => !c.wellFormed) = true := by
  decide +kernel

theorem test_ill_formed_queues :
    ((([.nopCmd, .windowFence, .launch, .bellWaitCmd, .bellSignal, .hintHeavy, .init, .close, .discard, .xltInv,
        .ctxDestroy, .allReduce, .reduceScatter, .allGather, .broadcast, .reduce, .barrier, .muster, .sealCrc] :
        List (Nat → Instr)).all fun c => !(c 256).wellFormed) &&
      (([.publish, .tableLoad, .ctxCreate, .fetch, .sealReread] : List (Nat → HostAnswer → Instr)).all
        fun c => !(c 256 hostOk).wellFormed) &&
      (([.commandComplete 256 0, .commandComplete 0 (2 ^ 32), .queueEnable .host 256 0, .queueDisable .host 256 0,
        .resume .host 256 0, .ringEnable .host 64 0, .ringDisable .host 64 0, .headAdvance .host 64 0] : List Instr).all
        fun c => !c.wellFormed) &&
      (([.queueEnable, .queueDisable, .resume, .ringEnable, .ringDisable, .headAdvance, .windowBaseWrite,
        .registerSignal, .ownerWrite, .clean, .cleanInv, .routeWrite, .bindingWrite] :
        List (Master → Nat → Word → Instr)).all fun c => !(c (.core 72) 0 0).wellFormed) &&
      (([.doorbell, .runtimeStop, .invalidation, .applyOwner, .retry, .fatal, .keepMem, .verify, .retirementRequest,
        .beat, .timeSet, .traceRingWrite, .shadowRingWrite, .errorRingWrite, .freeze, .clearAll] :
        List (Master → Word → Instr)).all fun c => !(c (.core 72) 0).wellFormed)) = true := by
  decide +kernel

theorem test_ill_formed_host :
    ([.windowWrite ⟨2 ^ 36, [none], false, []⟩, .windowRead (2 ^ 36) 1, .windowBaseWrite .host 4 0, .bootSramWrite (2 ^ 36) [],
      .registerSignal .host 16384 0, .ownerWrite .host 16384 0, .msixUnmask (.vector 2048), .drain (.cluster 704),
      .walk (.rope 704 0) 0 0 0 .none, .walk (.rope 0 64) 0 0 0 .none, .walk (.tensor 704) 0 0 0 .none,
      .walk (.haul 704) 0 0 0 .none, .walk (.cmdProc 256) 0 0 0 .none, .walk (.coll 4) 0 0 0 .none,
      .walk (.port 6) 0 0 0 .none, .walk (.port 0) 64 0 0 .none, .walk (.port 0) 0 (2 ^ 64) 0 .none,
      .walk (.port 0) 0 0 8 .none, .routeWrite .host 128 0, .coreParity 72] ++
      (badWrites.flatMap fun w => [.registerWrite w none, .registerWrite ⟨.host, 0, 8, 0⟩ (some w), .counterWrite w true,
        .cold (some w)]) : List Instr).all (fun c => !c.wellFormed) = true := by
  decide +kernel

theorem test_ill_formed_fabric :
    ([.rdcur 46730 0 0 noUp, .rdcur 0 63 0 noUp, .rdcur 5 1 0 noUp, .rdcur 0 0 (2 ^ 33) noUp, .rdcur 0 0 0 badUp,
      .wrnc 46730 0 0 0 0 noUp, .wrnc 0 63 0 0 0 noUp, .wrnc 0 0 (2 ^ 33) 0 0 noUp, .wrnc 0 0 0 0 0 badUp,
      .atomh 46730 0 0 (.tally 0) noUp, .atomh 0 63 0 (.tally 0) noUp, .atomh 0 0 (2 ^ 40) (.tally 0) noUp,
      .atomh 0 0 0 (.tally 0) badUp, .requestResend 46730 0 noUp, .requestResend 0 (2 ^ 33) noUp,
      .requestResend 0 0 badUp, .lineData 46731 0 noUp, .lineData 0 (2 ^ 33) noUp, .lineData 0 0 badUp] ++
      (([.rds, fun a x l u => .rdx a x l 0 0 u, fun a x l u => .upg a x l 0 0 u] :
        List (Nat → Nat → Nat → LineAccess → Instr)).flatMap fun c =>
          [c 46730 0 0 plainUse, c 0 63 0 plainUse, c 5 1 0 ⟨.lr 0 0 2, noUp⟩, c 0 0 (2 ^ 49) plainUse] ++
            badUses.map (c 0 0 0) ++ badCoreUses.map (c 5 0 0)) ++
      [.rds 5 0 0 ⟨.store 0, noUp⟩, .rdx 5 0 0 0 0 ⟨.load 0 0 0, noUp⟩, .upg 5 0 0 0 0 ⟨.load 0 0 0, noUp⟩] ++
      (([.wbd, .wbc, .snpshr, .snpinv, .snpcur, .snprsp, .cmp, .nack, .installAck] : List (Nat → Nat → Instr)).flatMap
        fun c => [c 46730 0, c 0 (2 ^ 33)]) ++
      [.clean .host 5 0, .cleanInv .host 5 0, .sweepDone 5, .scrubRead 20 [] 0, .scrubRead 0 [(4, 0)] 0,
        .scrubRead 0 [(0, 0), (0, 1)] 0, .refresh 20 0, .refresh 0 3072, .rfm 20 0,
        .rfm 0 3072, .hbmTempRead 20 0, .parityRetry 20 0 false, .d2dFrame 8 0 0 ⟨0, []⟩ 0, .d2dFrame 0 2 0 ⟨0, []⟩ 0,
        .d2dFrame 0 0 128 ⟨0, []⟩ 0, .d2dFrame 0 0 0 ⟨0, [⟨5, 0, none⟩]⟩ 0, .d2dFrame 0 0 0 ⟨0, [⟨0, 5, none⟩]⟩ 0,
        .d2dFrame 0 0 0 ⟨0, [⟨0, 1, some (2 ^ 33)⟩]⟩ 0, .replayTimeout 8 0 0, .replayTimeout 0 2 0, .replayTimeout 0 0 128, .d2dWireFail 8 0 0,
        .d2dWireFail 0 2 0, .d2dWireFail 0 0 128, .lockLost 5, .tempRead [0], .thermtrip 5 0,
        .l1Evict 704 0 0 false, .l1Evict 0 64 0 false, .l1Evict 0 0 (2 ^ 48) false] :
      List Instr).all (fun c => !c.wellFormed) = true := by
  decide +kernel

theorem test_ill_formed_pod :
    ((badFrames.flatMap fun f => [.data f, .read f, .bell f, .ack f, .hold f, .refuse f, .segmentRun f, .credit f,
        .ready f, .musterAck f, .go f, .abort f, .pulse (some f)]) ++
      [.ackTimer 65536, .rtoResend 65536 0, .rtoResend 0 (2 ^ 32), .portMaskRestore 65536 0, .portMaskRestore 0 6,
        .peerLost 65536, .portUp 6, .portDown 6, .bindingWrite .host 64 0, .ptpMessage (.sync 6 0 0 true 0),
        .ptpMessage (.followUp 0 256 0 0), .ptpMessage (.delayReq 0 0 65536), .ptpMessage (.delayResp 0 0 0 (2 ^ 64)),
        .ptpMessage (.announce 6 0), .ptpMessage (.sendDelayReq 6), .ptpMessage (.sendAnnounce 6),
        .ptpMessage (.sendSync 6), .timeout 64, .readyHoldExpiry 64, .traceAdmit (.rope 704 0),
        .traceAdmit (.rope 0 64), .traceAdmit (.tensor 704), .traceAdmit (.haul 704), .traceAdmit (.cmdProc 16),
        .sbTransfer 256 none true, .idcode 5] : List Instr).all (fun c => !c.wellFormed) = true := by
  decide +kernel

/-! ### Words: the worked cases of 06_instruction_set.md and 20_observation_and_test.md, and words placed by hand -/

def at0 : Issue := ⟨3, 5, .none⟩

theorem test_decode_v :
    decodeRope at0 0x10C028140A289400 = some (.vfma at0 { vz with dst := 20, sa := 10, sb := 5, sc := 20, ub := true, ty := 5 }) ∧
    decodeRope at0 0x1600181402001401 = some (.vshfl at0 { vz with dst := 12, sa := 10, sb := 1, ty := 5, mod := 1 }) ∧
    decodeRope at0 0x16001C1402001402 = some (.vshfl at0 { vz with dst := 14, sa := 10, sb := 1, ty := 5, mod := 2 }) ∧
    decodeRope at0 0x100020181C001400 = some (.vfadd at0 { vz with dst := 16, sa := 12, sb := 14, ty := 5 }) := by
  decide +kernel

theorem test_decode_m :
    decodeRope at0 0x804014110C800000 = some (.ld at0 { mz with data := 10, addr := 8, uaddr := true, size := 3, sub := 2 }) := by
  decide +kernel

theorem test_decode_cairn :
    decodeRope at0 0x4800001200000007 = some (.cairn at0 { iz with sa := 9, imm := 7 }) := by decide +kernel

/-- Words placed field by field from Tables 6.1 to 6.5 and 6.8: UADD, UMOVI guarded by NOT p2, BRA ALW, TMMA, HAUL.COPY,
BELL.SIG, TALLY.ADD, TWAIT. -/
theorem test_decode_families :
    decodeRope at0 (0x01 * 2 ^ 54 + 3 * 2 ^ 41 + 1 * 2 ^ 33 + 2 * 2 ^ 25) =
      some (.uadd at0 { vz with dst := 3, sa := 1, sb := 2 }) ∧
    decodeRope at0 (1 * 2 ^ 62 + 0x01 * 2 ^ 54 + 2 ^ 53 + 2 ^ 52 + 2 * 2 ^ 49 + 7 * 2 ^ 41 + 0xFFFFFFFF) =
      some (.umovi at0 { iz with ge := true, gn := true, gp := 2, dst := 7, imm := 0xFFFFFFFF }) ∧
    decodeRope at0 (3 * 2 ^ 62 + 0x01 * 2 ^ 54 + 2 ^ 44 + 0x3FFFFF * 2 ^ 22) =
      some (.bra at0 { cz with alw := true, tgt := 0x3FFFFF }) ∧
    decodeRope at0 (0x81 * 2 ^ 54 + 1 * 2 ^ 41 + 4 * 2 ^ 33 + 6 * 2 ^ 25 + 8 * 2 ^ 17 + 2) =
      some (.tmma at0 { vz with dst := 1, sa := 4, sb := 6, sc := 8, mod := 2 }) ∧
    decodeRope at0 (0x90 * 2 ^ 54 + 4 * 2 ^ 33 + 5 * 2 ^ 25 + 15) = some (.haulCopy at0 { vz with sa := 4, sb := 5, mod := 15 }) ∧
    decodeRope at0 (0xA0 * 2 ^ 54 + 4 * 2 ^ 33 + 5 * 2 ^ 25) = some (.bellSig at0 { vz with sa := 4, sb := 5 }) ∧
    decodeRope at0 (2 * 2 ^ 62 + 0x10 * 2 ^ 54 + 9 * 2 ^ 41 + 3 * 2 ^ 33 + 2 ^ 31 + 2 * 2 ^ 26 + 0x80001) =
      some (.tallyAdd at0 { mz with data := 9, addr := 3, spc := true, size := 2, off := 0x80001 }) ∧
    decodeRope at0 (0x70 * 2 ^ 54 + 16) = some (.twait at0 { vz with mod := 16 }) ∧
    decodeRope at0 (0x47 * 2 ^ 54) = none := by
  decide +kernel

/-- The record of the worked case of 20_observation_and_test.md. -/
theorem test_trace_record :
    traceBits 0x2540BE400 0x3E8 7 0x7D1 kCairn 5 (ropeSrc 530 13) 0 =
      0x00000002540BE400#64 ++ 0x00000000000003E8#64 ++ 0x00000007000007D1#64 ++ 0x0161234000000000#64 := by
  decide +kernel

/-- The worked case of 11_hbm_memory.md: LOCAL_K = 10. -/
theorem test_placement : stackPlace 10 0x2FFFFFFF08 = (18, 0x219999908) := by decide +kernel

/-! ### Small states -/

/-- A package in READY, its supplies good, PERST# released. -/
def up : State :=
  { ({ State.reset with board := { State.reset.board with perst := false } } : State).setRf .bootStatus .stage 8 with
    boot := { State.reset.boot with mode := false } }

def par1 : LaunchParams := ⟨1, 0x1000, 9, 1, 3, 1, 1, 64, 0, 64, 8, 4⟩
def rope1 : Rope := ⟨2, 0, 0x1000, BitVec.allOnes 32, 0, [], [], [(1, 5), (2, 7)], [], [], .none, none, 0, []⟩
def party1 : Party := ⟨0, 0, par1, [], [], .clear⟩
def cx1 : Ctx := ⟨false, 0, 0, 0, 0, [1, 1, 1, 1, 1, 1, 1, 1], []⟩

/-- Cluster 3 with party 2 of context 1, one rope in slot 5. -/
def withRope (r : Rope) (p : Party) (x : Ctx) : State :=
  { up with ctxs := [(1, x)]
            clusters := [(3, ⟨0, [], [(2, p)], [(5, r)], [], ⟨[], 0⟩, .idle, .idle⟩)] }

def s1 : State := withRope rope1 party1 cx1

/-- The rope of `at0` can issue under a guard and what it finds meets a condition. -/
def meets (s : State) (g : Guard) (p : IssueCtx → Bool) : Bool :=
  match s.issuing at0 g with
  | some k => p k
  | none => false

def live (k : IssueCtx) : Bool := k.e != 0

/-- Registers 64 × a + b of a table. -/
def regsAt (s : State) (l : List (Reg × Nat)) : State :=
  l.foldl (fun s e => s.setReg e.1 (BitVec.ofNat 64 e.2)) s

/-! ### Single steps -/

theorem test_step_front :
    after (step { s1 with pending := [.bar at0 cz, .ppsEdge] }) = after (exec (.bar at0 cz) { s1 with pending := [.ppsEdge] }) ∧
    (after (step { s1 with pending := [.bar at0 cz, .ppsEdge] })).map (fun t => t.pending) = some [.ppsEdge] := by
  decide +kernel

/-- u1 + u2 into u3, the pc on the next word. -/
theorem test_uadd : (after (exec (.uadd at0 { vz with dst := 3, sa := 1, sb := 2 }) s1)).bind
    (fun t => (Table.find (t.cluster 3).ropes 5).map fun r => (r.ureg 3, r.pc)) = some (12, 0x1008) := by decide +kernel

/-- 1.5 × 2.0 + 0.25 in FP32 on broadcast operands. -/
theorem test_vfma : (after (exec (.vfma at0 { vz with dst := 4, sa := 1, sb := 2, sc := 3, ua := true, ub := true, uc := true, ty := 4 })
    (withRope { rope1 with u := [(1, 0x3FC00000), (2, 0x40000000), (3, 0x3E800000)] } party1 cx1))).bind
    (fun t => (Table.find (t.cluster 3).ropes 5).map fun r => r.lane 1 4 31) = some 0x40500000 := by decide +kernel

/-- A misaligned lock raises ATOMIC_ALIGN, and its context fails. -/
theorem test_lock_align : (after (exec (.gunlock at0 { mz with addr := 1, uaddr := true, spc := true, size := 3 }) s1)).map
    (fun t => (t.rbit (.fltCtxState 1) .failed, (t.cluster 3).ropes.length)) = some (true, 0) := by decide +kernel

/-! ### The hypotheses of the statements -/

theorem wit_uniform : s1.issues at0 ({ vz with dst := 63, sa := 63, sb := 63 } : VFmt).guard
      ⟨3, 5, rope1, party1, 1, cx1, BitVec.allOnes 32, false⟩ ∧ (BitVec.allOnes 32 : Mask) ≠ 0 ∧
    meets s1 ({ vz with mod := 1 } : VFmt).guard live = true ∧ meets s1 ({ iz with imm := 63 } : IFmt).guard live = true ∧
    meets s1 ({ vz with sa := 7, dst := 63 } : VFmt).guard live = true := ⟨⟨rfl, rfl⟩, by decide +kernel⟩

/-- A rope found on the join of its top entry: pending lanes are taken up, and without pending lanes the entry pops. -/
theorem wit_join :
    meets (withRope { rope1 with stack := [⟨0x1000, 3, 0x2000, 1⟩] } party1 cx1) noGuard
      (fun k => k.rope.pc == 0x2000 && k.e == 1 && k.took) = true ∧
    meets (withRope { rope1 with stack := [⟨0x1000, 3, 0x2000, 0⟩] } party1 cx1) noGuard
      (fun k => k.rope.stack == [] && k.e == 3) = true ∧
    meets (withRope { rope1 with stack := List.replicate 32 ⟨0x1000, 3, 0x1000, 1⟩ } party1 cx1) noGuard
      (fun k => k.rope.stack == []) = true := by decide +kernel

/-- The moves, vector words and special registers: every type code of a clause, a pair at the top of the registers,
the zero operand, and a condition at the end of its range. -/
theorem wit_moves :
    meets s1 vz.guard (fun k => live k && k.party.par.vregs == 64) = true ∧ inReach 64 2 62 ∧ inReach 64 1 63 ∧
    inReach 64 2 255 ∧ ¬ inReach 64 2 63 ∧ (5 + 8 * bval true < 2 ^ 10) ∧
    meets (withRope rope1 party1 { cx1 with strict := true }) vz.guard (fun k => k.cx.strict) = true ∧
    (s1.rf (.clCtrSel 3 15) .ctx ≠ 1) ∧ ((s1.setRf (.clCtrSel 3 15) .ctx 1).rf (.clCtrSel 3 15) .ctx = 1) ∧
    s1.rbit (.podCtxJob 1) .valid = false ∧ (s1.setRf (.podCtxJob 1) .valid 1).rbit (.podCtxJob 1) .valid = true := by
  simp only [inReach]; decide +kernel

/-- NaN and zeros of either sign as operands, and the sources of conversions at their special values. -/
theorem wit_floats :
    fp32.decode 0x7FC00001 = .nan ∧ fp64.decode 0x7FF0000000000001 = .nan ∧ fp16.decode 0x7E00 = .nan ∧
    bf16.decode 0x7FC0 = .nan ∧ fp32.decode 0 = .fin false 0 (-149) ∧ fp32.decode 0x80000000 = .fin true 0 (-149) ∧
    fp32.decode 0x7F800000 = .inf false ∧ fp32.decode 0xFF800000 = .inf true ∧ e4m3.decode 0x7F = .nan := by
  decide +kernel

/-- Branches: no lane taken, all, some; a backward target; a top entry with this join; room for one more entry. -/
theorem wit_branches :
    meets s1 noGuard (fun k => (k.rope.preg 0) == 0 && k.rope.active != 0) = true ∧
    meets (withRope { rope1 with p := [(0, 5)] } party1 cx1) noGuard
      (fun k => k.rope.active &&& k.rope.preg 0 != 0 && k.rope.active &&& ~~~ k.rope.preg 0 != 0) = true ∧
    meets (withRope { rope1 with ret := List.replicate 15 (0, 0) } party1 cx1) noGuard
      (fun k => decide (k.rope.ret.length < 16)) = true ∧
    meets (withRope { rope1 with ret := [(0x40, 1)], stack := List.replicate 1 ⟨0, 0, 0, 0⟩ } party1 cx1) noGuard
      (fun k => k.rope.ret == [(0x40, k.rope.stack.length)]) = true ∧
    meets (withRope { rope1 with stack := List.replicate 31 ⟨0x2000, 3, 0x1008, 0⟩ } party1 cx1) noGuard
      (fun k => decide (k.rope.stack.length < 32)) = true ∧
    ((0x1000 + 8 * (0x3FFFFF#22).signExtend 64 : Word).ult 0x1008 = true) ∧
    ((0x1000 + 8 * (0x1FFFFF#22).signExtend 64 : Word).ult 0x1008 = false) := by decide +kernel

/-- EXIT of some, of the active and of the last lanes; a barrier that one rope still has to reach. -/
theorem wit_exit :
    meets (withRope { rope1 with p := [(0, 5)] } party1 cx1) noGuard
      (fun k => k.rope.active &&& ~~~ (k.rope.preg 0) != 0) = true ∧
    meets (withRope { rope1 with active := 3, exited := 0, stack := [⟨0x2000, 15, 0x3000, 12⟩] } party1 cx1) noGuard
      (fun k => k.rope.exited ||| 3 != BitVec.allOnes 32 && 12 &&& ~~~ (k.rope.exited ||| 3) != 0) = true ∧
    meets (withRope { rope1 with active := 3, exited := 12, stack := [⟨0x2000, 31, 0x3000, 12⟩] } party1 cx1) noGuard
      (fun k => 12 &&& ~~~ (k.rope.exited ||| 3) == 0 && 31 &&& ~~~ (k.rope.exited ||| 3) != 0) = true ∧
    meets (withRope { rope1 with active := 3, exited := ~~~ 3 } party1 cx1) noGuard
      (fun k => k.rope.exited ||| 3 == BitVec.allOnes 32 && k.rope.active == ~~~ k.rope.exited) = true := by
  decide +kernel

/-- Local memory: 32 lanes of 8 bytes inside the local store, one past it, lanes on one address, a misaligned lane. -/
theorem wit_local :
    meets (withRope { rope1 with u := [(1, 65280)] } party1 cx1) mz.guard (fun k =>
      let f : MFmt := { mz with addr := 1, uaddr := true, spc := true, size := 3, sub := 2 }
      live k && (lanes k.e).all fun l => decide (k.rope.addrOf f 0 8 l + 8 ≤ 65536)) = true ∧
    meets (withRope { rope1 with u := [(1, 65288)] } party1 cx1) mz.guard (fun k =>
      let f : MFmt := { mz with addr := 1, uaddr := true, spc := true, size := 3, sub := 2 }
      !(lanes k.e).all fun l => decide (k.rope.addrOf f 0 8 l + 8 ≤ 65536)) = true ∧
    operandsFit 64 2 { mz with data := 62, addr := 1, uaddr := true, spc := true, size := 3 } ∧
    meets (withRope { rope1 with u := [(1, 64)] } party1 cx1) mz.guard (fun k =>
      let f : MFmt := { mz with addr := 1, uaddr := true, spc := true, size := 3 }
      (lanes k.e).all fun l => k.rope.addrOf f 0 0 l % 32 == 0) = true ∧
    meets s1 mz.guard (fun k =>
      let f : MFmt := { mz with addr := 1, uaddr := true, spc := true, size := 3 }
      (lanes k.e).any fun l => k.rope.addrOf f 0 0 l % 8 != 0) = true ∧
    meets s1 ({ mz with ge := true } : MFmt).guard (fun k => k.e == 0) = true := by
  simp only [operandsFit, inReach]; decide +kernel

/-- A lock held by lane 0, one free, and one held by another. -/
theorem wit_locks :
    ({ party1 with ls := [(64, 0xA1), (65, 0x18)] } : Party).lsRead 64 8 = 1 + 2048 * 3 + 32 * 5 ∧
    party1.lsRead 64 8 = 0 ∧ ({ party1 with ls := [(64, 1)] } : Party).lsRead 64 8 ≠ 1 + 2048 * 3 + 32 * 5 := by
  decide +kernel

/-! ### The hypotheses of the statements: issue, device memory, bells, tokens -/

/-- A state with contexts 0 and 1 translated by range-cache entries of 1 GiB, every frame owned by all. -/
def reach : RangeCache :=
  ⟨[(0, ⟨1, 0, 2 ^ 30, 0, true, true, true, 0⟩), (1, ⟨0, 0, 2 ^ 30, 0, true, true, true, 0⟩)], 2⟩
def mapped (s : State) : State :=
  { s.mapClusters (fun _ k => { k with rc := reach }) with xlt := { s.xlt with
      square := reach, owners := [(0, 491520, 63)] } }
def withU (l : Table Word) : Rope := { rope1 with u := l }
def devf : MFmt := { mz with addr := 1, uaddr := true, size := 3 }

/-- A rope that waits, one on a halted cluster and an empty slot cannot issue; an empty effective mask, a register at
VREGS, a pair at an odd field and a special register of a STRICT context can. -/
theorem wit_checks :
    ((withRope { rope1 with wait := .bar } party1 cx1).issuing at0 noGuard).isNone = true ∧
    ((s1.setReg (.fltHalted 0) 8).issuing at0 noGuard).isNone = true ∧ (up.issuing at0 noGuard).isNone = true ∧
    meets s1 noGuard (fun k => (Table.find (s1.cluster k.c).ropes k.slot).isSome) = true ∧
    meets s1 ({ vz with ge := true } : VFmt).guard (fun k => k.e == 0) = true ∧
    meets s1 vz.guard (fun k => decide (k.party.par.vregs < 64 + 1) && decide (63 + 1 ≤ k.party.par.vregs)) = true ∧
    (s1.issuing ⟨3, 5, .uncorrectable⟩ noGuard).isSome = true ∧
    (s1.issuing ⟨3, 5, .corrected⟩ noGuard).isSome = true ∧ 3 % 2 ≠ 0 := by decide +kernel

/-- A device load that reads, a store that translates, an atomic and a lock on two lines, all without fault. -/
theorem wit_device :
    meets (mapped s1) devf.guard (fun k =>
      let accs := k.rope.addrs devf 3 8 k.e
      ((mapped s1).ropeLoadVals k false devf none accs 8).2.isSome &&
        ((mapped s1).ropeXlat k needWrite accs 8).2.isSome && accs.all fun a => decide (a.2 + 8 < 2 ^ 55)) = true ∧
    meets (mapped (withRope (withU [(1, 128)]) party1 cx1)) devf.guard (fun k =>
      let accs := k.rope.addrs devf 0 0 k.e
      ((mapped s1).ropeRead k needAtomic true true none accs 32).2.isSome && accs.all (fun a => a.2 % 32 == 0) &&
        !k.took && k.rope.stack.length == 0 && live k) = true := by decide +kernel

/-- The coherence fabric at rest meets what the masked write, the uncached read and the requests ask; so does a state
with a copy in each state of a line. -/
theorem wit_home :
    up.mem.wf = true ∧ Table.find up.coh.trans 5 = none ∧ up.coh.msgs = [] ∧ up.coh.rsv = [] ∧ up.mayCache 4 5 = true ∧ up.mayCache 0 5 = false ∧
    up.freeWay 4 5 = some 0 ∧ up.cores = [] ∧
    (let full : State := up.mapCoh fun k => { k with agents := [(4, { CAgent.empty with
       lines := (List.range 16).map fun i => (5 + (i + 1) * 65536, ⟨.m, 0, 0, i⟩) })] }
     full.freeWay 4 5 = none ∧ (full.cacheVictim 4 5).isSome = true) ∧ memLines ≤ coreBarLine ∧
    (up.dirPeers 5).length < 16 ∧ (mapped up).ownerOk 1 5 = true ∧ up.ownerOk 0 (memLines - 1) = true ∧
    up.cohReq 4 5 = none ∧
    ([LineState.m, .o, .e, .s].all fun st => decide (Table.find
      ((up.setLine 4 5 ⟨st, 0, 0, 15⟩).agent 4).lines 5 = some ⟨st, 0, 0, 15⟩)) = true := by decide +kernel

/-- A fence of each scope, with a clean L1 and with a dirty line that its home accepts. -/
theorem wit_fence :
    meets s1 ({ mz with scope := 1, sub := 2 } : MFmt).guard live = true ∧
    ((mapped s1).setCluster 3 { (mapped s1).cluster 3 with l1 := [⟨1, 0, 0, 7, 1, 1, 0⟩] }).ownerOk 1 0 = true := by
  decide +kernel

/-- A bell the context owns at its threshold and one below it; one of another owner; the first index past the end. -/
theorem wit_bells :
    (regsAt s1 [(.bellOwner 5, 1), (.bellVal 5, 7)]).bellOk 1 5 = true ∧
    (7 : Word).toNat ≤ ((regsAt s1 [(.bellVal 5, 7)]).bell 5).toNat ∧ ((s1.bell 5).toNat < (7 : Word).toNat) ∧
    (regsAt s1 [(.bellOwner 5, 2)]).bellOk 1 5 = false ∧
    meets (withRope (withU [(1, 16384)]) party1 cx1) vz.guard (fun k => decide (16384 ≤ (k.rope.ureg 1).toNat)) = true ∧
    meets (withRope (withU [(1, 16383)]) party1 cx1) vz.guard (fun k => decide ((k.rope.ureg 1).toNat < 16384)) = true ∧
    s1.clusters.all (fun c => c.2.ropes.all fun r => decide (r.2.wait = .none)) = true ∧ s1.queues = [] := by
  decide +kernel

/-- A token with nothing outstanding, one with an operation outstanding, across the wrap of its counts; and a marker
whose record has room. -/
theorem wit_tokens :
    (party1.token 0).outstanding = 0 ∧ (⟨0, 65535, .haul⟩ : Token).outstanding = 1 ∧
    (s1.trace (ropeSrc 3 5) 0 1 0 7 5).isSome = true := by decide +kernel

/-! ### The hypotheses of the statements: the engines, ropes and parties -/

/-- A one-dimensional FP32 descriptor of 64 elements at `base` (Table 8.1). -/
def descBits (base : Nat) : Nat :=
  base + 2 ^ 352 + 2 ^ 360 + (2 ^ 24 - 1) * 2 ^ 480 + 64 * 2 ^ 512 +
    2 ^ 552 + 2 ^ 592 + 2 ^ 632 + 2 ^ 672 + 2 ^ 712 + 2 ^ 768

/-- An FP32 accumulation of party 2 on FP8 panels, over [0, 2048), its tag without a value yet. -/
def acc0 : Acc := ⟨2, 1, 4, 4, .fp32, 0, 0, none, ⟨false, 0, 2048, 2048, 0⟩, false, false, 3, false, 0, [], [], [], 0⟩
def fullTag (a b : Nat) : Tag := ⟨true, 0, 2048, b, a⟩

/-- The mapped small state with descriptors at 0 and 128 and a tensor engine. -/
def engined (accs : Table Acc) (queue : List TensorOp) (hq : List HaulOp) (r : Rope) : State :=
  let s := mapped (withRope r party1 cx1)
  { s.setCluster 3 { s.cluster 3 with
      l1 := [⟨1, 0, 0, BitVec.ofNat 1024 (descBits 0x2000), BitVec.allOnes 128, BitVec.allOnes 128, 0⟩,
        ⟨1, 1, 1, BitVec.ofNat 1024 (descBits 0x3000), BitVec.allOnes 128, BitVec.allOnes 128, 0⟩]
      te := { TensorEngine.idle with
        accs := accs, handles := accs.map (fun e => (32 + e.1, e.1)), queue := queue }
      haul := ⟨hq, none, 9⟩ } with ctxs := [(1, cx1)] }

/-- TACC.OPEN over one chunk and over all of K = 0; TCOMB of the two halves; the bounds of HANDLES and of the slots. -/
theorem wit_handles :
    (tensorPair 4 4).isSome = true ∧ (⟨false, 0, 2048, 1024, 0⟩ : Tag).legal = true ∧
    (⟨true, 0, 0, 0, 0⟩ : Tag).legal = true ∧ (2 ^ 34 : Nat) ≤ 2 ^ 34 ∧
    ((s1.cluster 3).handle 2 0).isNone = true ∧ (s1.cluster 3).slotsHeld 2 + slotsFor 1 ≤ 8 ∧ (s1.cluster 3).slotsKept 2 + 1 ≤ 8 ∧
    (((fullTag 0 1024).combine (fullTag 1024 2048)).isSome = true) ∧
    (((engined [(0, acc0), (1, acc0)] [] [] rope1).cluster 3).handle 2 1).isSome = true ∧
    party1.tokenMix 3 .tensor = false ∧ (party1.token 3).outstanding ≠ 255 ∧ (3 : Nat) < party1.par.handles ∧
    (s1.cluster 3).te.accs.length < 64 := by decide +kernel

/-- TMMA of one chunk, and of a last short one; the panels' words. -/
theorem wit_tmma :
    panelOk (2 ^ 32 + 4 * 2 ^ 103) false = true ∧ panelOk (2 ^ 32 + 4 * 2 ^ 103) true = true ∧
    (Panel.ofNat (2 ^ 32 + 4 * 2 ^ 103)).fmt = acc0.fmtA ∧ acc0.queuedTo ≠ acc0.tag.kEnd ∧
    acc0.queuedTo + 1024 ≤ acc0.tag.kEnd ∧ acc0.queuedTo + 2048 = acc0.tag.kEnd ∧
    pieceFault [] 65536 (Panel.ofNat (2 ^ 32 + 4 * 2 ^ 103)) (Panel.ofNat (2 ^ 32 + 4 * 2 ^ 103)) 128 32 = none ∧
    arrayTime acc0 32 ≤ 256 := by decide +kernel

/-- A plain store and a load of the descriptor at 0, both with every check passed. -/
theorem wit_descriptors :
    let k := engined [(0, { acc0 with tag := fullTag 0 2048, origin := some (0, 0) })] [] [] rope1
    let r := (k.session 3 1 2 ⟨[], []⟩ [] 0).readDesc 0
    let u := k.place 1 3 cx1
    (match r.2 with
      | some (d, res) => !res && d.formOk cx1.axes && decide (d.rank ≤ 2) && d.mxShapeOk && r.1.stop.isNone &&
        (storeDescFault u party1.lsBytes 0 (some (d, false)) none).isNone &&
        (storeModeFault cx1 { acc0 with tag := fullTag 0 2048, origin := some (0, 0) } 0 false false (some (d, false))
          none).isNone &&
        (let l := r.1.ledgersOk cx1 [some (d, false)]
         l.2 && l.1.stop.isNone && l.1.takeOff.stop.isNone) &&
        !spanForm (d.footprint u) && !spanOutside party1.lsBytes (d.footprint u)
      | none => false) = true ∧ (r.1.st.cluster 3).te.accs.length < 64 := by decide +kernel

def haul0 (k : HaulKind) : HaulOp := ⟨k, 0, 0, 128, 2, 5, 1, 0x1000, 3, false, 0, 8, false, [], 0⟩

/-- A Haul instruction's token and queue (one place left), a copy and a reduction that start without a stop, one that
has reached its milestone. -/
theorem wit_haul :
    party1.tokenMix 3 .haul = false ∧ (List.replicate 31 (haul0 .copy)).length < 32 ∧
    ([HaulKind.copy, .red 0].all fun kind =>
      let s := engined [] [] [haul0 kind] rope1
      let b := (s.session 3 1 2 ⟨[], []⟩ [] 0).haulPlan 3 (haul0 kind) party1 cx1
      s.ready && !s.clusterHalted 3 && b.1.stop.isNone && b.2.idx.isNone &&
        (let w := b.1.moves false b.2.src b.2.dst b.2.us b.2.ud (haulPairs kind b.2.src b.2.dst b.2.ax [])
         ((w.1.writeAll w.2.1).drops b.2.dst w.2.2).commit.stop.isNone)) = true ∧
    (engined [] [] [{ haul0 .copy with started := true }] rope1).haulDone 3 { haul0 .copy with started := true } = true ∧
    s1.mayTrace (haulSrc 3) 1 kHaulDone = true ∧ s1.mayTrace (tensorSrc 3) 1 kTensorDone = true := by decide +kernel

/-- Permits: the oldest request with 15 grants in the last 64 ac, one idle for 16; and a sampled tile that waits. -/
theorem wit_permits :
    let t := (engined [] [] [] rope1).modTe 3 fun t => { t with asked := some 0, permit := true, idleAc := 16 }
    (t.cluster 3).te.asked = some 0 ∧ (t.clusters.all fun e => e.2.te.asked = some 0) = true ∧
    ((List.replicate 15 t.acCount).filter fun x => decide (t.acCount < x + 64)).length < 16 ∧
    (t.cluster 3).te.permit = true ∧ 16 ≤ (t.cluster 3).te.idleAc ∧
    (t.clusterHalted 3 = false ∧ (Table.find t.ctxs 1).isSome = true) := by decide +kernel

/-- Token signals and party events: a resident party without waits; a rope that has counted 2^20 turns, one that spins
and one that wants a lock; a party that fits exactly; a party whose ropes have ended. -/
theorem wit_parties :
    (Table.find (s1.cluster 3).parties 2).isSome = true ∧
    ((s1.cluster 3).ropes.all fun e => decide (e.2.wait = .none)) = true ∧
    ((withRope { rope1 with wait := .spin mz 1, livelock := 2 ^ 20 } party1 cx1).waiting 3 5 noGuard).isSome = true ∧
    ((withRope { rope1 with wait := .glock mz 1 } party1 cx1).waiting 3 5 noGuard).isSome = true ∧
    Cluster.idle.fits { par1 with ropes := 16, vregs := 255, lsKib := 2816, split := 0, slots := 32, handles := 16 } = true ∧
    s1.mayTraceRopes 3 [0, 1] 1 kPartyStart = true ∧ s1.mayTraceRopes 3 [5] 1 kPartyEnd = true ∧
    (withRope { rope1 with exited := BitVec.allOnes 32, active := 0 } party1 cx1).clusters.all
      (fun c => c.2.ropes.all fun e => e.2.ended) = true ∧
    ((List.range 16).all fun t => (party1.token t).outstanding == 0) = true := by decide +kernel

/-! ### The hypotheses of the statements: queues and their commands -/

/-- Queue 7 of context `ctx`, running on ring 4, with one fetched command of these words. -/
def cmd0 (ws : List Nat) : Cmd := ⟨0, BitVec.ofNat 512 (ws.foldr (fun w a => w + 2 ^ 64 * a) 0), .fetched⟩
def queued (ctx : Nat) (c : Cmd) : State :=
  let s := { mapped up with ctxs := [(0, cx1), (1, cx1)], queues := [(7, ⟨1, [c], none, none⟩)] }
  ((s.setRf (.hqSqCtrl 7) .ctx ctx).setRf (.hqSqCtrl 7) .enable 1).setRf (.hqSqStatus 7) .state qRun
def starts (ctx : Nat) (ws : List Nat) : Bool :=
  let c := cmd0 ws
  let s := queued ctx c
  decide (s.nextCmd 7 (fun _ => true) = some c) && s.mayStart 7 c && c.flags / 4 == 0

/-- A command of each opcode may start; a shape of LAUNCH that is legal and one bell past the last. -/
theorem wit_commands :
    ([1, 2, 3, 4, 5, 6, 7, 8, 9, 10, 11, 12, 0x10, 0x11, 0x12, 0x13, 0x14, 0x15, 0x16].all fun op => starts 0 [op]) = true ∧
    ([1, 2, 4, 5, 0x10, 0x15, 0x16].all fun op => starts 1 [op]) = true ∧
    ((cmd0 [3, 0x1000, 0, 1 + 2 ^ 48 + 703 * 2 ^ 32, 1 + 16 * 2 ^ 8]).launchParams 1).shapeOk = true ∧
    (cmd0 [3, 0x1000, 0, 1 + 2 ^ 48 + 703 * 2 ^ 32, 1 + 16 * 2 ^ 8]).reserved [allBits, allBits, span 0 42 + span 48 10,
      span 0 6 + span 8 8 + span 16 2 + span 20 12 + span 32 6 + span 40 5] = none ∧
    (cmd0 [2, 3, 9]).word 1 < 4 ∧ (queued 1 (cmd0 [2, 3, 9])).windowReached 3 0 = true ∧
    (queued 1 (cmd0 [2, 3, 9])).windowReached 3 9 = false ∧
    (regsAt up [(.bellOwner 16383, 1)]).bellOk 1 16383 = true ∧ (cmd0 [4, 16383, 1]).word 1 < 16384 ∧
    (queued 1 (cmd0 [4])).bellWaits 7 = 0 ∧
    ({ queued 1 (cmd0 [4]) with queues := [(7, ⟨17, List.replicate 16 ⟨1, 0, .waiting waitBell⟩, none, none⟩)] } :
      State).bellWaits 7 = 16 ∧
    (queued 0 (cmd0 [9])).invBusy = false ∧ (cmd0 [9, 62 + 256]).word 1 % 64 ≠ 63 ∧
    ((up.setRf .pwrCtl .hintEn 1).rbit .pwrCtl .hintEn = true ∧ (up.setRf .pwrCtl .hintEn 0).rbit .pwrCtl .hintEn = false) := by
  decide +kernel

/-- A BARRIER of a context on one node, a MUSTER with and without a job of two nodes. -/
theorem wit_collectives :
    let s := queued 1 (cmd0 [0x15])
    (⟨1, 0, 1, 7, 0, (cmd0 [0x15]).record, [0], 0, [], [], [], [], 0, none⟩ : Coll).badWord = none ∧
    (s.coll 1 0).isNone = true ∧ s.pod.collQueue = [] ∧ s.musters 1 = false ∧
    (regsAt s [(.podCtxJob 1, 2 ^ 63 + 2 * 2 ^ 32)]).musters 1 = true ∧
    (regsAt s [(.podCtxJob 1, 2 ^ 63 + 2 * 2 ^ 32)]).muster 1 = .none ∧
    (s.unitRead 1 0 64 needReadDev).2.1 = .ok := by decide +kernel

/-- PUBLISH and TABLE_LOAD at the ends of their ranges; a ledger of no entry; a context record; the reads and writes
that they make. -/
theorem wit_queue_memory :
    let s := queued 1 (cmd0 [7])
    publishBad 0 32 32 = none ∧ publishBad 0 (2 ^ 55 - 32) 32 = none ∧
    tableLoadBad (2 ^ 56 - 32) (0xF000000000 - 32) 32 = none ∧
    (s.unitRead 1 0 32 needReadDev).2.1 = .ok ∧ (s.unitWrite 1 32 (leBytes 32 5)).2 = .ok ∧
    ((s.unitWrite 1 128 (leBytes 132 0) needWriteDev).2 = .ok) ∧
    ctxRecordOk (leBytes 16 (1 + 40 * 2 ^ 16 + 60 * 2 ^ 24 + 8 * 2 ^ 32 + 4 * 2 ^ 40) ++
      ((List.replicate 8 (leBytes 4 1)).flatten ++ leBytes 80 0)) (s.nodesOf 2) = true ∧
    (Table.find s.ctxs 2).isNone = true := by decide +kernel

/-- Entries of a ledger: touched with overflow below and at 254, without at, above and below the bound, held. -/
theorem wit_ledger :
    ([2 ^ 29 + 2 ^ 31 + 253, 2 ^ 29 + 2 ^ 31 + 254, 2 ^ 29 + 5 * 2 ^ 16 + 5, 2 ^ 29 + 6 * 2 ^ 16 + 5, 2 ^ 29 + 4 * 2 ^ 16 + 5,
      2 ^ 29 + 2 ^ 24 + 4 * 2 ^ 16 + 5, 255].map fun x =>
        closeEntry ⟨3, false, 0, 31, 0⟩ 0 true x) =
      [(31 * 2 ^ 24 + 2 ^ 8 + 254, true, false), (31 * 2 ^ 24 + 254, false, false), (5, false, false),
        (31 * 2 ^ 24 + 2 ^ 8 + 6, true, false), (4, false, true), (5, false, false), (255, false, false)] := by
  decide +kernel

/-- Queue and ring registers: an acceptable enable of each kind, a running, a stopped and a disabled queue; a doorbell
within the ring. -/
theorem wit_queue_registers :
    let base := regsAt { up with ctxs := [(1, cx1)] } [(.hqSqBase 7, 4), (.hqCqBase 4, 4), (.hqCqCtrl 4, 2 ^ 63)]
    let run := queued 1 (cmd0 [1])
    base.sqEnableOk (.core 71) 7 1 4 = true ∧ base.sqState 7 = qDisabled ∧ base.sqForeign .host 7 = false ∧
    base.cqUsed 5 = false ∧ 4 ≤ base.rf (.hqSqBase 7) .sizeLog2 ∧ base.cqVa 5 < apertureBase ∧
    run.sqState 7 = qRun ∧ run.sqForeign (.core 0) 7 = false ∧ run.sqForeign .host 7 = true ∧
    (run.setRf (.hqSqStatus 7) .state qStopped).sqState 7 = qStopped ∧ run.rf (.hqSqStatus 7) .fetched ≠ (run.queue 7).producer ∧
    (run.readSlot 7 hostOk).2 = .record 0 ∧ (run.queue 7).stall = none ∧
    (∃ c, c ∈ (run.queue 7).cmds ∧ c.state = .fetched) ∧ run.mayTrace (queueSrc 7) 1 kCmdDone = true ∧
    ((run.complete 7 { cmd0 [1] with state := .finished 0 0 0 } 0 0 0).queue 7).stall = none := by decide +kernel

/-! ### The hypotheses of the statements: the host interface, registers, translation, coherence and memory -/

/-- A package in boot mode, in WAIT_IMAGE and in VERIFY; in READY with a window disabled and enabled; the last bytes
of a window and of the boot SRAM; the link up and down. -/
theorem wit_windows :
    let boot (n : Nat) := ({ State.reset with board := { State.reset.board with perst := false } } : State).setRf .bootStatus .stage n
    (boot 1).endpoint = true ∧ (boot 1).fatal = false ∧ (boot 1).boot.mode = true ∧ (boot 1).stage ≠ 2 ∧ (boot 2).stage = 2 ∧
    2 ^ 23 - 4 + 4 ≤ 2 ^ 23 ∧ up.boot.mode = false ∧ up.endpoint = true ∧ up.rbit (.hqWinBase 3) .enable = false ∧
    (up.setRf (.hqWinBase 3) .enable 1).rbit (.hqWinBase 3) .enable = true ∧ (2 ^ 36 - 1) / 2 ^ 34 = 3 ∧
    fld 0x3E00000000000000#64 56 6 = 62 ∧ up.rbit .hqLinkStatus .up = false ∧
    ((up.setRf .hqLinkStatus .up 1).rbit .hqLinkStatus .up = true ∧
      (((up.setRf .hqLinkStatus .up 1).setRf .hqLinkStatus .up 0).satRf .hqLinkStatus .downCount 1).ready = true) ∧
    up.pcie.pend.contains 2047 = false ∧
    ({ up with pcie := { up.pcie with pend := [2047] } } : State).pcie.pend.contains 2047 = true ∧ up.pcie.funcMask = false := by decide +kernel

/-- Registers whose fields lie apart, one of each kind of access. -/
theorem wit_registers :
    ([Reg.hqSqCtrl 7, .podEvent, .obsEvent, .fltXfNew 3, .hqWinBase 3, .pwrCtl].all fun r =>
      decide (r.fields.Pairwise fun f g => f.lo + f.w ≤ g.lo ∨ g.lo + g.w ≤ f.lo) &&
        r.fields.all fun f => decide (f.lo + f.w ≤ 64)) = true := by decide +kernel

/-- Writes of 8 and 4 bytes, one misplaced and one of another size; host and core writes that share no byte and that
share one; counters of a cluster and of the package. -/
theorem wit_writes :
    Reg.ofAddr Reg.pwrCapWatts.addr = some .pwrCapWatts ∧ (⟨.host, Reg.pwrCapWatts.addr, 8, 5⟩ : BarWrite).sized = true ∧
    (⟨.host, Reg.pwrCapWatts.addr + 4, 4, 5⟩ : BarWrite).sized = true ∧
    (⟨.host, Reg.pwrCapWatts.addr + 4, 8, 5⟩ : BarWrite).sized = false ∧ (⟨.host, 0, 2, 5⟩ : BarWrite).sized = false ∧
    up.blockOpen .pwr .host = true ∧ up.blockOpen .pwr (.core 71) = true ∧ up.blockOpen .boot (.core 71) = false ∧
    blockAt Reg.pwrCapWatts.addr ≠ .hq ∧ blockAt Reg.pwrCapWatts.addr ≠ .msix ∧
    (⟨.host, Reg.pwrCapWatts.addr, 4, 5⟩ : BarWrite).mask &&& (⟨.core 0, Reg.pwrCapWatts.addr + 4, 4, 5⟩ : BarWrite).mask = 0 ∧
    (⟨.host, Reg.pwrCapWatts.addr, 4, 5⟩ : BarWrite).mask &&& (⟨.core 0, Reg.pwrCapWatts.addr, 8, 5⟩ : BarWrite).mask ≠ 0 ∧
    Reg.ofAddr (Reg.clCtr 703 15).addr = some (.clCtr 703 15) ∧ blockAt (Reg.clCtr 703 15).addr = .cl ∧
    Reg.ofAddr (Reg.obsPctr 255).addr = some (.obsPctr 255) ∧ blockAt (Reg.obsPctr 255).addr = .obs := by decide +kernel

/-- A bell that admits the host and one that does not, the last one; nobody waits. -/
theorem wit_bell_registers :
    up.ready = true ∧ (up.setRf (.bellOwner 16383) .host 1).rbit (.bellOwner 16383) .host = true ∧
    up.rbit (.bellOwner 16383) .host = false ∧ up.clusters = [] ∧ up.queues = [] := by decide +kernel

/-- A pod of two ranks: job 9 bound to context 1 as rank `me`, this node 1, port 5 up. -/
def podded (me : Nat) : State :=
  let s := { regsAt up [(.podCtxJob 1, 2 ^ 63 + 2 * 2 ^ 32 + 9)] with ctxs := [(1, cx1)] }
  ((((s.setRf .podNode .valid 1).setRf .podNode .nodeId 1).setRf (.podPortStatus 5) .up 1).setRf (.podCtxMap 1) .myRank me)

/-- A walk that faults and one that hits; an invalidation to start, in progress, with one acknowledgement and with all
but one; an owner change; a fault record and a held fault. -/
theorem wit_translation :
    ((podded 1).carries (.port 5) 1 && !(podded 1).agentStalled (.port 5)) = true ∧
    (s1.carries (.rope 3 5) 1 && !s1.agentStalled (.rope 3 5)) = true ∧
    (up.translate .square 1 0 needRead).2 = .fault 6 0x1FFFF ∧ ((mapped up).translate .square 1 (2 ^ 30 - 1) needRead).2 =
      .mem (2 ^ 30 - 1) ∧ up.invBusy = false ∧ ((up.startInv 1 true 0 0 none).invBusy = true) ∧
    (up.startInv 1 true 0 0 none).xlt.inv.isSome = true ∧ (setInsert (List.range 703) 704).length < 705 ∧
    705 ≤ (setInsert (List.range 704) 704).length ∧ up.rbit .xltOwnCtrl .busy = false ∧
    ((up.setRf .xltOwnCtrl .busy 1).rbit .xltOwnCtrl .busy = true) ∧ (491519 + 1 : Nat) ≤ 491520 ∧
    ({ up with xlt := { up.xlt with held := [⟨.port 5, 1, 0, 1, 0, 0⟩] } } : State).xlt.nextHeld =
      some ⟨.port 5, 1, 0, 1, 0, 0⟩ ∧ (up.admitFault ⟨.port 5, 1, 0, 1, 0, 0⟩).isSome = true := by decide +kernel

/-- A hit of the last byte of an entry with each permission missing, and an aperture address under each mode. -/
theorem wit_ranges :
    let only (r w x : Bool) : State := { up with xlt := { up.xlt with square := ⟨[(0, ⟨1, 0, 65536, 0, r, w, x, 9⟩)], 1⟩ } }
    ((only true false false).rcache .square).lookup 1 65535 = some ⟨1, 0, 65536, 0, true, false, false, 9⟩ ∧
    ((only true false false).translate .square 1 65535 needAtomic).2 = .fault 2 9 ∧
    ((only false true true).translate .square 1 0 needAtomic).2 = .fault 1 9 ∧
    ((only true true false).translate .square 1 0 needExec).2 = .fault 3 9 ∧
    ((up.setRf (.xltCtx 1) .aperture 1).translate .square 1 (2 ^ 55) needRead).2 = .host 0 ∧
    ((up.setRf (.xltCtx 1) .aperture 1).translate .square 1 (2 ^ 55) needWrite).2 = .fault 5 0x1FFFF ∧
    ((up.setRf (.xltCtx 1) .aperture 2).translate .square 1 (2 ^ 56 - 1) needWrite).2 = .host (2 ^ 55 - 1) ∧
    ((up.setRf (.xltCtx 1) .aperture 2).translate .square 1 (2 ^ 56 - 1) needAtomic).2 = .fault 5 0x1FFFF := by
  decide +kernel

/-- Each message of the fabric in flight is found; copies of each state; a request that waits for it. -/
def flying (m : CMsg) : State :=
  let s := up.setLine 4 5 ⟨.m, 7, 0, 0⟩
  (s.setCohReq 4 6 ⟨.rdS, 1, 0, 0, .unit false, 0, none, 7, false, true, none, none⟩).mapCoh fun k => { k with
    msgs := [m], trans := [(5, ⟨4, .rdX, 1, 0, 0, .snoops, [4], [], 0, 0, none, false⟩)] }

theorem wit_messages :
    ([CMsg.snpShr 4 5 .home, .snpInv 4 5 (.agent 5), .snpCur 4 5, .snpRsp 4 5 3 true, .cmp 4 6 (some .e), .cmp 4 6 none,
      .nack 4 6, .ack 4 5, .data 4 6 0 0 true none, .data homeDest 5 0 0 false none].all fun m =>
        ((flying m).cohTake fun x => x == m).isSome && (flying m).ready) = true ∧
    ((flying (.nack 4 6)).copyOf 4 5).isSome = true ∧ ((flying (.nack 4 6)).copyOf 5 5).isNone = true ∧
    ((flying (.nack 4 6)).cohReq 4 6).isSome = true ∧ ((flying (.nack 4 6)).transOf 5).isSome = true := by decide +kernel

/-- An idle Sweep and one that has noted a line; a trained stack; temperatures at the limits; an activation count that
Config's threshold can meet. -/
theorem wit_hbm :
    up.swpBusy 4 = false ∧ (Table.find (up.mapCoh fun k => { k with sweeps := [(4, ⟨true, [5], []⟩)] }).coh.sweeps 4).isSome = true ∧
    (up.setRf (.glbMemStat 19) .trained 1).rbit (.glbMemStat 19) .trained = true ∧
    (up.setRf .glbMemScrub .enable 1).rbit .glbMemScrub .enable = true ∧ up.coh.trans = [] ∧ (105 : Int) ≤ 105 ∧
    (storedWord 5 false < 2 ^ 272) ∧ decodeSyndrome (symbolSum 68 (storedWord 5 false)) = .clean := by decide +kernel

theorem wit_rfm (st : Nat) : Config.rfmThreshold st ≤ Table.get 0 [(3072 * st, Config.rfmThreshold st)] (3072 * st) := by
  simp [Table.get]

/-! ### The hypotheses of the statements: links, supplies, boot, services, the pod and observation -/

/-- A null frame that acknowledges SEQ 4095, its CRC in place. -/
def nullBits : Nat := 2 ^ 1095 + 4095 * 2 ^ 1108
def nullFrame : BitVec 1152 := BitVec.ofNat 1152 (nullBits + crc32c (leBytes 140 nullBits) * 2 ^ 1120)

theorem wit_links :
    let s := (up.setRf .glbD2dStatus .trained 255).setRf .glbClkStatus .rootLock 1
    s.sliceOn 3 1 89 = true ∧ s.sliceOn 7 1 44 = true ∧ s.sliceOn 7 1 45 = false ∧
    (s.sendFrame 0 0 5 nullFrame []).isSome = true ∧ frameReserved nullFrame = true ∧
    ((s.setSlice 5 { SliceDir.trained with buf := [⟨0, 0, 16, []⟩] }).slice 5).buf ≠ [] ∧
    256 < ((List.replicate 257 s.fcCount).filter fun t => decide (s.fcCount < t + 2 ^ 20)).length ∧
    s.rbit .glbClkStatus .rootLock = true ∧ ((up.setRf .glbClkStatus .followLock 8).rf .glbClkStatus .followLock).testBit 3 = true := by
  decide +kernel

/-- The controller with 99 and with 100 samples, a hint of 999 us; supplies in and out of range; VAUX and the rails. -/
theorem wit_power :
    let n (k : Nat) : State := { up with power := { up.power with samples := List.replicate k 6400 } }
    (n 99).powerOn = true ∧ (n 99).power.samples.length < 100 ∧ (n 100).power.samples.length = 100 ∧
    ((up.setRf .pwrHint .active 1).setRf .pwrHint .remainUs 999).rbit .pwrHint .active = true ∧
    ((up.setRf .pwrHint .active 1).setRf .pwrHint .remainUs 999).rf .pwrHint .remainUs < 1000 ∧
    up.board.rails = true ∧ up.board.vaux = true ∧ up.board.vinOk = true ∧ up.board.tripped = false ∧
    ({ up.board with pwrgood := true } : Board).pwrgood = true ∧ ({ up.board with pwrgood := false } : Board).pwrgood = false := by decide +kernel

/-- Boot SRAM bytes of a record of context 0 at 0x1000 with axes of one. -/
def bundle0 : Table Byte :=
  [(0x21, 0x10), (0x24, 128), (0x1002, 40), (0x1003, 60), (0x1004, 8), (0x1005, 4)] ++
    (List.range 8).map (fun i => (0x1010 + 4 * i, 1))

/-- Each boot stage; a record of context 0 that passes and one that does not; a memory that is kept and one that is
not; resets in the ROM stage, in READY and after PERST#. -/
theorem wit_boot :
    let boot (n : Nat) := ({ State.reset with board := { State.reset.board with perst := false } } : State).setRf .bootStatus .stage n
    ((List.range 8).all fun n => (boot n).endpoint && !(boot n).fatal && (boot n).stage == n) = true ∧
    (boot 1).blockOpen .boot .host = true ∧ (boot 1).blockOpen .boot .reeve = true ∧ (boot 7).ctxZeroOk = false ∧
    ({ boot 7 with boot := { (boot 7).boot with sram := bundle0 } } : State).ctxZeroOk = true ∧
    (boot 5).showMap.replacementDue = false ∧ ({ boot 5 with fuses := { (boot 5).fuses with failedLinks := 1 } } :
      State).showMap.replacementDue = true ∧
    (89 : Nat) < linkSlices 3 ∧ ({ boot 7 with pcie := { (boot 7).pcie with otherWidth := true } } : State).pcie.otherWidth = true ∧
    ({ up with board := { up.board with pwrgood := false } } : State).board.pwrgood = false ∧
    up.stage = 8 ∧ up.rbit .glbClkStatus .lockLost = false ∧ up.rf .bootStatus .health = 0 ∧ up.board.perst = false ∧
    (up.setRf .fltFatal .valid 1).fatal = true ∧ (boot 7).fatal = false ∧ (7 : Nat) < 8 ∧
    ({ boot 7 with boot := { (boot 7).boot with keepMem := true } } : State).keepMemRuns = true ∧
    up.board.pgWaiting = false ∧ (⟨.host, Reg.bootReset.addr, 8, 2 ^ 63⟩ : BarWrite).sized = true ∧
    (⟨.host, Reg.bootReset.addr, 8, 2 ^ 63⟩ : BarWrite).word.getLsbD 63 = true := by decide +kernel

/-- Blocks that are open, empty rings and one in use, a die with a free entry and one without; an L1 line. -/
theorem wit_services :
    (up.blockOpen .glb (.core 0) && up.blockOpen .flt .host && up.blockOpen .obs (.core 71) && up.blockOpen .boot .reeve) = true ∧
    up.rf .fltShadowPtr .producer = up.rf .fltShadowPtr .consumer ∧ up.obs.queues = [] ∧
    (up.setRf .obsTracePtr .producer 1).rf .obsTracePtr .producer ≠ up.rf .obsTracePtr .consumer ∧
    up.freeEntry 3 = some 0 ∧ ({ up with fuses := { up.fuses with entries := [(12, 0x8000), (13, 0x8000), (14, 0x8000),
      (15, 0x8000)] } } : State).freeEntry 3 = none ∧ 703 / 176 = 3 ∧
    (((engined [] [] [] rope1).cluster 3).l1Find 1 0).isSome = true := by decide +kernel

/-- DOE requests of each version; the negotiation at each step; sessions. -/
theorem wit_doe :
    (([1, 0, 1, 0, 0, 0, 0, 0, 0x14, 0xE0, 2, 6] : List Byte).drop 8).getD 3 0 = 6 ∧ up.stage = 8 ∧ up.endpoint = true ∧
    ({ up.doe with negotiated := 3, session := .opened } : Doe).session = .opened ∧ up.doe.session = .none := by decide +kernel

/-- A frame of a type from node 0 on port 5. -/
def frame0 (type psn va : Nat) (pay : List Byte) : Frame :=
  let h := headerBytes type 0 0 1 pay.length 9 psn 0 0 va 0
  ⟨5, macBytes 0 5 1, none, 0x88B5, true, h ++ leBytes 4 (crc32c (h ++ pay)), pay⟩

/-- Frames arrive, one with a bad CRC is discarded; a fresh PSN at either end of the window, a duplicate and one
beyond; a job without a binding; the writes and reads of a frame. -/
theorem wit_frames :
    let s := podded 1
    let f := frame0 tData 0 0 [1, 2, 3]
    let p := s.peer 0
    s.ready = true ∧ s.rbit .podNode .valid = true ∧ s.portUp 5 = true ∧ s.addressed f = true ∧ s.discards f = false ∧
    s.discards { f with payload := [1, 2, 4] } = true ∧ f.type = tData ∧ f.src = 0 ∧ s.jobCtx 9 = some 1 ∧
    up.jobCtx 9 = none ∧ p.above 0 = 1 ∧ p.above 4095 = 4096 ∧ p.above 4096 = 4097 ∧ p.above (2 ^ 32 - 1) = 0 ∧
    s.pod.held = [] ∧ p.backlog = [] ∧ s.getRun f 1 = none ∧
    (s.unitWrite 1 0 [1, 2, 3]).2 = .fault 6 0x1FFFF 0 ∧ ((mapped s).unitWrite 1 0 [1, 2, 3]).2 = .ok ∧
    ((mapped s).unitRead 1 0 3).2.1 = .ok ∧ (s.unitRead 1 0 3).2.1 = .fault 6 0x1FFFF 0 := by decide +kernel

/-- A collective that waits for a run, and the kinds of its frames' addresses. -/
theorem wit_runs :
    (8 * 2 ^ 60) / 2 ^ 60 = 8 ∧ bit (8 * 2 ^ 60) 63 = true ∧
    (let c : Coll := ⟨1, 0, 1, 7, 0, (cmd0 [0x10, 0, 4096, 2 ^ 40 + 1]).record, [0, 1], 0, [⟨0, 0, 1, 0, 0, []⟩], [], [], [], 0, none⟩
     (c.val 0 0 1).isSome = true ∧ c.stall = none) ∧ ((podded 1).coll 1 3).isNone = true := by decide +kernel

/-- A sender's frame that may be resent, one held, a removed port, a peer that may be lost; ports up and down; a
context bound and not; time set and not. -/
theorem wit_senders :
    let b : Body := ⟨tData, 9, 0, 0, 0, 3, 1, .bell, [1, 2, 3]⟩
    let p : Peer := { Peer.fresh [5] with pool := [⟨0, b, some 5, 15, false, 1⟩], removed := [4], ackDue := true }
    let s := (podded 1).setPeer 0 p
    (Table.find s.pod.peers 0 = some p) ∧ p.ackDue = true ∧ (p.pool.find? fun y => y.psn == 0).isSome = true ∧
    4 ∈ p.removed ∧ (∃ x, x ∈ p.pool ∧ (x.held = false ∨ 16 ≤ x.resends)) ∧ s.pod.musters = [] ∧ s.portUp 5 = true ∧
    s.portUp 4 = false ∧ s.bound 1 = true ∧ s.bound 62 = false ∧ (s.jobCtx 9).isSome = true ∧ s.jobCtx 10 = none ∧
    (s.setRf .podTimeCtl .ppsEn 1).rbit .podTimeCtl .ppsEn = true ∧ s.pod.timeSet = none ∧ s.upPorts = [5] ∧
    ({ up with pod := { up.pod with source := some 5, exchange := some ⟨5, 7, some 100, 90, some (3, 95)⟩ } } :
      State).pod.exchange.isSome = true ∧ up.upPorts = [] ∧
    (1000000 : Int).natAbs ≤ 1000000 := by decide +kernel

/-- Musters at each stage, as rank 0 and as its child; the tree of 18 ranks. -/
theorem wit_musters :
    let f := frame0 tData 0 (10 * 2 ^ 60) (leBytes 128 mReady)
    let at_ (me : Nat) (st : MusterStage) := (podded me).setMuster 1 { Muster.none with stage := st }
    (podded 1).discards f = false ∧ f.mtype = mReady ∧ f.va / 2 ^ 60 = 10 ∧ (podded 1).ctxFailed 1 = false ∧
    ((podded 1).rankOf 1).1 ≠ 0 ∧ ((podded 0).rankOf 1) = (0, 2) ∧ (at_ 0 .started).muster 1 = { Muster.none with stage := .started } ∧
    ((at_ 1 .held).muster 1).stage = .held ∧ (at_ 1 .running).pod.musters.length = 1 ∧ (at_ 1 .running).musters 1 = true ∧
    ((podded 1).setRf (.fltCtxState 1) .failed 1).ctxFailed 1 = true ∧ (podded 0).musterRefused = false ∧
    ((podded 0).setReg (.fltHalted 0) 8).musterRefused = true ∧
    children 0 18 = (List.range 16).map (· + 1) ∧ children 1 18 = [17] ∧ parent 17 = 1 := by decide +kernel

/-- A record that waits, an empty ring and a full one in each mode; the sideband; a test port held in reset and not. -/
theorem wit_observation :
    let s := up.tracePut (ropeSrc 703 63) 0 1 kCairn 7 0
    s.ready = true ∧ s.traceNext = some (ropeSrc 703 63).key ∧ (s.traceQueue (ropeSrc 703 63).key).length = 1 ∧
    s.traceUsed < s.traceSize ∧ (s.setRf .obsTracePtr .producer 1024).traceSize ≤ (s.setRf .obsTracePtr .producer 1024).traceUsed ∧
    ((mapped s).squareWrite 0 0 (leBytes 32 5)).isSome = true ∧ (s.setRf .obsTraceCtl .mode 1).rbit .obsTraceCtl .mode = true ∧
    (sbReg 255).isNone = true ∧ (sbReg 8).isSome = true ∧ up.board.vaux = true ∧ State.reset.testable = true ∧
    up.testable = false ∧ ({ up.tap with bypass := List.replicate 5 false } : Tap).bypass.length = 5 := by decide +kernel

/-- A state with memory in canonical form and a step that goes on (MemoryStaysCanonical). -/
theorem wit_memory : Mem.wf (⟨[(5, 7), (130, 1)], []⟩ : Mem) = true ∧
    ∃ t, step { State.reset with mem := ⟨[(5, 7), (130, 1)], []⟩, pending := [.wbd 0 0] } = .next t :=
  ⟨by decide, _, rfl⟩

end Sys2Proof.Tests
end

/-! PROOF. The statements of 00_scope.md: what a write does to the fields of a register (R17 to R19), how BAR0 writes
of one and of two masters reach a register (R20, R379, R450), and what a step does with the queue (R16). -/

namespace Sys2Proof.Machine

/-! ### Bits of a word and of a field -/

/-- A field of a word is told by its bits. -/
theorem fld_congr {x y : Word} {lo w : Nat} (h : ∀ j, lo ≤ j → j < lo + w → x.getLsbD j = y.getLsbD j) :
    fld x lo w = fld y lo w := by
  apply Nat.eq_of_testBit_eq
  intro j
  simp only [fld, testBit_bits, BitVec.testBit_toNat]
  by_cases hj : j < w
  · rw [h (lo + j) (by omega) (by omega)]
  · simp [hj]

theorem fld_zero (lo w : Nat) : fld 0 lo w = 0 := by simp [fld, bits]

theorem getLsbD_putFld (x : Word) (lo w n j : Nat) :
    (putFld x lo w n).getLsbD j =
      if lo ≤ j ∧ j < lo + w then decide (j < 64) && n.testBit (j - lo) else x.getLsbD j := by
  simp only [putFld, BitVec.getLsbD_ofNat, testBit_setBits, BitVec.testBit_toNat]
  split
  · rfl
  · by_cases hj : j < 64
    · simp [hj]
    · simp [hj, BitVec.getLsbD_of_ge x j (by omega)]

/-- The bits of a word's field, in their places. -/
theorem getLsbD_fld_shift (v : Word) (lo w j : Nat) :
    (BitVec.ofNat 64 (fld v lo w * 2 ^ lo)).getLsbD j = (decide (lo ≤ j ∧ j < lo + w) && v.getLsbD j) := by
  rw [BitVec.getLsbD_ofNat, Nat.mul_comm, Nat.testBit_two_pow_mul, fld, testBit_bits, BitVec.testBit_toNat]
  by_cases h : lo ≤ j ∧ j < lo + w
  · rw [show lo + (j - lo) = j by omega]
    by_cases hj : j < 64
    · simp [h, hj, show j - lo < w by omega]
    · simp [hj, BitVec.getLsbD_of_ge v j (by omega)]
  · by_cases hlo : lo ≤ j
    · simp [h, show ¬ j - lo < w by omega]
    · simp [hlo]

/-! ### One field takes a write (R17, R18, Table 0.7) -/

/-- Bits that belong to a field. -/
def RegField.has (f : RegField) (j : Nat) : Prop := f.lo ≤ j ∧ j < f.lo + f.w

/-- What bit `j` of a field, `old` before, holds after a write of `v`: Table 0.7, bit by bit. -/
def Reg.bitAfter (r : Reg) (f : RegField) (v : Word) (old : Bool) (j : Nat) : Bool :=
  match f.acc with
  | .rw => v.getLsbD j
  | .w1c => old && !v.getLsbD (if r.bitwise f.name then j else f.lo)
  | .w1s => old || v.getLsbD j
  | _ => old

/-- A field that takes a write: its own bits by Table 0.7, and no other. -/
theorem State.getLsbD_writeField (s : State) (r : Reg) (f : RegField) (v : Word) (j : Nat) :
    (f.has j → ((s.writeField r f v).reg r).getLsbD j = r.bitAfter f v ((s.reg r).getLsbD j) j) ∧
    (¬ f.has j → ((s.writeField r f v).reg r).getLsbD j = (s.reg r).getLsbD j) := by
  unfold RegField.has State.writeField Reg.bitAfter
  cases f.acc with
  | ro => exact ⟨fun _ => rfl, fun _ => rfl⟩
  | wo => exact ⟨fun _ => rfl, fun _ => rfl⟩
  | rw =>
    simp only [State.reg_setReg_self, getLsbD_putFld]
    refine ⟨fun h => ?_, fun h => if_neg h⟩
    rw [if_pos h, fld, testBit_bits, BitVec.testBit_toNat, show f.lo + (j - f.lo) = j by omega]
    by_cases hj : j < 64
    · simp [hj, show j - f.lo < f.w by omega]
    · simp [hj, BitVec.getLsbD_of_ge v j (by omega)]
  | w1s =>
    simp only [State.reg_setReg_self, BitVec.getLsbD_or, getLsbD_fld_shift]
    exact ⟨fun h => by simp [h], fun h => by simp [h]⟩
  | w1c =>
    cases r.bitwise f.name with
    | true =>
      simp only [if_true, State.reg_setReg_self, BitVec.getLsbD_and, BitVec.getLsbD_not, getLsbD_fld_shift]
      by_cases hj : j < 64
      · exact ⟨fun h => by simp [h, hj], fun h => by simp [h, hj]⟩
      · simp [BitVec.getLsbD_of_ge (s.reg r) j (by omega)]
    | false =>
      simp only [Bool.false_eq_true, if_false, bit, BitVec.testBit_toNat]
      by_cases hone : v.getLsbD f.lo = true
      · simp only [hone, if_true, State.reg_setReg_self, getLsbD_putFld, Nat.zero_testBit]
        exact ⟨fun h => by simp [h], fun h => by simp [h]⟩
      · simp [hone]

/-- A state that differs from another in one register at most. -/
def State.sameBut (s t : State) (r : Reg) : Prop :=
  (∀ g : Reg, g.addr ≠ r.addr → t.reg g = s.reg g) ∧ t = { s with regs := t.regs }

theorem State.sameBut_refl (s : State) (r : Reg) : s.sameBut s r := ⟨fun _ _ => rfl, rfl⟩

theorem State.sameBut_trans {s t u : State} {r : Reg} (h : s.sameBut t r) (h' : t.sameBut u r) : s.sameBut u r := by
  obtain ⟨hreg, hrest⟩ := h
  obtain ⟨hreg', hrest'⟩ := h'
  exact ⟨fun g hg => (hreg' g hg).trans (hreg g hg), by rw [hrest', hrest]⟩

theorem State.sameBut_setReg (s : State) (r : Reg) (v : Word) : s.sameBut (s.setReg r v) r :=
  ⟨fun g hg => s.reg_setReg_ne r g v hg, rfl⟩

theorem State.sameBut_writeField (s : State) (r : Reg) (f : RegField) (v : Word) :
    s.sameBut (s.writeField r f v) r := by
  unfold State.writeField
  split
  · exact s.sameBut_setReg r _
  · split
    · exact s.sameBut_setReg r _
    · split
      · exact s.sameBut_setReg r _
      · exact s.sameBut_refl r
  · exact s.sameBut_setReg r _
  · exact s.sameBut_refl r

/-! ### The fields of a list take a write, one after another -/

/-- Each field of a list takes a write. -/
def State.writeList (s : State) (r : Reg) (fs : List RegField) (v : Word) : State :=
  fs.foldl (fun s f => s.writeField r f v) s

theorem State.writeFields_nil (s : State) (r : Reg) (v : Word) : s.writeFields r [] v = s.writeList r r.fields v := by
  have hall : (r.fields.filter fun f => !([] : List RF).contains f.name) = r.fields :=
    List.filter_eq_self.mpr fun _ _ => rfl
  rw [State.writeFields, hall, State.writeList]

theorem State.writeList_cons (s : State) (r : Reg) (f : RegField) (fs : List RegField) (v : Word) :
    s.writeList r (f :: fs) v = (s.writeField r f v).writeList r fs v := rfl

theorem State.sameBut_writeList (s : State) (r : Reg) (fs : List RegField) (v : Word) :
    s.sameBut (s.writeList r fs v) r := by
  induction fs generalizing s with
  | nil => exact s.sameBut_refl r
  | cons f fs ih => exact State.sameBut_trans (s.sameBut_writeField r f v) (ih _)

/-- A bit of no field of the list stays. -/
theorem State.getLsbD_writeList_of_not_has (s : State) (r : Reg) (fs : List RegField) (v : Word) (j : Nat)
    (h : ∀ f ∈ fs, ¬ f.has j) : ((s.writeList r fs v).reg r).getLsbD j = (s.reg r).getLsbD j := by
  induction fs generalizing s with
  | nil => rfl
  | cons f fs ih =>
    obtain ⟨hf, hfs⟩ := List.forall_mem_cons.mp h
    rw [State.writeList_cons, ih _ hfs, (s.getLsbD_writeField r f v j).2 hf]

/-- Where the fields do not overlap, a bit of one of them goes as that field's access type gives. -/
theorem State.getLsbD_writeList_of_has (s : State) (r : Reg) (fs : List RegField) (v : Word) (j : Nat) (f : RegField)
    (hfs : fs.Pairwise fun f g => f.lo + f.w ≤ g.lo ∨ g.lo + g.w ≤ f.lo) (hf : f ∈ fs) (hj : f.has j) :
    ((s.writeList r fs v).reg r).getLsbD j = r.bitAfter f v ((s.reg r).getLsbD j) j := by
  induction fs generalizing s with
  | nil => cases hf
  | cons g gs ih =>
    obtain ⟨hg, hgs⟩ := List.pairwise_cons.mp hfs
    rw [State.writeList_cons]
    rcases List.mem_cons.mp hf with rfl | hmem
    · have apart : ∀ g ∈ gs, ¬ g.has j := fun g hmem => by
        have := hg g hmem
        unfold RegField.has at hj ⊢
        omega
      rw [State.getLsbD_writeList_of_not_has _ r gs v j apart, (s.getLsbD_writeField r f v j).1 hj]
    · have apart : ¬ g.has j := by
        have := hg f hmem
        unfold RegField.has at hj ⊢
        omega
      rw [ih _ hgs hmem, (s.getLsbD_writeField r g v j).2 apart]

end Sys2Proof.Machine

section

open Sys2Proof Sys2Proof.Machine

/-- Settles O36: the write bit by bit (`getLsbD_writeList_of_has`, by induction on the fields), read back as fields. -/
theorem registerFields : Obligations.RegisterFields := by
  unfold Obligations.RegisterFields
  intro s r v hpair _
  rw [s.writeFields_nil r v]
  obtain ⟨hreg, hrest⟩ := s.sameBut_writeList r r.fields v
  refine ⟨fun f hf => ?_, fun j hj => ?_, hreg, hrest⟩
  · have hbit : ∀ j, f.lo ≤ j → j < f.lo + f.w →
        ((s.writeList r r.fields v).reg r).getLsbD j = r.bitAfter f v ((s.reg r).getLsbD j) j :=
      fun j h1 h2 => s.getLsbD_writeList_of_has r r.fields v j f hpair hf ⟨h1, h2⟩
    refine ⟨fun hacc => ?_, fun hacc hwhole _ => ?_, fun hacc hbits j h1 h2 => ?_, fun hacc j h1 h2 => ?_,
      fun hrw hw1c hw1s => ?_⟩
    · exact fld_congr fun j h1 h2 => by simp [hbit j h1 h2, Reg.bitAfter, hacc]
    · split
      next hone =>
        rw [← fld_zero f.lo f.w]
        exact fld_congr fun j h1 h2 => by simp [hbit j h1 h2, Reg.bitAfter, hacc, hwhole, hone]
      next hzero => exact fld_congr fun j h1 h2 => by simp [hbit j h1 h2, Reg.bitAfter, hacc, hwhole, hzero]
    · simp [hbit j h1 h2, Reg.bitAfter, hacc, hbits]
    · simp [hbit j h1 h2, Reg.bitAfter, hacc]
    · exact fld_congr fun j h1 h2 => by rw [hbit j h1 h2]; simp [Reg.bitAfter]
  · refine s.getLsbD_writeList_of_not_has r r.fields v j fun f hf => ?_
    have := hj f hf
    unfold RegField.has
    omega

end

namespace Sys2Proof.Machine

/-! ### The registers of the HQ block (12 Table 12.4) -/

/-- The registers that R20 leaves to the queues' own rules: the doorbell and those of a queue or ring (R401, R430). -/
def Reg.ofQueue : Reg → Bool
  | .hqDoorbell | .hqSqBase _ | .hqSqCtrl _ | .hqSqStatus _ | .hqSqDone _ => true
  | .hqCqBase _ | .hqCqCtrl _ | .hqCqHead _ | .hqCqTail _ => true
  | _ => false

/-- R20 covers every register that is neither a queue's nor a bell's signal. -/
theorem State.sharedReg_of_not_ofQueue (s : State) (r : Reg) (hq : r.ofQueue = false) (hb : ∀ n, r ≠ .bellSig n) :
    s.sharedReg r = true := by
  cases r with
  | bellSig n => exact absurd rfl (hb n)
  | hqDoorbell | hqSqBase | hqSqCtrl | hqSqStatus | hqSqDone | hqCqBase | hqCqCtrl | hqCqHead | hqCqTail => cases hq
  | _ => rfl

theorem State.lateEnable_of_not_ofQueue (s : State) (r : Reg) (c : BarWrite) (hq : r.ofQueue = false) :
    s.lateEnable r c = s := by
  cases r with
  | hqSqCtrl n => cases hq
  | hqCqCtrl n => cases hq
  | _ => rfl

/-- A register that a search finds is one of a family of the list, at an address of that family. -/
theorem findReg_eq_some {a : Nat} {fs : List RegFamily} {r : Reg} (h : findReg a fs = some r) :
    ∃ f ∈ fs, f.base ≤ a ∧ a < f.base + f.stride * f.count ∧ r = f.reg ((a - f.base) / f.stride) := by
  induction fs with
  | nil => cases h
  | cons f fs ih =>
    unfold findReg at h
    split at h
    next hin =>
      obtain ⟨hlo, hhi, -⟩ := hin
      cases h
      exact ⟨f, List.mem_cons_self, hlo, hhi, rfl⟩
    next =>
      obtain ⟨g, hg, hin⟩ := ih h
      exact ⟨g, List.mem_cons_of_mem f hg, hin⟩

/-- No register of a family is a queue's, or the family lies in the HQ block. -/
def RegFamily.queuesInHq (f : RegFamily) : Prop :=
  (∀ n, (f.reg n).ofQueue = false) ∨ (0x100000 ≤ f.base ∧ f.base + f.stride * f.count ≤ 0x200000)

theorem regFamilies_queuesInHq :
    ∀ f ∈ regFamilies1 ++ regFamilies2 ++ regFamilies3 ++ regFamilies4, f.queuesInHq := by
  simp [regFamilies1, regFamilies2, regFamilies3, regFamilies4, RegFamily.queuesInHq, Reg.ofQueue]

theorem clFamilies_not_ofQueue (c n : Nat) : ∀ f ∈ clFamilies1 c, (f.reg n).ofQueue = false := by
  simp [clFamilies1, Reg.ofQueue]

theorem blockAt_eq_hq {a : Nat} (hlo : 0x100000 ≤ a) (hhi : a < 0x200000) : blockAt a = .hq := by
  simp (disch := omega) only [blockAt, if_neg, if_pos]

/-- The registers of the queues stand in the HQ block alone. -/
theorem not_ofQueue_of_ofAddr {a : Nat} {r : Reg} (h : Reg.ofAddr a = some r) (hb : blockAt a ≠ .hq) :
    r.ofQueue = false := by
  unfold Reg.ofAddr at h
  split at h
  next =>
    split at h
    next =>
      obtain ⟨f, hf, -, -, rfl⟩ := findReg_eq_some h
      exact clFamilies_not_ofQueue _ _ f hf
    next => cases h
  next =>
    obtain ⟨f, hf, hlo, hhi, rfl⟩ := findReg_eq_some h
    rcases regFamilies_queuesInHq f hf with hnot | ⟨hbase, hend⟩
    · exact hnot _
    · exact absurd (blockAt_eq_hq (by omega) (by omega)) hb

/-! ### One BAR0 write (R379) -/

theorem State.barWrite_of_not_sized (s : State) (w : BarWrite) (he : s.endpoint = true) (hw : w.sized = false) :
    s.barWrite w = s.satRf .hqWinStat .badSize 1 := by
  simp [State.barWrite, he, hw]

theorem State.barWrite_of_open (s : State) (w : BarWrite) (r : Reg) (he : s.endpoint = true) (hw : w.sized = true)
    (ho : s.blockOpen (blockAt w.offset) w.master = true) (hm : blockAt w.offset ≠ .msix)
    (hr : Reg.ofAddr w.offset = some r) : s.barWrite w = s.writeReg w.master r (s.merged r w.mask w.word) := by
  simp [State.barWrite, he, hw, ho, hm, hr]

/-- A write of all 8 bytes is the value written. -/
theorem State.merged_of_size_eight (s : State) (r : Reg) (w : BarWrite) (h : w.size = 8) :
    s.merged r w.mask w.word = w.value := by
  have hall : BitVec.ofNat 64 (2 ^ 64 - 1) = BitVec.allOnes 64 := by decide
  simp only [State.merged, BarWrite.mask, BarWrite.word, h, if_true, hall, BitVec.and_allOnes, BitVec.not_allOnes,
    BitVec.and_zero, BitVec.or_zero]

/-! ### A host write and a core write of one cycle (R20, R450) -/

/-- A host write and a core write that reach one register, in an open block other than HQ, meet R20's case. -/
theorem State.conflict_eq_some (s : State) {h c : BarWrite} {r : Reg} {n : Nat} (hh : h.master = .host)
    (hc : c.master = .core n) (hhs : h.sized = true) (hcs : c.sized = true) (hoff : c.offset / 8 = h.offset / 8)
    (hho : s.blockOpen (blockAt h.offset) h.master = true) (hco : s.blockOpen (blockAt c.offset) c.master = true)
    (hb : blockAt h.offset ≠ .hq) (hr : Reg.ofAddr h.offset = some r) (hs : s.sharedReg r = true) :
    s.conflict h c = some r := by
  have hnot : apartInHq h c = false := by simp [apartInHq, hb]
  rw [hh] at hho
  rw [hc] at hco
  simp [State.conflict, hh, hc, hhs, hcs, hoff, hho, hco, hnot, hr, hs]

/-- Of two writes that meet R20's case both take effect together, whichever comes first in the command. -/
theorem execRegisterWrite_of_conflict (s : State) {h c : BarWrite} {r : Reg} {n : Nat} (hh : h.master = .host)
    (hc : c.master = .core n) (hconf : s.conflict h c = some r) :
    execRegisterWrite h (some c) s = .next (s.bothWrite r h c) ∧
    execRegisterWrite c (some h) s = .next (s.bothWrite r h c) := by
  simp [execRegisterWrite, hh, hc, hconf]

/-- The state after the host's bytes and the core's beside them have taken effect. -/
def State.bothBytes (s : State) (r : Reg) (h c : BarWrite) : State :=
  s.writeReg .host r (s.merged r (h.mask ||| c.mask)
    ((h.word &&& BitVec.ofNat 64 h.mask) ||| (c.word &&& BitVec.ofNat 64 c.mask &&& ~~~BitVec.ofNat 64 h.mask)))

theorem State.bothWrite_of_apart (s : State) (r : Reg) (h c : BarWrite) (hm : h.mask &&& c.mask = 0) :
    s.bothWrite r h c = s.bothBytes r h c := if_pos hm

/-- A core's write that shares bytes with the host's is logged in GLB_WR_DROP. -/
theorem State.bothWrite_of_shared (s : State) (r : Reg) (h c : BarWrite) (n : Nat) (hc : c.master = .core n)
    (hm : h.mask &&& c.mask ≠ 0) (hq : r.ofQueue = false) :
    s.bothWrite r h c = ((((s.bothBytes r h c).satRf .glbWrDrop .drops 1).setRf .glbWrDrop .lastCore n).setRf
      .glbWrDrop .lastOffset c.offset) := by
  have hdrop : s.bothWrite r h c = ((s.bothBytes r h c).dropWrite c).lateEnable r c := if_neg hm
  rw [hdrop, State.lateEnable_of_not_ofQueue _ r c hq, State.dropWrite, hc]

/-! ### Counters (20 R572) -/

/-- A cluster's counter takes a written value; an event of the same cycle is added. -/
theorem execCounterWrite_clCtr (s : State) (w : BarWrite) (hit : Bool) (c k : Nat)
    (hr : Reg.ofAddr w.offset = some (.clCtr c k)) (hw : w.sized = true) (ho : s.blockOpen .cl w.master = true) :
    execCounterWrite w hit s = .next (if hit then (s.barWrite w).countOnce (.clCtr c k) else s.barWrite w) := by
  simp [execCounterWrite, hr, hw, ho]

/-- A package counter likewise. -/
theorem execCounterWrite_obsPctr (s : State) (w : BarWrite) (hit : Bool) (k : Nat)
    (hr : Reg.ofAddr w.offset = some (.obsPctr k)) (hw : w.sized = true) (ho : s.blockOpen .obs w.master = true) :
    execCounterWrite w hit s = .next (if hit then (s.barWrite w).countOnce (.obsPctr k) else s.barWrite w) := by
  simp [execCounterWrite, hr, hw, ho]

end Sys2Proof.Machine

section

open Sys2Proof Sys2Proof.Machine

/-- Settles O37: a single write by R379, two of one cycle by R20 outside the HQ block, and a counter's by R572. -/
theorem registerWrites : Obligations.RegisterWrites := by
  unfold Obligations.RegisterWrites
  intro s w r he hr hmsix
  refine ⟨fun hw => ?_, fun hw ho => ⟨?_, s.merged_of_size_eight r w, ?_, ?_, ?_⟩⟩
  · simp [execRegisterWrite, s.barWrite_of_not_sized w he hw]
  · simp [execRegisterWrite, s.barWrite_of_open w r he hw ho hmsix hr]
  · intro c hhost n hcore hcs hoff hco hb hbell
    have hq : r.ofQueue = false := not_ofQueue_of_ofAddr hr hb
    have hconf : s.conflict w c = some r :=
      s.conflict_eq_some hhost hcore hw hcs hoff ho hco hb hr (s.sharedReg_of_not_ofQueue r hq hbell)
    obtain ⟨hfirst, hsecond⟩ := execRegisterWrite_of_conflict s hhost hcore hconf
    refine ⟨fun hm => ?_, fun hm => ?_⟩
    · rw [exec_registerWrite, exec_registerWrite, hfirst, hsecond, s.bothWrite_of_apart r w c hm]
      exact ⟨rfl, rfl⟩
    · rw [exec_registerWrite, hfirst, s.bothWrite_of_shared r w c n hcore hm hq]
      rfl
  · rintro c k rfl hb
    rw [hb] at ho
    simp [execCounterWrite_clCtr s w _ c k hr hw ho]
  · rintro k rfl hb
    rw [hb] at ho
    simp [execCounterWrite_obsPctr s w _ k hr hw ho]

end

namespace Sys2Proof.Machine

/-! ### An empty queue (R16) -/

/-- Where no boot stage is at its end and the clocks do not run, nothing happens in an ac, and none is counted. -/
theorem State.tick_of_stopped (s : State) (hrom : s.inStage 0 = false) (hverify : s.inStage stVerify = false)
    (hclocks : s.clocksRun = false) : s.tick = s := by
  simp [State.tick, hrom, hverify, hclocks]

end Sys2Proof.Machine

section

open Sys2Proof Sys2Proof.Machine

/-- Refutes O57: at reset the root PLL is not locked, so with the queue empty the step answers the reset state itself,
whose `acCount` is 0 where the statement asks for 1. -/
theorem not_stepRunsFront : ¬ Obligations.StepRunsFront := by
  unfold Obligations.StepRunsFront
  rintro ⟨-, hempty⟩
  obtain ⟨-, hcount, -⟩ := hempty State.reset rfl
  have hstays : State.reset.tick = State.reset := State.reset.tick_of_stopped (by decide) (by decide) (by decide)
  rw [hstays] at hcount
  omega

end

/-! PROOF. The statement of 01_package_organisation.md: a frame on a slice of a link (R35, R36), a time-out (R37), a
slice's failure (R41, R42), and a generator that loses its lock (R31). -/

namespace Sys2Proof.Machine

/-! ### A frame is sent (R35, R36) -/

/-- A sender that runs and would send the frame sends it, and the other end takes what arrives. -/
theorem execD2dFrame_of_sendFrame (s : State) {link dir slice : Nat} {sent : D2dSent} (got : BitVec 1152) {x : State}
    {sequenced : Bool} {begun : List D2dMsg} (hon : s.sliceOn link dir slice = true)
    (hsend : s.sendFrame link dir slice sent.bits sent.msgs = some (x, sequenced, begun)) :
    execD2dFrame link dir slice sent got s =
      .next ((if sequenced then x.countPkg 7 link 63 1 else x).linkReceive link dir slice got begun) := by
  simp [execD2dFrame, hon, hsend]

/-- An idle frame with the reverse direction's acknowledgement and NAK may always be sent, and leaves the sender as it
is. -/
theorem SliceDir.send_of_idle (x y : SliceDir) {f : BitVec 1152} (msgs : List D2dMsg) (hcrc : frameCrcOk f = true)
    (hnull : frameNull f = true) (hseq : frameSeq f = 0) (hres : frameReserved f = true)
    (hack : frameAck f = (y.expected + 4095) % 4096) (hnak : frameNak f = y.nak) :
    x.send y f msgs = some (x, false) := by
  simp [SliceDir.send, hcrc, hnull, hseq, hres, hack, hnak]

/-- A frame sent without a sequence number takes nothing from the fabric stop and begins no message. -/
theorem State.sendFrame_of_unsequenced (s : State) {link dir slice : Nat} {f : BitVec 1152} {msgs : List D2dMsg}
    {x : SliceDir} (hsend : (s.slice (sliceKey link dir slice)).send (s.slice (sliceKey link (1 - dir) slice)) f msgs =
      some (x, false)) :
    s.sendFrame link dir slice f msgs = some (s.setSlice (sliceKey link dir slice) x, false, []) := by
  simp only [State.sendFrame, hsend, Bool.false_and, Bool.false_eq_true, if_false]
  split <;> rfl

/-! ### A frame arrives damaged (R35) -/

/-- A frame with a bad CRC is counted and discarded; one that is not idle as received asks for a replay (log 101). -/
theorem State.linkReceive_of_bad_crc (s : State) (link dir slice : Nat) {f : BitVec 1152} (msgs : List D2dMsg)
    (hcrc : frameCrcOk f = false) :
    s.linkReceive link dir slice f msgs = (let t := s.satRf (.glbD2dErr link) .crcErrors 1
      let key := sliceKey link dir slice
      if frameNull f then t else t.setSlice key { t.slice key with nak := true }) := by
  simp [State.linkReceive, hcrc]

/-! ### A replay (R36, R37) -/

/-- A sender with frames in its replay buffer that resends none yet resends them all, which is one replay event
(log 101). -/
theorem State.replay_of_buffered (s : State) (link : Nat) {key : Nat} (hbuf : (s.slice key).buf ≠ [])
    (hres : (s.slice key).resend = []) :
    s.replay link key = ((s.setSlice key { s.slice key with
      resend := (s.slice key).buf.map LinkFrame.seq
      replays := s.fcCount :: (s.slice key).replays.filter fun t => decide (s.fcCount < t + 2 ^ 20) }).satRf
        (.glbD2dErr link) .replays 1).countPkg 8 link 63 1 :=
  if_neg (by simp [hbuf, hres])

theorem execReplayTimeout_of_sliceOn (s : State) {link dir slice : Nat} (hon : s.sliceOn link dir slice = true) :
    execReplayTimeout link dir slice s = .next (s.replay link (sliceKey link dir slice)) := if_pos hon

/-! ### A slice fails (R41, R42) -/

/-- The two limits of R41: a frame's 16 resends, and 256 replay events in 2^20 fc. -/
theorem State.sliceFailed_iff (s : State) (key : Nat) :
    s.sliceFailed key = true ↔ (∃ b ∈ (s.slice key).buf, 16 ≤ b.resends) ∨
      256 < ((s.slice key).replays.filter fun t => decide (s.fcCount < t + 2 ^ 20)).length := by
  simp only [State.sliceFailed, Bool.or_eq_true, List.any_eq_true, decide_eq_true_eq]

theorem execD2dWireFail_of_sliceFailed (s : State) {link dir slice : Nat} (hon : s.sliceOn link dir slice = true)
    (hfail : s.sliceFailed (sliceKey link dir slice) = true) :
    execD2dWireFail link dir slice s =
      .next (((s.fuseLink link).setRf .bootStatus .health 2).packageFatal Code.d2dWireFail link) := by
  simp [execD2dWireFail, hon, hfail]

/-! ### A generator loses its lock (R31) -/

theorem execLockLost_root (s : State) (he : s.endpoint = true) (hlock : s.rbit .glbClkStatus .rootLock = true) :
    execLockLost 4 s = .next (((s.setRf .glbClkStatus .rootLock 0).setRf .glbClkStatus .lockLost 1).packageFatal
      Code.lockLost 4) := by
  simp [execLockLost, State.genLocked, he, hlock]

theorem execLockLost_follower (s : State) {g : Nat} (hg : g < 4) (he : s.endpoint = true)
    (hlock : (s.rf .glbClkStatus .followLock).testBit g = true) :
    execLockLost g s = .next (((s.setRf .glbClkStatus .followLock (s.rf .glbClkStatus .followLock - 2 ^ g)).setRf
      .glbClkStatus .lockLost 1).packageFatal Code.lockLost g) := by
  have hroot : g ≠ 4 := by omega
  have hgen : g < 5 := by omega
  simp [execLockLost, State.genLocked, bit, he, hlock, hroot, hgen]

end Sys2Proof.Machine

section

open Sys2Proof Sys2Proof.Machine

/-- Settles O46: each command by what it does on a slice that runs, or on a generator that reports lock. The null bit
of a damaged frame read as received, and what counts as a replay event, are the model's choices (log 101). -/
theorem dieLinks : Obligations.DieLinks := by
  unfold Obligations.DieLinks
  intro s
  refine ⟨fun link dir slice hon => ⟨?frame, ?idle, ?damaged, ?timeout, ?wireFail⟩, fun he => ⟨?root, ?follower⟩⟩
  case frame =>
    intro sent got x sequenced begun hsend
    exact execD2dFrame_of_sendFrame s got hon hsend
  case idle =>
    intro f hcrc hnull hseq hres hack hnak
    exact s.sendFrame_of_unsequenced (SliceDir.send_of_idle _ _ [] hcrc hnull hseq hres hack hnak)
  case damaged => exact fun f msgs hcrc => s.linkReceive_of_bad_crc link dir slice msgs hcrc
  case timeout =>
    intro hbuf hres
    rw [exec_replayTimeout, execReplayTimeout_of_sliceOn s hon, s.replay_of_buffered link hbuf hres]
  case wireFail =>
    intro hlimit
    exact execD2dWireFail_of_sliceFailed s hon ((s.sliceFailed_iff _).mpr hlimit)
  case root => exact execLockLost_root s he
  case follower => exact fun g hg hlock => execLockLost_follower s hg he hlock

end

/-! PROOF. The statement of 03_scaling_ledger_shadow_checks.md: the close of one entry of a ledger (R92). -/

namespace Sys2Proof.Machine

/-! ### The fields of a ledger entry (03 Table 3.5) -/

/-- SCALE of an entry. -/
def entryScale (x : Nat) : Nat := x % 256

/-- RAISES of an entry. -/
def entryRaises (x : Nat) : Nat := x / 2 ^ 8 % 256

/-- AMAX_E of an entry. -/
def entryAmax (x : Nat) : Nat := x / 2 ^ 16 % 256

/-- HOLD of an entry. -/
def entryHold (x : Nat) : Nat := x / 2 ^ 24 % 32

/-- An entry with AMAX_E and the flags clear. -/
def closedEntry (hold raises scale : Nat) : Nat := hold * 2 ^ 24 + raises * 2 ^ 8 + scale

theorem entryScale_lt (x : Nat) : entryScale x < 256 := Nat.mod_lt _ (by decide)

theorem entryRaises_lt (x : Nat) : entryRaises x < 256 := Nat.mod_lt _ (by decide)

theorem entryHold_lt (x : Nat) : entryHold x < 32 := Nat.mod_lt _ (by decide)

theorem entryScale_closedEntry (hold raises : Nat) {scale : Nat} (hs : scale < 256) :
    entryScale (closedEntry hold raises scale) = scale := by
  unfold entryScale closedEntry
  omega

theorem entryRaises_closedEntry (hold : Nat) {raises scale : Nat} (hr : raises < 256) (hs : scale < 256) :
    entryRaises (closedEntry hold raises scale) = raises := by
  unfold entryRaises closedEntry
  omega

theorem entryAmax_closedEntry (hold : Nat) {raises scale : Nat} (hr : raises < 256) (hs : scale < 256) :
    entryAmax (closedEntry hold raises scale) = 0 := by
  unfold entryAmax closedEntry
  omega

theorem entryHold_closedEntry {hold raises scale : Nat} (hh : hold < 32) (hr : raises < 256) (hs : scale < 256) :
    entryHold (closedEntry hold raises scale) = hold := by
  unfold entryHold closedEntry
  omega

theorem closedEntry_flags {hold raises scale : Nat} (hh : hold < 32) (hr : raises < 256) (hs : scale < 256) :
    closedEntry hold raises scale / 2 ^ 29 = 0 := by
  unfold closedEntry
  omega

/-! ### The close of an entry, by its cases (R92) -/

/-- The bound that the close asks an entry's scale to reach. -/
def closeBound (r : Recipe) (emax x : Nat) : Int := (entryAmax x : Int) - emax + r.margin

/-- The close, in the names of the entry's fields. -/
theorem closeEntry_eq (r : Recipe) (emax : Nat) (adapt : Bool) (x : Nat) :
    closeEntry r emax adapt x =
      if adapt = false ∨ x.testBit 29 = false then
        (closedEntry (entryHold x) (entryRaises x) (entryScale x), false, false)
      else if x.testBit 31 = true then
        if entryScale x < 254 then
          (closedEntry r.hold (min (entryRaises x + 1) 255) (entryScale x + 1), true, false)
        else (closedEntry r.hold (entryRaises x) (entryScale x), false, false)
      else if (entryScale x : Int) < closeBound r emax x then
        (closedEntry r.hold (min (entryRaises x + 1) 255) (min (closeBound r emax x) 254).toNat, true, false)
      else if 0 < entryHold x then (closedEntry (entryHold x - 1) (entryRaises x) (entryScale x), false, false)
      else if closeBound r emax x < (entryScale x : Int) then
        (closedEntry (entryHold x) (entryRaises x)
          (if entryScale x = 0 then (Config.loweredScale emax r.margin x).toNat else entryScale x - 1), false, true)
      else (closedEntry (entryHold x) (entryRaises x) (entryScale x), false, false) := by
  have hscale : bits x 0 8 = entryScale x := rfl
  have hraises : bits x 8 8 = entryRaises x := by rw [bits, Nat.shiftRight_eq_div_pow]; rfl
  have hamax : bits x 16 8 = entryAmax x := by rw [bits, Nat.shiftRight_eq_div_pow]; rfl
  have hhold : bits x 24 5 = entryHold x := by rw [bits, Nat.shiftRight_eq_div_pow]; rfl
  simp only [closeEntry, hscale, hraises, hamax, hhold, bit, closedEntry, closeBound, Bool.or_eq_true,
    Bool.not_eq_true']
  rfl

section

variable {r : Recipe} {emax x : Nat} {adapt : Bool}

theorem closeEntry_unadapted (h : adapt = false ∨ x.testBit 29 = false) :
    closeEntry r emax adapt x = (closedEntry (entryHold x) (entryRaises x) (entryScale x), false, false) := by
  rw [closeEntry_eq, if_pos h]

variable (hseen : x.testBit 29 = true)
include hseen

theorem not_unadapted : ¬(true = false ∨ x.testBit 29 = false) := by
  rw [hseen]
  decide

theorem closeEntry_overflow (hovf : x.testBit 31 = true) (hs : entryScale x < 254) :
    closeEntry r emax true x =
      (closedEntry r.hold (min (entryRaises x + 1) 255) (entryScale x + 1), true, false) := by
  rw [closeEntry_eq, if_neg (not_unadapted hseen), if_pos hovf, if_pos hs]

theorem closeEntry_overflow_top (hovf : x.testBit 31 = true) (hs : 254 ≤ entryScale x) :
    closeEntry r emax true x = (closedEntry r.hold (entryRaises x) (entryScale x), false, false) := by
  rw [closeEntry_eq, if_neg (not_unadapted hseen), if_pos hovf, if_neg (Nat.not_lt.mpr hs)]

variable (hovf : x.testBit 31 = false)
include hovf

theorem closeEntry_below_bound (ht : (entryScale x : Int) < closeBound r emax x) :
    closeEntry r emax true x =
      (closedEntry r.hold (min (entryRaises x + 1) 255) (min (closeBound r emax x) 254).toNat, true, false) := by
  rw [closeEntry_eq, if_neg (not_unadapted hseen), if_neg (Bool.eq_false_iff.mp hovf),
    if_pos ht]

theorem closeEntry_held (ht : closeBound r emax x ≤ (entryScale x : Int)) (hh : 0 < entryHold x) :
    closeEntry r emax true x = (closedEntry (entryHold x - 1) (entryRaises x) (entryScale x), false, false) := by
  rw [closeEntry_eq, if_neg (not_unadapted hseen), if_neg (Bool.eq_false_iff.mp hovf),
    if_neg (Int.not_lt.mpr ht), if_pos hh]

/-- A scale of 0 above its bound becomes a free value (log 43). -/
theorem closeEntry_above_bound (hh : entryHold x = 0) (ht : closeBound r emax x < (entryScale x : Int)) :
    closeEntry r emax true x = (closedEntry 0 (entryRaises x)
      (if entryScale x = 0 then (Config.loweredScale emax r.margin x).toNat else entryScale x - 1), false, true) := by
  rw [closeEntry_eq, if_neg (not_unadapted hseen), if_neg (Bool.eq_false_iff.mp hovf),
    if_neg (Int.not_lt.mpr (Int.le_of_lt ht)), if_neg (Nat.not_lt.mpr (Nat.le_of_eq hh)), if_pos ht, hh]

theorem closeEntry_at_bound (hh : entryHold x = 0) (ht : (entryScale x : Int) = closeBound r emax x) :
    closeEntry r emax true x = (closedEntry 0 (entryRaises x) (entryScale x), false, false) := by
  rw [closeEntry_eq, if_neg (not_unadapted hseen), if_neg (Bool.eq_false_iff.mp hovf),
    if_neg (Int.not_lt.mpr (Int.le_of_eq ht.symm)), if_neg (Nat.not_lt.mpr (Nat.le_of_eq hh)),
    if_neg (Int.not_lt.mpr (Int.le_of_eq ht)), hh]

/-- Without a raise, a close counts HOLD down to no less than 0, and changes SCALE only. -/
theorem closeEntry_fst_of_not_below_bound (ht : closeBound r emax x ≤ (entryScale x : Int)) :
    ∃ scale < 256, (closeEntry r emax true x).1 = closedEntry (entryHold x - 1) (entryRaises x) scale := by
  have hscale := entryScale_lt x
  have hfree := (Config.loweredScale emax r.margin x).isLt
  rcases Nat.eq_zero_or_pos (entryHold x) with hh | hh
  · rw [hh]
    rcases Int.lt_or_eq_of_le ht with habove | hat
    · exact ⟨_, by split <;> omega, congrArg Prod.fst (closeEntry_above_bound hseen hovf hh habove)⟩
    · exact ⟨_, hscale, congrArg Prod.fst (closeEntry_at_bound hseen hovf hh hat.symm)⟩
  · exact ⟨_, hscale, congrArg Prod.fst (closeEntry_held hseen hovf ht hh)⟩

end

/-- Every close leaves a word whose AMAX_E and flags are clear, its other fields within their widths. -/
theorem closeEntry_fst_eq_closedEntry {r : Recipe} (hr : r.hold < 32) (emax : Nat) (adapt : Bool) (x : Nat) :
    ∃ hold raises scale, hold < 32 ∧ raises < 256 ∧ scale < 256 ∧
      (closeEntry r emax adapt x).1 = closedEntry hold raises scale := by
  have hscale := entryScale_lt x
  have hraises := entryRaises_lt x
  have hhold := entryHold_lt x
  have hraised : min (entryRaises x + 1) 255 < 256 := by omega
  by_cases hkeep : adapt = false ∨ x.testBit 29 = false
  · exact ⟨_, _, _, hhold, hraises, hscale, congrArg Prod.fst (closeEntry_unadapted hkeep)⟩
  obtain ⟨hadapt, hseen⟩ : adapt = true ∧ x.testBit 29 = true := by
    simpa only [not_or, Bool.not_eq_false] using hkeep
  subst hadapt
  cases hovf : x.testBit 31 with
  | true =>
    rcases Nat.lt_or_ge (entryScale x) 254 with hs | hs
    · exact ⟨_, _, _, hr, hraised, by omega, congrArg Prod.fst (closeEntry_overflow hseen hovf hs)⟩
    · exact ⟨_, _, _, hr, hraises, hscale, congrArg Prod.fst (closeEntry_overflow_top hseen hovf hs)⟩
  | false =>
    rcases Int.lt_or_le (entryScale x) (closeBound r emax x) with ht | ht
    · exact ⟨_, _, _, hr, hraised, by omega, congrArg Prod.fst (closeEntry_below_bound hseen hovf ht)⟩
    · obtain ⟨scale, hs, heq⟩ := closeEntry_fst_of_not_below_bound hseen hovf ht
      exact ⟨_, _, _, by omega, hraises, hs, heq⟩

end Sys2Proof.Machine

section

open Sys2Proof Sys2Proof.Machine

/-- Settles O32: the fields of the closed word, case by case as R92 tests them. The limit 254 of a raised scale is
R92's own; what a lowered scale of 0 becomes is the model's choice, a free value (log 43), and only its width matters
here. -/
theorem ledgerEntryClose : Obligations.LedgerEntryClose := by
  unfold Obligations.LedgerEntryClose
  intro r emax adapt x hr
  have hscale := entryScale_lt x
  have hraises := entryRaises_lt x
  have hhold := entryHold_lt x
  have hraised : min (entryRaises x + 1) 255 < 256 := by omega
  refine ⟨?amax, ?flags, fun hkeep => ?kept, fun hadapt hseen => ⟨fun hovf => ?overflow, fun hovf =>
    ⟨fun ht => ?raise, fun ht => ?noRaise⟩⟩⟩
  case amax =>
    obtain ⟨hold, raises, scale, -, hra, hsc, heq⟩ := closeEntry_fst_eq_closedEntry hr emax adapt x
    rw [heq]
    exact entryAmax_closedEntry hold hra hsc
  case flags =>
    obtain ⟨hold, raises, scale, hho, hra, hsc, heq⟩ := closeEntry_fst_eq_closedEntry hr emax adapt x
    rw [heq]
    exact closedEntry_flags hho hra hsc
  case kept =>
    rw [closeEntry_unadapted hkeep]
    exact ⟨entryScale_closedEntry _ _ hscale, entryRaises_closedEntry _ hraises hscale,
      entryHold_closedEntry hhold hraises hscale, rfl⟩
  case overflow =>
    subst hadapt
    rcases Nat.lt_or_ge (entryScale x) 254 with hs | hs
    · have hup : entryScale x + 1 < 256 := by omega
      rw [closeEntry_overflow hseen hovf hs]
      exact ⟨entryHold_closedEntry hr hraised hup, fun _ => ⟨entryScale_closedEntry _ _ hup,
        entryRaises_closedEntry _ hraised hup, rfl⟩, fun htop => absurd hs (Nat.not_lt.mpr htop)⟩
    · rw [closeEntry_overflow_top hseen hovf hs]
      exact ⟨entryHold_closedEntry hr hraises hscale, fun hlow => absurd hlow (Nat.not_lt.mpr hs), fun _ =>
        ⟨entryScale_closedEntry _ _ hscale, entryRaises_closedEntry _ hraises hscale⟩⟩
  case raise =>
    subst hadapt
    have hpos : 0 < closeBound r emax x := Int.lt_of_le_of_lt (Int.natCast_nonneg _) ht
    have hnonneg : 0 ≤ min (closeBound r emax x) 254 := by omega
    have hbound : (min (closeBound r emax x) 254).toNat < 256 := by omega
    rw [closeEntry_below_bound hseen hovf ht]
    exact ⟨entryHold_closedEntry hr hraised hbound, entryRaises_closedEntry _ hraised hbound,
      (congrArg Nat.cast (entryScale_closedEntry _ _ hbound)).trans (Int.toNat_of_nonneg hnonneg), rfl⟩
  case noRaise =>
    subst hadapt
    obtain ⟨scale, hs, heq⟩ := closeEntry_fst_of_not_below_bound hseen hovf ht
    have hdown : entryHold x - 1 < 32 := by omega
    have hnewHold : entryHold (closeEntry r emax true x).1 = entryHold x - 1 := by
      rw [heq, entryHold_closedEntry hdown hraises hs]
    refine ⟨?raises, fun hpos => ⟨hnewHold, ?held⟩,
      fun hzero => ⟨?hold, fun habove hne => ?lowered, fun hat => ?atBound⟩⟩
    case raises =>
      rw [heq]
      exact entryRaises_closedEntry _ hraises hs
    case held =>
      rw [closeEntry_held hseen hovf ht hpos]
      exact ⟨entryScale_closedEntry _ _ hscale, rfl⟩
    case hold => exact hnewHold.trans (congrArg (· - 1) hzero)
    case lowered =>
      have hlower : entryScale x - 1 < 256 := by omega
      rw [closeEntry_above_bound hseen hovf hzero habove, if_neg (show entryScale x ≠ 0 from hne)]
      exact ⟨entryScale_closedEntry _ _ hlower, rfl⟩
    case atBound =>
      rw [closeEntry_at_bound hseen hovf hzero hat]
      exact ⟨entryScale_closedEntry _ _ hscale, rfl⟩

end

/-! PROOF. The statements of 04_tensor_engine.md: the handles and slots of a tensor engine (R112 to R119), its
operations at issue (R117, R118, R123, R125; 06 R207 to R210), and the milestones of both engines with the permits and
the shadow unit (R120, R128, R129; 08 R275, R276; 03 R98 to R101). -/

namespace Sys2Proof.Machine

/-! ### Entries of a sparse table -/

theorem Table.mem_of_find {α : Type} {t : Table α} {k : Nat} {v : α} (h : Table.find t k = some v) : (k, v) ∈ t := by
  induction t with
  | nil => cases h
  | cons e t ih =>
    rw [Table.find] at h
    split at h
    · rename_i hk
      cases h
      exact hk ▸ List.mem_cons_self
    · exact List.mem_cons_of_mem _ (ih h)

/-- A filter that lets the entry found pass leaves it what is found. -/
theorem Table.find_filter {α : Type} {t : Table α} {k : Nat} {v : α} {p : Nat × α → Bool}
    (h : Table.find t k = some v) (hp : p (k, v) = true) : Table.find (t.filter p) k = some v := by
  induction t with
  | nil => cases h
  | cons e t ih =>
    rw [Table.find] at h
    split at h
    · rename_i hk
      subst hk
      cases h
      rw [List.filter_cons_of_pos hp, Table.find, if_pos rfl]
    · rename_i hk
      cases he : p e with
      | true => rw [List.filter_cons_of_pos he, Table.find, if_neg hk, ih h]
      | false => rw [List.filter_cons_of_neg (by simp [he]), ih h]

theorem Table.get_eq_of_find {α : Type} {t : Table α} {k : Nat} {v : α} (d : α) (h : Table.find t k = some v) :
    Table.get d t k = v := by
  induction t with
  | nil => cases h
  | cons e t ih =>
    rw [Table.find] at h
    rw [Table.get]
    split at h
    · rename_i hk
      cases h
      rw [if_pos hk]
    · rename_i hk
      rw [if_neg hk, ih h]

/-- The key that `firstFree` names is free. -/
theorem Table.find_of_firstFree {α : Type} {t : Table α} {k n j : Nat} (h : Table.firstFree t k n = some j) :
    Table.find t j = none := by
  induction n generalizing k with
  | zero => cases h
  | succ n ih =>
    rw [Table.firstFree] at h
    split at h
    · rename_i hk
      cases h
      simpa using hk
    · exact ih h

/-- Where `firstFree` names none, every key it searched is listed. -/
theorem Table.listed_of_firstFree {α : Type} {t : Table α} {k n : Nat} (h : Table.firstFree t k n = none) {j : Nat}
    (hlo : k ≤ j) (hhi : j < k + n) : ∃ v, Table.find t j = some v := by
  induction n generalizing k with
  | zero => omega
  | succ n ih =>
    rw [Table.firstFree] at h
    split at h
    · cases h
    · rename_i hk
      rcases Nat.eq_or_lt_of_le hlo with heq | hlt
      · subst heq
        exact Option.isSome_iff_exists.mp (by simpa [Option.isSome_iff_ne_none] using hk)
      · exact ih h hlt (by omega)

theorem Table.length_erase_le {α : Type} (t : Table α) (k : Nat) : (Table.erase t k).length ≤ t.length := by
  induction t with
  | nil => exact Nat.le_refl _
  | cons e t ih =>
    rw [Table.erase]
    split
    · exact Nat.le_succ_of_le ih
    · exact Nat.succ_le_succ ih

/-- Erasing a listed key shortens the table. -/
theorem Table.length_erase_lt {α : Type} {t : Table α} {k : Nat} {v : α} (h : Table.find t k = some v) :
    (Table.erase t k).length < t.length := by
  induction t with
  | nil => cases h
  | cons e t ih =>
    rw [Table.find] at h
    rw [Table.erase]
    split at h
    · rename_i hk
      rw [if_pos hk]
      exact Nat.lt_succ_of_le (Table.length_erase_le t k)
    · rename_i hk
      rw [if_neg hk]
      exact Nat.succ_lt_succ (ih h)

/-- A table that lists `n` keys in a row has as many entries: erase the first of them, and the rest are listed still. -/
theorem Table.le_length_of_listed {α : Type} {t : Table α} {k n : Nat}
    (h : ∀ j, k ≤ j → j < k + n → ∃ v, Table.find t j = some v) : n ≤ t.length := by
  induction n generalizing t k with
  | zero => exact Nat.zero_le _
  | succ n ih =>
    obtain ⟨v, hv⟩ := h k (Nat.le_refl _) (by omega)
    have hrest : n ≤ (Table.erase t k).length := by
      refine ih (k := k + 1) fun j hlo hhi => ?_
      rw [Table.find_erase, if_neg (by omega)]
      exact h j (by omega) (by omega)
    exact Nat.lt_of_le_of_lt hrest (Table.length_erase_lt hv)

/-- A table of fewer than `n` entries leaves a key free among any `n`. -/
theorem Table.exists_firstFree {α : Type} {t : Table α} {n : Nat} (k : Nat) (h : t.length < n) :
    ∃ j, Table.firstFree t k n = some j ∧ Table.find t j = none := by
  cases hfree : Table.firstFree t k n with
  | some j => exact ⟨j, rfl, Table.find_of_firstFree hfree⟩
  | none =>
    have hlen : n ≤ t.length := Table.le_length_of_listed fun j => Table.listed_of_firstFree hfree
    omega

/-! ### A cluster and its engines after a change -/

@[simp] theorem State.cluster_setCluster (s : State) (c : Nat) (k : Cluster) : (s.setCluster c k).cluster c = k :=
  Table.get_set_self _ _ _ _

@[simp] theorem State.cluster_modTe (s : State) (c : Nat) (f : TensorEngine → TensorEngine) :
    (s.modTe c f).cluster c = { s.cluster c with te := f (s.cluster c).te } :=
  s.cluster_setCluster c _

@[simp] theorem State.cluster_setParty (s : State) (c n : Nat) (p : Party) :
    (s.setParty c n p).cluster c = (s.cluster c).setParty n p :=
  s.cluster_setCluster c _

@[simp] theorem State.modTe_mem (s : State) (c : Nat) (f : TensorEngine → TensorEngine) : (s.modTe c f).mem = s.mem :=
  rfl

/-! ### What a handle names (R112, R116) -/

/-- A handle is open on the accumulation that both tables name. -/
theorem Cluster.handle_eq_some {k : Cluster} {party h n : Nat} {a : Acc} :
    k.handle party h = some (n, a) ↔
      Table.find k.te.handles (16 * party + h) = some n ∧ Table.find k.te.accs n = some a := by
  unfold Cluster.handle
  cases hn : Table.find k.te.handles (16 * party + h) with
  | none => simp
  | some m =>
    simp only [Option.map_eq_some_iff, Prod.mk.injEq, Option.some.injEq]
    constructor
    · rintro ⟨b, hb, rfl, rfl⟩
      exact ⟨rfl, hb⟩
    · rintro ⟨rfl, hb⟩
      exact ⟨a, hb, rfl, rfl⟩

/-- A handle that the engine does not list is closed. -/
theorem Cluster.handle_eq_none {k : Cluster} {party h : Nat} (hn : Table.find k.te.handles (16 * party + h) = none) :
    k.handle party h = none := by simp [Cluster.handle, hn]

/-- While the engine has a number to give, a new handle is open on a new accumulation and every other is as it was. -/
theorem State.handle_openHandle (s : State) (c party h : Nat) (a : Acc) (hroom : (s.cluster c).te.accs.length < 64) :
    ∃ n, Table.find (s.cluster c).te.accs n = none ∧
      ((s.modTe c fun t => t.openHandle party h a).cluster c).handle party h = some (n, a) ∧
      ∀ q g b, 16 * q + g ≠ 16 * party + h → (s.cluster c).handle q g = some b →
        ((s.modTe c fun t => t.openHandle party h a).cluster c).handle q g = some b := by
  obtain ⟨n, hfirst, hfree⟩ := Table.exists_firstFree 0 hroom
  refine ⟨n, hfree, ?_, fun q g b hne hb => ?_⟩
  · simp [Cluster.handle_eq_some, TensorEngine.openHandle, hfirst]
  · obtain ⟨m, x⟩ := b
    obtain ⟨hm, hx⟩ := Cluster.handle_eq_some.mp hb
    have hmn : m ≠ n := by
      rintro rfl
      rw [hfree] at hx
      cases hx
    simp [Cluster.handle_eq_some, TensorEngine.openHandle, hfirst, Table.find_insert, hne, hmn, hm, hx]

@[simp] theorem TensorEngine.close_handles (t : TensorEngine) (party h n : Nat) :
    (t.close party h n).handles = Table.erase t.handles (16 * party + h) := rfl

/-- Closing a handle frees no accumulation but its own that was not closed before (R116, R119). -/
theorem TensorEngine.find_close_accs (t : TensorEngine) (party h n : Nat) {m : Nat} {b : Acc} (hm : m ≠ n)
    (hopen : b.closed = false) (hb : Table.find t.accs m = some b) :
    Table.find (t.close party h n).accs m = some b := by
  unfold TensorEngine.close TensorEngine.reap
  refine Table.find_filter ?_ (by simp [hopen])
  cases Table.find t.accs n with
  | none => exact hb
  | some a => exact (Table.find_insert ..).trans ((if_neg hm).trans hb)

/-- A closed handle names none, and every other handle keeps an accumulation that is open still. -/
theorem State.handle_close (s : State) (c party h n : Nat) :
    ((s.modTe c fun t => t.close party h n).cluster c).handle party h = none ∧
      ∀ q g m b, 16 * q + g ≠ 16 * party + h → m ≠ n → b.closed = false →
        (s.cluster c).handle q g = some (m, b) →
        ((s.modTe c fun t => t.close party h n).cluster c).handle q g = some (m, b) := by
  rw [State.cluster_modTe]
  refine ⟨Cluster.handle_eq_none (by simp [Table.find_erase]), fun q g m b hne hm hopen hb => ?_⟩
  obtain ⟨hnum, hacc⟩ := Cluster.handle_eq_some.mp hb
  refine Cluster.handle_eq_some.mpr ⟨?_, TensorEngine.find_close_accs _ _ _ _ hm hopen hacc⟩
  simp [Table.find_erase, hne, hnum]

/-! ### The issue of a tensor instruction (06 R182, R209) -/

/-- A rope that can issue a tensor instruction with a non-empty E: a legal DST, the flags and TY clear, and the handle
below HANDLES. -/
structure State.TensorIssue (s : State) (i : Issue) (f : VFmt) (k : IssueCtx) : Prop where
  issues : s.issues i f.guard k
  mask : k.e ≠ 0
  dst : f.dst.toNat < 16
  ua : f.ua = false
  ub : f.ub = false
  uc : f.uc = false
  ty : f.ty = 0
  handle : f.dst.toNat < k.party.par.handles

/-- A number below `2 ^ n` has no bit of a mask that lies above. -/
theorem and_eq_zero_of_lt {x m n : Nat} (hx : x < 2 ^ n) (hm : 2 ^ n ∣ m) : x &&& m = 0 := by
  obtain ⟨q, rfl⟩ := hm
  apply Nat.eq_of_testBit_eq
  intro j
  rw [Nat.testBit_and, Nat.testBit_two_pow_mul, Nat.zero_testBit]
  by_cases hj : n ≤ j
  · rw [Nat.testBit_lt_two_pow (Nat.lt_of_lt_of_le hx (Nat.pow_le_pow_right (by decide) hj)), Bool.false_and]
  · simp [hj]

theorem bits_zero_eq_mod (x w : Nat) : bits x 0 w = x % 2 ^ w := rfl

/-- The highest field of a number is its quotient. -/
theorem bits_eq_div {x lo w : Nat} (h : x < 2 ^ (lo + w)) : bits x lo w = x / 2 ^ lo := by
  rw [bits, Nat.shiftRight_eq_div_pow, Nat.mod_eq_of_lt]
  rwa [Nat.div_lt_iff_lt_mul (Nat.two_pow_pos lo), ← Nat.pow_add, Nat.add_comm w]

section

variable {s : State} {i : Issue} {f : VFmt} {k : IssueCtx} (hi : s.TensorIssue i f k)
include hi

/-- The word is legal where its unused fields are 0 and the instruction's own check of its registers passes. -/
theorem State.TensorIssue.legal {sa sb sc regs : Bool} {mask : Nat} (ha : sa = true ∨ f.sa = 0)
    (hb : sb = true ∨ f.sb = 0) (hc : sc = true ∨ f.sc = 0) (hmod : f.mod.toNat &&& (1023 - mask) = 0)
    (hregs : regs = true) : (tensorChecks f sa sb sc mask regs).legal = true := by
  obtain ⟨-, -, hdst, hua, hub, huc, hty, -⟩ := hi
  simpa [tensorChecks, VFmt.clean, hdst, hua, hub, huc, hty, hmod, hregs] using ⟨⟨ha, hb⟩, hc⟩

/-- A legal tensor instruction has its own effect, counted as an issue unless it waits. -/
theorem State.TensorIssue.issueWait_eq {sa sb sc regs : Bool} {mask : Nat}
    {body : State → IssueCtx → State × Bool} {t : State} (hlegal : (tensorChecks f sa sb sc mask regs).legal = true)
    (hbody : body s k = (t, true)) :
    issueWait i f.guard (tensorChecks f sa sb sc mask regs) s body = .next (t.countCl k.c 2 k.ctx 1) := by
  rw [issueWait_ok hi.issues.1 hi.issues.2 hlegal rfl (Or.inl rfl) (Or.inr hi.mask), hbody, if_pos rfl]

theorem State.TensorIssue.issue_eq {sa sb sc regs : Bool} {mask : Nat} {body : State → IssueCtx → State}
    (hlegal : (tensorChecks f sa sb sc mask regs).legal = true) :
    issue i f.guard (tensorChecks f sa sb sc mask regs) s body = .next ((body s k).countCl k.c 2 k.ctx 1) :=
  issue_ok hi.issues.1 hi.issues.2 hlegal rfl (Or.inl rfl) (Or.inr hi.mask)

/-- Neither HANDLE_RANGE nor TOKEN_MIX of an instruction without a token. -/
theorem State.TensorIssue.tensorFirst_untokened : k.tensorFirst f.dst.toNat none = none :=
  if_neg (Nat.not_le.mpr hi.handle)

end

/-- An instruction may queue under a token: no Haul operation of it is outstanding, and it is not full (R188, R189). -/
structure IssueCtx.MayQueue (k : IssueCtx) (tok : Nat) : Prop where
  mix : k.party.tokenMix tok .tensor = false
  room : (k.party.token tok).outstanding ≠ 255

/-- Neither HANDLE_RANGE nor TOKEN_MIX (R209, R189). -/
theorem IssueCtx.MayQueue.tensorFirst {k : IssueCtx} {h tok : Nat} (htoken : k.MayQueue tok)
    (hh : h < k.party.par.handles) : k.tensorFirst h (some tok) = none := by
  simp [IssueCtx.tensorFirst, Nat.not_le.mpr hh, htoken.mix]

theorem IssueCtx.MayQueue.notFull {k : IssueCtx} {tok : Nat} (htoken : k.MayQueue tok) : k.tokenFull tok = false :=
  beq_eq_false_iff_ne.mpr htoken.room

/-! ### TACC.OPEN, TACC.REL and TCOMB (R114 to R116, R118) -/

/-- The accumulation that TACC.OPEN opens: it holds no value. -/
def IssueCtx.emptyAcc (k : IssueCtx) (fmtA fmtB : Nat) (af : AccFmt) (tag : Tag) : Acc :=
  ⟨k.rope.party, k.ctx, fmtA, fmtB, af, tag.kStart, tag.kStart, none, tag, false, false,
    slotsFor (chunks tag.kEnd - tag.kStart / 1024), false, 0, [], [], [], 0⟩

/-- The tag of a K range as TACC.OPEN reads it (Table 4.7). -/
def openTag (af : AccFmt) (kt ks ke : Nat) : Tag := ⟨decide (kt = 0), af.code, kt, ke, ks⟩

section

variable {s : State} {i : Issue} {f : VFmt} {k : IssueCtx} (hi : s.TensorIssue i f k)
include hi

theorem State.TensorIssue.execTaccOpen_of_free (ha : f.sa.toNat < 64) (hb : f.sb.toNat < 64) (hc : f.sc.toNat < 64)
    (hmod : f.mod.toNat < 256) (hfree : (s.cluster k.c).handle k.rope.party f.dst.toNat = none) {af : AccFmt} {w : Bool}
    {t : Nat} (hpair : tensorPair (f.mod.toNat % 16) (f.mod.toNat / 16) = some (af, w, t)) {tag : Tag}
    (htag : tag = openTag af (k.rope.ureg f.sa.toNat).toNat (k.rope.ureg f.sb.toNat).toNat
      (k.rope.ureg f.sc.toNat).toNat)
    (htotal : tag.kTotal ≤ 2 ^ 34) (hlegal : tag.legal = true) {a : Acc}
    (hacc : a = k.emptyAcc (f.mod.toNat % 16) (f.mod.toNat / 16) af tag)
    (hheld : (s.cluster k.c).slotsHeld k.rope.party + a.slots ≤ k.party.par.slots)
    (hkept : (s.cluster k.c).slotsKept k.rope.party + a.slots ≤ k.party.par.slots) :
    execTaccOpen i f s = .next (((s.modTe k.c fun t =>
      t.openHandle k.rope.party f.dst.toNat a).finish k k.rope).countCl k.c 2 k.ctx 1) := by
  subst hacc htag
  have hfb : bits f.mod.toNat 4 4 = f.mod.toNat / 16 := bits_eq_div hmod
  have hregs : (uLegal f.sa.toNat && uLegal f.sb.toNat && uLegal f.sc.toNat) = true := by simp [uLegal, ha, hb, hc]
  refine hi.issueWait_eq (hi.legal (.inl rfl) (.inl rfl) (.inl rfl) (and_eq_zero_of_lt (n := 8) hmod (by decide))
    hregs) ?_
  simp only [hi.tensorFirst_untokened, bits_zero_eq_mod, Nat.reducePow, hfb, hpair, hfree]
  refine Eq.trans (if_neg (Nat.not_lt.mpr htotal)) (Eq.trans (if_neg ?_) (Eq.trans (if_neg (by simp))
    (Eq.trans (if_neg (Nat.not_lt.mpr hkept)) (if_neg (Nat.not_lt.mpr hheld)))))
  exact fun hillegal => Bool.false_ne_true (((Bool.not_eq_true' _).mp hillegal).symm.trans hlegal)

theorem State.TensorIssue.execTaccRel_of_open (ha : f.sa = 0) (hb : f.sb = 0) (hc : f.sc = 0) (hmod : f.mod = 0)
    {n : Nat} {a : Acc} (hopen : (s.cluster k.c).handle k.rope.party f.dst.toNat = some (n, a)) :
    execTaccRel i f s =
      .next (((s.modTe k.c fun t => t.close k.rope.party f.dst.toNat n).finish k k.rope).countCl k.c 2 k.ctx 1) := by
  refine (hi.issue_eq (hi.legal (.inr ha) (.inr hb) (.inr hc) (by simp [hmod]) rfl)).trans ?_
  simp only [hi.tensorFirst_untokened, hopen]

end

/-- The first operand of TCOMB after it: the combined tag, and an origin that it has or takes over (log 129). -/
def Acc.combined (x y : Acc) (tag : Tag) : Acc :=
  { x with tag := tag, queuedTo := tag.kEnd, origin := if x.origin.isSome then x.origin else y.origin }

/-- The K range of the first tile begins no higher than the second's. -/
def Acc.below (x y : Acc) : Bool := decide (x.tag.kStart ≤ y.tag.kStart)

/-- The tag of two tiles, the lower K range first. -/
def Acc.combineTag (x y : Acc) : Option Tag := if x.below y then x.tag.combine y.tag else y.tag.combine x.tag

/-- The sum that TCOMB queues: into the first operand, the lower K range first. -/
def Acc.combKind (x y : Acc) (nh ng : Nat) : TensorOpKind :=
  .comb nh (if x.below y then nh else ng) (if x.below y then ng else nh)

theorem State.TensorIssue.execTcomb_of_tag {s : State} {i : Issue} {f : VFmt} {k : IssueCtx} (hi : s.TensorIssue i f k)
    (ha : f.sa.toNat < 16) (hb : f.sb = 0) (hc : f.sc = 0) (hmod : f.mod.toNat < 16)
    (hhandle : f.sa.toNat < k.party.par.handles) (hne : f.dst.toNat ≠ f.sa.toNat)
    (htoken : k.MayQueue f.mod.toNat) {nh ng : Nat} {x y : Acc} {tag : Tag}
    (hx : (s.cluster k.c).handle k.rope.party f.dst.toNat = some (nh, x))
    (hy : (s.cluster k.c).handle k.rope.party f.sa.toNat = some (ng, y)) (hxl : x.loading = false)
    (hyl : y.loading = false) (htag : x.combineTag y = some tag) :
    execTcomb i f s = .next ((((s.modTe k.c fun t => t.setAcc nh (x.combined y tag)).queueTensor k
      (k.tensorOp (x.combKind y nh ng) f.dst.toNat f.mod.toNat)).modTe k.c fun t =>
        t.close k.rope.party f.sa.toNat ng).countCl k.c 2 k.ctx 1) := by
  refine hi.issueWait_eq (hi.legal (.inl rfl) (.inr hb) (.inr hc) (and_eq_zero_of_lt (n := 4) hmod (by decide))
    (decide_eq_true ha)) ?_
  have hfirst := htoken.tensorFirst (Nat.max_lt.mpr ⟨hi.handle, hhandle⟩)
  have hloaded : ¬(x.loading || y.loading) = true := by simp [hxl, hyl]
  have hsum : (if decide (x.tag.kStart ≤ y.tag.kStart) then x.tag.combine y.tag else y.tag.combine x.tag) = some tag :=
    htag
  simp only [hfirst, hx, hy, if_neg hne, if_neg hloaded, hsum, htoken.notFull]
  rfl

end Sys2Proof.Machine

section

open Sys2Proof Sys2Proof.Machine

/-- Settles O24: each instruction by its effect at issue, then what `openHandle` and `close` do to the handles. That
TCOMB keeps an origin taken over earlier is the model's choice (log 129). -/
theorem tensorHandles : Obligations.TensorHandles := by
  unfold Obligations.TensorHandles
  refine ⟨?instructions, State.handle_openHandle, State.handle_close⟩
  intro s i f k hissues he hdst hua hub huc hty hhandle
  have hi : s.TensorIssue i f k := ⟨hissues, he, hdst, hua, hub, huc, hty, hhandle⟩
  refine ⟨?opens, ?releases, ?combines⟩
  case opens =>
    intro ha hb hc hmod hfree af w t hpair kt ks ke tag need htotal hlegal hheld hkept
    exact ⟨k.emptyAcc _ _ af tag, rfl, rfl, rfl, rfl, rfl, rfl, rfl, rfl, rfl, rfl, rfl, rfl, rfl,
      hi.execTaccOpen_of_free ha hb hc hmod hfree hpair rfl htotal hlegal rfl hheld hkept⟩
  case releases =>
    intro ha hb hc hmod n a hopen
    exact hi.execTaccRel_of_open ha hb hc hmod hopen
  case combines =>
    intro ha hb hc hmod hhandleA hne hmix hfull nh x ng y tag hx hy hxl hyl low htag o
    exact ⟨x.combined y tag, rfl, rfl, rfl, rfl,
      hi.execTcomb_of_tag ha hb hc hmod hhandleA hne ⟨hmix, hfull⟩ hx hy hxl hyl htag⟩

end

namespace Sys2Proof.Machine

/-! ### What queueing an operation changes (R117, R188) -/

/-- The tensor engine with one more operation. -/
def TensorEngine.enqueue (t : TensorEngine) (o : TensorOp) : TensorEngine :=
  { t with queue := t.queue ++ [{ o with id := t.nextId }], nextId := t.nextId + 1 }

theorem Party.token_takeToken_self (p : Party) (t : Nat) (e : Engine) :
    (p.takeToken t e).token t = ⟨(p.token t).issued + 1, (p.token t).done, e⟩ :=
  Table.get_set_self _ _ _ _

theorem Party.token_takeToken_of_ne (p : Party) {t n : Nat} (e : Engine) (h : n ≠ t) :
    (p.takeToken t e).token n = p.token n :=
  Table.get_set_of_ne _ _ h

/-- A rope that is still resident is put back on its next instruction. -/
theorem State.cluster_finish (s : State) (k : IssueCtx) (r : Rope)
    (hrope : (Table.find (s.cluster k.c).ropes k.slot).isSome = true) :
    (s.finish k r).cluster k.c = (s.cluster k.c).setRope k.slot r.next := by
  unfold State.finish State.putRope
  rw [if_pos hrope]
  exact s.cluster_setCluster _ _

theorem State.cluster_queueTensor (s : State) (k : IssueCtx) (o : TensorOp)
    (hrope : (Table.find (s.cluster k.c).ropes k.slot).isSome = true) :
    (s.queueTensor k o).cluster k.c = { s.cluster k.c with
      parties := Table.insert (s.cluster k.c).parties k.rope.party (k.party.takeToken o.token .tensor)
      te := (s.cluster k.c).te.enqueue o
      ropes := Table.insert (s.cluster k.c).ropes k.slot k.rope.next } := by
  unfold State.queueTensor
  rw [State.cluster_finish _ _ _ (by simpa [Cluster.setParty] using hrope), State.cluster_modTe, State.cluster_setParty]
  rfl

theorem State.queueTensor_mem (s : State) (k : IssueCtx) (o : TensorOp) : (s.queueTensor k o).mem = s.mem := by
  simp [State.queueTensor]

/-! ### TMMA at issue (R117) -/

/-- A piece of `kc` values of panels `a` and `b` at `origin` suits the accumulation (Table 4.7). -/
structure Acc.TakesPiece (x : Acc) (a b : Panel) (kc : Nat) (origin : Nat × Nat) : Prop where
  loaded : x.loaded = false
  fmtA : x.fmtA = a.fmt
  fmtB : x.fmtB = b.fmt
  sameOrigin : ∀ o, x.origin = some o → o = origin
  unfinished : x.queuedTo ≠ x.tag.kEnd
  inside : x.queuedTo + kc ≤ x.tag.kEnd
  whole : kc % 1024 = 0 ∨ x.queuedTo + kc = x.tag.kEnd

/-- The accumulation once a piece of `kc` values is queued. -/
def Acc.advanced (x : Acc) (kc : Nat) (origin : Nat × Nat) : Acc :=
  { x with
    queuedTo := x.queuedTo + kc
    origin := some origin
    tag := { x.tag with valid := x.tag.valid || decide (x.queuedTo + kc = x.tag.kEnd) } }

/-- The accumulation's position moves, and the engine counts the operation. -/
def TensorEngine.advance (t : TensorEngine) (n : Nat) (x : Acc) (ctx : Nat) : TensorEngine :=
  { t.setAcc n x with ops := Table.set 0 t.ops ctx (Table.get 0 t.ops ctx + 1) }

/-- The fields of a word name three uniform pairs (06 R184). -/
structure PairFields (f : VFmt) : Prop where
  sa : f.sa.toNat < 64 ∧ f.sa.toNat % 2 = 0
  sb : f.sb.toNat < 64 ∧ f.sb.toNat % 2 = 0
  sc : f.sc.toNat < 64 ∧ f.sc.toNat % 2 = 0

theorem pairLegal_of_even {f : BitVec 8} (h : f.toNat < 64 ∧ f.toNat % 2 = 0) : pairLegal f = true := by
  simp [pairLegal, uLegal, h]

theorem PairFields.legal {f : VFmt} (h : PairFields f) :
    (pairLegal f.sa && pairLegal f.sb && pairLegal f.sc) = true := by
  simp [pairLegal_of_even h.sa, pairLegal_of_even h.sb, pairLegal_of_even h.sc]

section

variable {s : State} {i : Issue} {f : VFmt} {k : IssueCtx} (hi : s.TensorIssue i f k)
include hi

theorem State.TensorIssue.execTmma_of_piece (hfields : PairFields f) (hmod : f.mod.toNat < 16)
    (htoken : k.MayQueue f.mod.toNat) (hpa : panelOk (k.rope.upair f.sa.toNat) false = true)
    (hpb : panelOk (k.rope.upair f.sb.toNat) true = true) {a b : Panel} (ha : a = Panel.ofNat (k.rope.upair f.sa.toNat))
    (hb : b = Panel.ofNat (k.rope.upair f.sb.toNat)) (hpair : (tensorPair a.fmt b.fmt).isSome = true) {kc og : Nat}
    (hkc : kc = (k.rope.ureg f.sc.toNat).toNat) (hog : og = (k.rope.ureg (f.sc.toNat + 1)).toNat) {n : Nat} {x : Acc}
    (hopen : (s.cluster k.c).handle k.rope.party f.dst.toNat = some (n, x))
    (hpiece : x.TakesPiece a b kc (og % 2 ^ 32, og / 2 ^ 32)) :
    execTmma i f s = .next (((s.modTe k.c fun t =>
      t.advance n (x.advanced kc (og % 2 ^ 32, og / 2 ^ 32)) k.ctx).queueTensor k
        (k.tensorOp (.mma n a b kc (Table.get 0 (s.cluster k.c).te.ops k.ctx)) f.dst.toNat f.mod.toNat)).countCl
          k.c 2 k.ctx 1) := by
  subst ha hb hkc hog
  refine hi.issueWait_eq (hi.legal (.inl rfl) (.inl rfl) (.inl rfl) (and_eq_zero_of_lt (n := 4) hmod (by decide))
    hfields.legal) ?_
  obtain ⟨hloaded, hfa, hfb, horigin, hunfinished, hinside, hwhole⟩ := hpiece
  simp only [htoken.tensorFirst hi.handle, hopen]
  refine Eq.trans (if_neg ?formats) (Eq.trans (if_neg ?panels) (Eq.trans (if_neg ?state) (Eq.trans (if_neg ?range)
    (if_neg ?full))))
  case formats => simp [hfa, hfb, Option.isSome_iff_ne_none.mp hpair]
  case panels => simp [hpa, hpb]
  case state =>
    cases ho : x.origin with
    | none => simp [hloaded]
    | some o => simp [hloaded, horigin o ho]
  case range => omega
  case full => simp [htoken.notFull]

end

end Sys2Proof.Machine

namespace Sys2Proof.Machine

/-! ### Descriptors at issue (08 Table 8.7) -/

/-- A descriptor, where it could be read, passes DESC_FORM and MX_SHAPE. -/
def DescFine (axes : List Nat) (e : Option (Desc × Bool)) : Prop :=
  ∀ d, e = some d → d.2 = false ∧ d.1.formOk axes = true ∧ d.1.rank ≤ 2 ∧ d.1.mxShapeOk = true

theorem descFine_none (axes : List Nat) : DescFine axes none := fun _ h => nomatch h

theorem descFine_some {axes : List Nat} {d : Desc}
    (h : d.formOk axes = true ∧ d.rank ≤ 2 ∧ d.mxShapeOk = true) : DescFine axes (some (d, false)) := by
  intro e he
  cases he
  exact ⟨rfl, h⟩

theorem DescFine.form {axes : List Nat} {e : Option (Desc × Bool)} (h : DescFine axes e) :
    (onDesc e fun d res => res || !d.formOk axes || decide (2 < d.rank)) = false := by
  cases e with
  | none => rfl
  | some d =>
    obtain ⟨hres, hform, hrank, -⟩ := h d rfl
    simp [onDesc, hres, hform, Nat.not_lt.mpr hrank]

theorem DescFine.shape {axes : List Nat} {e : Option (Desc × Bool)} (h : DescFine axes e) :
    (onDesc e fun d _ => !d.mxShapeOk) = false := by
  cases e with
  | none => rfl
  | some d =>
    obtain ⟨-, -, -, hshape⟩ := h d rfl
    simp [onDesc, hshape]

/-! ### TSTORE at issue (R123; 06 R208) -/

/-- MODE of TSTORE's word, and the field of its token (06 Table 6.15). -/
def storeMode (f : VFmt) : Nat := bits f.mod.toNat 0 2
def storeToken (f : VFmt) : Nat := bits f.mod.toNat 6 4

theorem storeToken_eq_div (f : VFmt) : storeToken f = f.mod.toNat / 64 := bits_eq_div f.mod.isLt

/-- TSTORE reads a second descriptor: R of RESID, or C under ADDC. -/
def storeSecond (f : VFmt) : Bool := storeMode f == 1 || bit f.mod.toNat 2

/-- TSTORE's word is legal: bit 5 of MOD clear, ADDC with PLAIN alone, SR with ACCUM alone (06 R208). -/
structure StoreFields (f : VFmt) : Prop where
  sa : f.sa.toNat < 64
  sb : f.sb.toNat < 64
  sc : f.sc.toNat < 64
  clear : bit f.mod.toNat 5 = false
  addc : bit f.mod.toNat 2 = true → storeMode f = 0
  sr : bit f.mod.toNat 3 = true → storeMode f = 2

theorem StoreFields.mask {f : VFmt} (h : StoreFields f) : f.mod.toNat &&& (1023 - 0x3DF) = 0 := by
  have hclear : f.mod.toNat.testBit 5 = false := h.clear
  apply Nat.eq_of_testBit_eq
  intro j
  rw [show 1023 - 0x3DF = 2 ^ 5 from rfl, Nat.testBit_and, Nat.testBit_two_pow, Nat.zero_testBit]
  by_cases hj : 5 = j
  · rw [← hj, hclear, Bool.false_and]
  · rw [decide_eq_false hj, Bool.and_false]

/-- A flag of the word that asks for a mode. -/
theorem not_or_beq_of_imp {b : Bool} {m n : Nat} (h : b = true → m = n) : (!b || m == n) = true := by
  cases b with
  | false => rfl
  | true => exact beq_iff_eq.mpr (h rfl)

theorem StoreFields.legal {f : VFmt} (h : StoreFields f) :
    (uLegal f.sa.toNat && uLegal f.sb.toNat && uLegal f.sc.toNat && (!bit f.mod.toNat 2 || storeMode f == 0) &&
      (!bit f.mod.toNat 3 || storeMode f == 2)) = true := by
  obtain ⟨ha, hb, hc, -, haddc, hsr⟩ := h
  simp only [uLegal, ha, hb, hc, not_or_beq_of_imp haddc, not_or_beq_of_imp hsr, decide_true, Bool.and_self]

/-- The operands of TSTORE are aligned: its descriptors on 128 bytes, and the address of PARTIAL's tag on 16. -/
structure StoreAligned (f : VFmt) (r : Rope) : Prop where
  dest : (r.ureg f.sa.toNat).toNat % 128 = 0
  prior : storeSecond f = true → (r.ureg f.sb.toNat).toNat % 128 = 0
  tag : storeMode f = 3 → (r.ureg f.sc.toNat).toNat % 16 = 0

/-- The descriptors that TSTORE reads at issue: D, and after it R or C where the word names one. -/
def storeDest (s : State) (f : VFmt) (k : IssueCtx) : Sess × Option (Desc × Bool) :=
  (k.session s).readDesc (k.rope.ureg f.sa.toNat).toNat

def storePrior (s : State) (f : VFmt) (k : IssueCtx) : Sess × Option (Desc × Bool) :=
  if storeSecond f then (storeDest s f k).1.readDesc (k.rope.ureg f.sb.toNat).toNat else ((storeDest s f k).1, none)

/-- The ledgers that TSTORE looks at: none of PARTIAL. -/
def storeLedgers (s : State) (f : VFmt) (k : IssueCtx) : Sess × Bool :=
  if storeMode f = 3 then ((storePrior s f k).1, true)
  else (storePrior s f k).1.ledgersOk k.cx
    ((storeDest s f k).2 :: if storeMode f = 1 then [(storePrior s f k).2] else [])

/-- TSTORE of an accumulation passes every check of 08 Table 8.7 and Table 4.7, to write through `d`. -/
structure StoreChecked (s : State) (f : VFmt) (k : IssueCtx) (x : Acc) (d : Desc) : Prop where
  dest : (storeDest s f k).2 = some (d, false)
  destFine : DescFine k.cx.axes (storeDest s f k).2
  priorFine : DescFine k.cx.axes (storePrior s f k).2
  descsRead : (storePrior s f k).1.stop = none
  descFault : storeDescFault (s.place k.ctx k.c k.cx) k.party.lsBytes (storeMode f) (storeDest s f k).2
    (storePrior s f k).2 = none
  modeFault : storeModeFault k.cx x (storeMode f) (bit f.mod.toNat 3) (bit f.mod.toNat 4) (storeDest s f k).2
    (storePrior s f k).2 = none
  ledgersRead : (storeLedgers s f k).1.stop = none
  nonePutOff : (storeLedgers s f k).1.takeOff.stop = none
  ledgers : (storeLedgers s f k).2 = true
  partialType : storeMode f = 3 → d.type = x.accFmt.descType

/-- The store that TSTORE queues. -/
def storeKind (s : State) (f : VFmt) (k : IssueCtx) (n : Nat) (d : Desc) : TensorOpKind :=
  .store n (storeMode f) (bit f.mod.toNat 2) (bit f.mod.toNat 3) (bit f.mod.toNat 4) d
    ((storePrior s f k).2.map Prod.fst) (k.rope.ureg f.sc.toNat).toNat

section

variable {s : State} {i : Issue} {f : VFmt} {k : IssueCtx} (hi : s.TensorIssue i f k)
include hi

theorem State.TensorIssue.execTstore_of_checked (hfields : StoreFields f) (haligned : StoreAligned f k.rope)
    (htoken : k.MayQueue (storeToken f)) {n : Nat} {x : Acc}
    (hopen : (s.cluster k.c).handle k.rope.party f.dst.toNat = some (n, x)) (hloading : x.loading = false) {d : Desc}
    (hchecked : StoreChecked s f k x d) :
    execTstore i f s = .next ((((storeLedgers s f k).1.st.queueTensor k
      (k.tensorOp (storeKind s f k n d) f.dst.toNat (storeToken f))).modTe k.c fun t =>
        t.close k.rope.party f.dst.toNat n).countCl k.c 2 k.ctx 1) := by
  have hmode : bits f.mod.toNat 0 2 = storeMode f := rfl
  have htok : bits f.mod.toNat 6 4 = storeToken f := rfl
  have hsecond : (storeMode f == 1 || bit f.mod.toNat 2) = storeSecond f := rfl
  have hdest : (k.session s).readDesc (k.rope.ureg f.sa.toNat).toNat = storeDest s f k := rfl
  have hprior : (if storeSecond f then (storeDest s f k).1.readDesc (k.rope.ureg f.sb.toNat).toNat
    else ((storeDest s f k).1, none)) = storePrior s f k := rfl
  have hledgers : (if storeMode f = 3 then ((storePrior s f k).1, true) else (storePrior s f k).1.ledgersOk k.cx
    ((storeDest s f k).2 :: if storeMode f = 1 then [(storePrior s f k).2] else [])) = storeLedgers s f k := rfl
  unfold execTstore
  refine hi.issueWait_eq (hi.legal (.inl rfl) (.inl rfl) (.inl rfl) hfields.mask hfields.legal) ?_
  simp only [hmode, htok, hsecond, hdest, hprior, hledgers, htoken.tensorFirst hi.handle, hopen,
    hchecked.descFault, hchecked.modeFault]
  refine Eq.trans (if_neg ?align) (Eq.trans (if_neg ?waits) (Eq.trans (if_neg ?stop) (Eq.trans (if_neg ?form)
    (Eq.trans (if_neg ?shape) (Eq.trans (if_neg ?ledgerStop) (Eq.trans (if_neg ?ledgerRange) (Eq.trans
      (if_neg ?partialForm) ?queued)))))))
  case align =>
    obtain ⟨hd, hp, ht⟩ := haligned
    rintro (h | ⟨h, hne⟩ | ⟨h, hne⟩)
    · exact h hd
    · exact hne (hp h)
    · exact hne (ht h)
  case waits => simp [hloading, htoken.notFull]
  case stop => simp [hchecked.descsRead]
  case form => simp [hchecked.destFine.form, hchecked.priorFine.form]
  case shape => simp [hchecked.destFine.shape, hchecked.priorFine.shape]
  case ledgerStop => simp [hchecked.ledgersRead]
  case ledgerRange => simp [hchecked.ledgers]
  case partialForm =>
    rintro ⟨hpartial, htype⟩
    simp [hchecked.dest, onDesc, hchecked.partialType hpartial] at htype
  case queued =>
    simp only [hchecked.dest, hchecked.nonePutOff]
    rfl

end

/-! ### TACC.LDP at issue (R114, R125) -/

/-- The accumulator format of a descriptor's type (R125). -/
def Desc.accFmt (d : Desc) : AccFmt := if d.type = 0 then .fp64 else if d.type = 12 then .int32 else .fp32

/-- The accumulation that TACC.LDP opens: one slot, its tile still to come. -/
def IssueCtx.loadingAcc (k : IssueCtx) (d : Desc) : Acc :=
  ⟨k.rope.party, k.ctx, 0, 0, d.accFmt, 0, 0, none, ⟨false, d.accFmt.code, 0, 0, 0⟩, true, true, 1, false, 0, [], [],
    [], 0⟩

/-- One more slot of the party is at hand (R115). -/
structure Cluster.SlotFree (cl : Cluster) (k : IssueCtx) : Prop where
  held : cl.slotsHeld k.rope.party + 1 ≤ k.party.par.slots
  kept : cl.slotsKept k.rope.party + 1 ≤ k.party.par.slots

/-- TACC.LDP's descriptor is read and passes every check of 08 Table 8.7. -/
structure LoadChecked (s : State) (k : IssueCtx) (r : Sess × Option (Desc × Bool)) (d : Desc) : Prop where
  read : r.2 = some (d, false)
  noStop : r.1.stop = none
  fine : DescFine k.cx.axes r.2
  span : spanForm (d.footprint (s.place k.ctx k.c k.cx)) = false
  bounds : spanOutside k.party.lsBytes (d.footprint (s.place k.ctx k.c k.cx)) = false

section

variable {s : State} {i : Issue} {f : VFmt} {k : IssueCtx} (hi : s.TensorIssue i f k)
include hi

theorem State.TensorIssue.execTaccLdp_of_checked (hsa : f.sa.toNat < 64) (hsb : f.sb.toNat < 64) (hsc : f.sc = 0)
    (hmod : f.mod.toNat < 16) (htoken : k.MayQueue f.mod.toNat) (hva : (k.rope.ureg f.sa.toNat).toNat % 128 = 0)
    (htag : (k.rope.ureg f.sb.toNat).toNat % 16 = 0)
    (hclosed : (s.cluster k.c).handle k.rope.party f.dst.toNat = none) {r : Sess × Option (Desc × Bool)}
    (hr : r = (k.session s).readDesc (k.rope.ureg f.sa.toNat).toNat) {d : Desc} (hchecked : LoadChecked s k r d)
    (hslot : (s.cluster k.c).SlotFree k) {n : Nat}
    (hopened : ((r.1.st.modTe k.c fun t => t.openHandle k.rope.party f.dst.toNat (k.loadingAcc d)).cluster k.c).handle
      k.rope.party f.dst.toNat = some (n, k.loadingAcc d)) :
    execTaccLdp i f s = .next (((r.1.st.modTe k.c fun t =>
      t.openHandle k.rope.party f.dst.toNat (k.loadingAcc d)).queueTensor k (k.tensorOp
        (.ldp n d (k.rope.ureg f.sb.toNat).toNat) f.dst.toNat f.mod.toNat)).countCl k.c 2 k.ctx 1) := by
  subst hr
  have hregs : (uLegal f.sa.toNat && uLegal f.sb.toNat) = true := by simp [uLegal, hsa, hsb]
  obtain ⟨hread, hstop, hfine, hspan, hbounds⟩ := hchecked
  have hform := hfine.form
  have hshape := hfine.shape
  rw [hread] at hform hshape
  refine hi.issueWait_eq (hi.legal (.inl rfl) (.inl rfl) (.inr hsc) (and_eq_zero_of_lt (n := 4) hmod (by decide))
    hregs) ?_
  simp only [htoken.tensorFirst hi.handle, hclosed, hread]
  refine Eq.trans (if_neg ?align) (Eq.trans (if_neg ?waits) (Eq.trans (if_neg ?stop) (Eq.trans (if_neg ?form)
    (Eq.trans (if_neg ?shape) (Eq.trans (if_neg ?span) (Eq.trans (if_neg ?bounds) (Eq.trans (if_neg ?isOpen)
      (Eq.trans (if_neg ?never) ?queued))))))))
  case align => omega
  case waits => simp [htoken.notFull, Nat.not_lt.mpr hslot.held]
  case stop => simp [hstop]
  case form => simp [hform]
  case shape => simp [hshape]
  case span => simp [onDesc, hspan]
  case bounds => simp [onDesc, hbounds]
  case isOpen => simp
  case never => simp [Nat.not_lt.mpr hslot.kept]
  case queued =>
    unfold IssueCtx.loadingAcc Desc.accFmt at hopened ⊢
    rw [hopened]

end

end Sys2Proof.Machine

section

open Sys2Proof Sys2Proof.Machine

/-- Settles O25: each instruction by its effect at issue, every check of which passes, then what queueing changes. -/
theorem tensorOperations : Obligations.TensorOperations := by
  unfold Obligations.TensorOperations
  refine ⟨?instructions, ?queueing⟩
  case instructions =>
    intro s i f k hissues he hdst hua hub huc hty hhandle hsa hsb h party named issued op free opening u va vb
    have hi : s.TensorIssue i f k := ⟨hissues, he, hdst, hua, hub, huc, hty, hhandle⟩
    refine ⟨?multiply, ?store, ?load⟩
    case multiply =>
      intro hsa2 hsb2 hsc hsc2 hmod hfree hpa hpb a b kc og hpair n x hopen hloaded hfa hfb horigin hunfinished hinside
        hwhole
      refine ⟨x.advanced kc _, rfl, rfl, rfl, rfl, by simp [Acc.advanced], ?_⟩
      exact hi.execTmma_of_piece ⟨⟨hsa, hsa2⟩, ⟨hsb, hsb2⟩, hsc, hsc2⟩ hmod ⟨hfree.1, hfree.2⟩ hpa hpb rfl rfl hpair rfl
        rfl hopen ⟨hloaded, hfa, hfb, horigin, hunfinished, hinside, hwhole⟩
    case store =>
      intro mode addc sr trans tok second step hclear hsc haddc hsr hfree hva hvb hstep n x hopen hloading r1 r2 fine d
        hd hfine hsecond hread hfault hmode l hledgers hnone hrange htype
      have hprior : DescFine k.cx.axes r2.2 := by
        cases hs : second with
        | false =>
          rw [show r2 = (r1.1, none) from if_neg (by simp [hs])]
          exact descFine_none _
        | true =>
          obtain ⟨e, he2, hefine⟩ := hsecond hs
          rw [he2]
          exact descFine_some hefine
      have htoken : k.MayQueue (storeToken f) := by
        rw [storeToken_eq_div]
        exact ⟨hfree.1, hfree.2⟩
      have hexec := hi.execTstore_of_checked ⟨hsa, hsb, hsc, hclear, haddc, hsr⟩ ⟨hva, hvb, hstep⟩ htoken hopen hloading
        ⟨hd, hd ▸ descFine_some hfine, hprior, hread, hfault, hmode, hledgers, hnone, hrange, htype⟩
      rw [storeToken_eq_div] at hexec
      exact hexec
    case load =>
      intro hsc hmod hfree hva hvb hclosed r d hd hstop hform hrank hshape hspan hbounds hheld hkept hroom
      obtain ⟨n, -, hopened, -⟩ := r.1.st.handle_openHandle k.c party h (k.loadingAcc d) hroom
      exact ⟨k.loadingAcc d, n, rfl, rfl, rfl, rfl, rfl, rfl, hopened,
        hi.execTaccLdp_of_checked hsa hsb hsc hmod ⟨hfree.1, hfree.2⟩ hva hvb hclosed rfl
          ⟨hd, hstop, hd ▸ descFine_some ⟨hform, hrank, hshape⟩, hspan, hbounds⟩ ⟨hheld, hkept⟩ hopened⟩
  case queueing =>
    intro s k o _ hrope t
    have hcluster := s.cluster_queueTensor k o hrope
    refine ⟨?queue, s.queueTensor_mem k o, ?rope, k.party.takeToken o.token .tensor, ?party,
      k.party.token_takeToken_self _ _, fun n hn => k.party.token_takeToken_of_ne _ hn⟩
    case queue =>
      rw [hcluster]
      rfl
    case rope =>
      rw [hcluster]
      exact Table.find_insert_self _ _ _
    case party =>
      rw [hcluster]
      exact Table.find_insert_self _ _ _

end

namespace Sys2Proof.Machine

/-! ### The tensor engine's milestones (R114, R120, R128) -/

/-- Where the engine neither waits nor meets an SRAM error, its first operation runs. -/
theorem execTensorMilestone_of_first {s : State} {c : Nat} (host : HostAnswer) (silent : Option (Nat × Word))
    (hready : s.ready = true) (hhalt : s.clusterHalted c = false) {o : TensorOp} {p : Party} {cx : Ctx}
    (hfirst : (s.cluster c).te.first = some o) (hparty : Table.find (s.cluster c).parties o.party = some p)
    (hctx : Table.find s.ctxs o.ctx = some cx) (hstall : (s.cluster c).te.stall = none)
    (htrace : s.mayTrace (tensorSrc c) o.ctx kTensorDone = true) :
    execTensorMilestone c host .none silent s = .next (s.tensorRun c o p cx host silent) := by
  simp [execTensorMilestone, State.teEcc, hready, hhalt, hfirst, hparty, hctx, hstall, htrace]

/-- A piece accumulated in accumulation `n`, and the array time of it counted; `ends` says that it reaches K_END. -/
def State.pieceRun (s : State) (c ctx : Nat) (p : Party) (n : Nat) (a b : Panel) (kc : Nat) (acc : Acc) (ends : Bool) :
    State × Acc :=
  let w := s.arrayWaits c acc kc ends
  let x := { acc.piece p.ls a b kc with freeAt := w.2 }
  ((w.1.modTe c fun t => { t.setAcc n x with idleAc := 0 }).countCl c 7 ctx (arrayTime acc kc), x)

section

variable {s : State} {c : Nat} {o : TensorOp} (p : Party) (cx : Ctx) (host : HostAnswer)

/-- A TMMA whose groups read in bounds, with its permit and the shadow unit free for a sampled tile that ends,
accumulates its piece; at K_END the tile is complete. -/
theorem State.tensorRun_mma {silent : Option (Nat × Word)} {n : Nat} {a b : Panel} {kc seq : Nat} {acc : Acc}
    (hkind : o.kind = .mma n a b kc seq) (hacc : Table.find (s.cluster c).te.accs n = some acc)
    (hpermit : arrayTime acc kc ≤ 256 ∨ (s.cluster c).te.permit = true)
    (hreads : pieceFault p.ls p.lsBytes a b acc.accFmt.cols kc = none) {ends : Bool}
    (hends : ends = decide (acc.doneTo + kc = acc.tag.kEnd ∧ 0 < kc))
    (hshadow : ends = true → silent = none ∧ (s.sampled c o.ctx = false ∨ (s.cluster c).te.shadow = none)) :
    s.tensorRun c o p cx host silent =
      (let r := s.pieceRun c o.ctx p n a b kc acc ends
       if ends then r.1.tileDone c o r.2 seq else r.1).tensorDone c o := by
  rw [Bool.decide_and] at hends
  unfold State.tensorRun
  simp only [hkind, hacc, ← hends, hreads]
  refine Eq.trans (if_neg ?permit) (Eq.trans (if_neg ?shadow) ?run)
  case permit =>
    rintro ⟨hlong, hnone⟩
    rcases hpermit with hshort | hheld
    · omega
    · simp [hheld] at hnone
  case shadow =>
    cases ends with
    | false => simp
    | true => rcases (hshadow rfl).2 with h | h <;> simp [h]
  case run =>
    cases ends with
    | false => rfl
    | true =>
      rw [(hshadow rfl).1]
      rfl

theorem State.tensorRun_comb (silent : Option (Nat × Word)) {into lo hi : Nat} {a v w : Acc}
    (hkind : o.kind = .comb into lo hi) (ha : Table.find (s.cluster c).te.accs into = some a)
    (hv : Table.find (s.cluster c).te.accs lo = some v) (hw : Table.find (s.cluster c).te.accs hi = some w) :
    s.tensorRun c o p cx host silent = (s.modTe c fun t => t.setAcc into { a with
      stack := [(0, List.zipWith (accAdd a.accFmt) v.value w.value)], doneTo := a.tag.kEnd
      slots := 1 }).tensorDone c o := by
  unfold State.tensorRun
  simp only [hkind, ha, hv, hw]

theorem State.tensorRun_store (silent : Option (Nat × Word)) {n mode : Nat} {addc sr trans : Bool} {d : Desc}
    {rc : Option Desc} {step : Nat} {acc : Acc} (hkind : o.kind = .store n mode addc sr trans d rc step)
    (hacc : Table.find (s.cluster c).te.accs n = some acc) {y : Sess}
    (hy : y = (s.session c o.ctx o.party host o.log o.written).storeTile acc cx (s.place o.ctx c cx) mode addc sr
      trans d rc step)
    (hreads : y.stop = none) (hwrites : y.commit.stop = none) :
    s.tensorRun c o p cx host silent = y.commit.st.tensorDone c o := by
  subst hy
  unfold State.tensorRun
  simp [hkind, hacc, hreads, hwrites]

theorem State.tensorRun_ldp (silent : Option (Nat × Word)) {n : Nat} {d : Desc} {tagVa : Nat} {acc : Acc}
    (hkind : o.kind = .ldp n d tagVa) (hacc : Table.find (s.cluster c).te.accs n = some acc) {y : Sess × Acc}
    (hy : y = (s.session c o.ctx o.party host o.log o.written).loadTile acc (s.place o.ctx c cx) d tagVa)
    (hreads : y.1.stop = none) :
    s.tensorRun c o p cx host silent = (y.1.st.modTe c fun t => t.setAcc n y.2).tensorDone c o := by
  subst hy
  unfold State.tensorRun
  simp [hkind, hacc, hreads]

end

/-! ### The Haul engine's starts and milestones (08 R275, R276) -/

/-- Fewer than four operations in progress, none of them a get that bytes are to come for, and no translation fault:
the oldest operation not started does its work. -/
theorem execHaulOpStart_of_first {s : State} {c : Nat} (host : HostAnswer) (hready : s.ready = true)
    (hhalt : s.clusterHalted c = false) {o : HaulOp} {p : Party} {cx : Ctx}
    (hfirst : ((s.cluster c).haul.queue.find? fun o => !o.started) = some o)
    (hparty : Table.find (s.cluster c).parties o.party = some p) (hctx : Table.find s.ctxs o.ctx = some cx)
    (hstall : (s.cluster c).haul.stall = none)
    (hfour : ((s.cluster c).haul.queue.filter fun o => o.started).length < 4)
    (hgets : ∀ q ∈ (s.cluster c).haul.queue, q.started = true → s.getOpen c q = false) :
    execHaulOpStart c host s = .next (s.haulRun c o p cx host) := by
  have hopen : ((s.cluster c).haul.queue.filter fun o => o.started).any (s.getOpen c) = false := by
    simpa using hgets
  unfold execHaulOpStart
  simp only [hfirst, hopen, hparty, hctx]
  simp [hready, hhalt, hstall, Nat.not_le.mpr hfour]

/-- The operation has started, with the drops it has counted. -/
def HaulEngine.began (h : HaulEngine) (id drops : Nat) : HaulEngine :=
  { h with queue := h.queue.map fun q => if q.id = id then { q with started := true, drops := drops } else q }

/-- The state of an operation's accesses, the sectors read and written counted (R277). -/
def Sess.sectorsCounted (z : Sess) (c ctx : Nat) : State := (z.st.countCl c 9 ctx z.reads).countCl c 10 ctx z.writes

section

variable {s : State} {c : Nat} {o : HaulOp} {p : Party} {cx : Ctx} {host : HostAnswer} {b : Sess × HaulPlan}
  (hb : b = (s.session c o.ctx o.party host o.log o.written).haulPlan c o p cx) (hstop : b.1.stop = none)
  (hidx : b.2.idx = none)
include hb hstop hidx

/-- A copy performs its gathered writes. -/
theorem State.haulRun_copy (hkind : o.kind = .copy) {w : Sess × List HWrite × Nat}
    (hw : w = b.1.moves false b.2.src b.2.dst b.2.us b.2.ud (haulPairs o.kind b.2.src b.2.dst b.2.ax [])) {z : Sess}
    (hz : z = ((w.1.writeAll w.2.1).drops b.2.dst w.2.2).commit) (hdone : z.stop = none) :
    s.haulRun c o p cx host = (z.sectorsCounted c o.ctx).modHaul c fun h => h.began o.id w.2.2 := by
  have hmove : (HaulKind.copy == .scatter false) = false := rfl
  rw [hkind] at hw
  unfold State.haulRun
  simp only [← hb, hstop, hidx, hkind, HaulKind.reduces, hmove, ← hw, ← hz, hdone]
  rfl

/-- A reduction performs its atomics, and joins its flags to the party's tally. -/
theorem State.haulRun_red {op : Nat} (hkind : o.kind = .red op) {g : Sess × Table (List Nat) × Nat}
    (hg : g = b.1.contributions b.2.src b.2.dst b.2.us b.2.ud (haulPairs o.kind b.2.src b.2.dst b.2.ax [])) {z : Sess}
    (hz : z = ((g.1.reduce op b.2.src b.2.dst g.2.1).drops b.2.dst g.2.2).commit) (hdone : z.stop = none) {q : Party}
    (hparty : Table.find ((z.sectorsCounted c o.ctx).cluster c).parties o.party = some q) :
    s.haulRun c o p cx host = ((z.sectorsCounted c o.ctx).setParty c o.party
      { q with tally := q.tally.join (redFlags b.2.src b.2.dst g.2.1) }).modHaul c fun h => h.began o.id g.2.2 := by
  unfold Sess.sectorsCounted at hparty
  rw [hkind] at hg
  unfold State.haulRun
  simp only [← hb, hstop, hidx, hkind, HaulKind.reduces, ← hg, ← hz, hdone, hparty]
  rfl

end

theorem execHaulMilestone_of_first {s : State} {c : Nat} (hready : s.ready = true) (hhalt : s.clusterHalted c = false)
    {o : HaulOp} (hfirst : (s.cluster c).haul.first (s.haulDone c) = some o)
    (htrace : s.mayTrace (haulSrc c) o.ctx kHaulDone = true) :
    execHaulMilestone c s = .next (((s.modHaul c fun h => { h with
      queue := h.queue.filter fun q => q.id != o.id }).traceNow (haulSrc c) 0 o.ctx kHaulDone
        (o.kind.opcode * 256 + o.token) o.drops).signalToken c o.party o.token) := by
  simp [execHaulMilestone, hready, hhalt, hfirst, htrace]

/-! ### The oldest permit request of a die (R129) -/

/-- The older of the request found so far and the next one, the first found among equals. -/
def olderAsk (best : Option (Nat × Nat)) (a : Nat × Nat) : Option (Nat × Nat) :=
  match best with
  | none => some a
  | some m => if a.1 < m.1 then some a else some m

/-- The requests of a die: the ac of each with its cluster, in the order of the clusters. -/
def State.asksOf (s : State) (die : Nat) : List (Nat × Nat) :=
  s.clusters.filterMap fun e => if e.1 / 176 = die then e.2.te.asked.map fun t => (t, e.1) else none

theorem State.mem_asksOf {s : State} {die : Nat} {a : Nat × Nat} :
    a ∈ s.asksOf die ↔ ∃ k, (a.2, k) ∈ s.clusters ∧ a.2 / 176 = die ∧ k.te.asked = some a.1 := by
  unfold State.asksOf
  rw [List.mem_filterMap]
  constructor
  · rintro ⟨⟨c, k⟩, hmem, ha⟩
    split at ha
    · rename_i hdie
      obtain ⟨t, ht, rfl⟩ := Option.map_eq_some_iff.mp ha
      exact ⟨k, hmem, hdie, ht⟩
    · cases ha
  · rintro ⟨k, hmem, hdie, hasked⟩
    exact ⟨(a.2, k), hmem, by simp [hdie, hasked]⟩

/-- A die's requests stand in the order of their clusters. -/
theorem State.asksOf_pairwise {s : State} (die : Nat) (h : s.clusters.Pairwise fun a b => a.1 < b.1) :
    (s.asksOf die).Pairwise fun a b => a.2 < b.2 := by
  refine h.filterMap _ fun e e' hlt a ha a' ha' => ?_
  split at ha
  · split at ha'
    · obtain ⟨t, -, rfl⟩ := Option.map_eq_some_iff.mp ha
      obtain ⟨t', -, rfl⟩ := Option.map_eq_some_iff.mp ha'
      exact hlt
    · cases ha'
  · cases ha

theorem olderAsk_foldl_of_le {m : Nat × Nat} {l : List (Nat × Nat)} (h : ∀ a ∈ l, m.1 ≤ a.1) :
    l.foldl olderAsk (some m) = some m := by
  induction l with
  | nil => rfl
  | cons a l ih =>
    rw [List.foldl_cons, olderAsk, if_neg (Nat.not_lt.mpr (h a List.mem_cons_self))]
    exact ih fun b hb => h b (List.mem_cons_of_mem _ hb)

/-- A request older than those before it and no younger than those after it is the one found. -/
theorem olderAsk_foldl_append {m : Nat × Nat} {l r : List (Nat × Nat)} (hl : ∀ a ∈ l, m.1 < a.1)
    (hr : ∀ a ∈ r, m.1 ≤ a.1) {best : Option (Nat × Nat)} (hbest : ∀ a, best = some a → m.1 < a.1) :
    (l ++ m :: r).foldl olderAsk best = some m := by
  induction l generalizing best with
  | nil =>
    rw [List.nil_append, List.foldl_cons]
    have hm : olderAsk best m = some m := by
      cases best with
      | none => rfl
      | some a => exact if_pos (hbest a rfl)
    rw [hm, olderAsk_foldl_of_le hr]
  | cons a l ih =>
    rw [List.cons_append, List.foldl_cons]
    refine ih (fun b hb => hl b (List.mem_cons_of_mem _ hb)) fun b hb => ?_
    have ha := hl a List.mem_cons_self
    cases best with
    | none =>
      cases hb
      exact ha
    | some x =>
      rw [olderAsk] at hb
      split at hb
      · cases hb
        exact ha
      · cases hb
        exact hbest _ rfl

/-- Of requests in the order of their clusters, the oldest is found, of the lowest cluster among equals. -/
theorem olderAsk_foldl_of_oldest {l : List (Nat × Nat)} {m : Nat × Nat} (hmem : m ∈ l)
    (hsorted : l.Pairwise fun a b => a.2 < b.2) (holdest : ∀ a ∈ l, m.1 < a.1 ∨ (m.1 = a.1 ∧ m.2 ≤ a.2)) :
    l.foldl olderAsk none = some m := by
  obtain ⟨before, after, rfl⟩ := List.append_of_mem hmem
  obtain ⟨-, -, hcross⟩ := List.pairwise_append.mp hsorted
  refine olderAsk_foldl_append (fun a ha => ?_) (fun a ha => ?_) (fun a ha => nomatch ha)
  · have hlower := hcross a ha m List.mem_cons_self
    have hold := holdest a (List.mem_append_left _ ha)
    omega
  · have hold := holdest a (List.mem_append_right _ (List.mem_cons_of_mem _ ha))
    omega

/-- The grants of a die's pool within the last 64 ac. -/
def State.recentGrants (s : State) (die : Nat) : List Nat :=
  (Table.get [] s.grants die).filter fun t => decide (s.acCount < t + 64)

/-- The permit is granted: the cluster holds it, and the die's pool notes the grant. -/
def State.granted (s : State) (die c : Nat) : State :=
  let s1 := s.modTe c fun t => { t with permit := true, asked := none, idleAc := 0 }
  { s1 with grants := Table.set [] s1.grants die (s.recentGrants die ++ [s.acCount]) }

/-- A grant and how long its request waited are counted (PWR_POOL_STAT). -/
def State.countGrant (s : State) (die wait : Nat) : State :=
  let t := if wait = 0 then s else s.satRf (.pwrPoolStat die) .waits 1
  (t.wrapRf (.pwrPoolStat die) .grants 1).setRf (.pwrPoolStat die) .maxWait
    (max (t.rf (.pwrPoolStat die) .maxWait) (min wait 704))

theorem execPermitGrant_of_oldest {s : State} {die c asked : Nat} (hready : s.ready = true)
    (hbest : (s.asksOf die).foldl olderAsk none = some (asked, c)) (hrecent : (s.recentGrants die).length < 16) :
    execPermitGrant die s = .next ((s.granted die c).countGrant die (s.acCount - asked)) := by
  have hrun : ¬(!s.ready || decide (16 ≤ (s.recentGrants die).length)) = true := by simp [hready, hrecent]
  unfold execPermitGrant
  dsimp only
  split
  · rename_i hnone
    cases hnone.symm.trans hbest
  · rename_i hsome
    cases hsome.symm.trans hbest
    exact if_neg hrun

theorem execPermitLoss_of_idle {s : State} {c : Nat} (hpermit : (s.cluster c).te.permit = true)
    (hidle : 16 ≤ (s.cluster c).te.idleAc) :
    execPermitLoss c s = .next (s.modTe c fun t => { t with permit := false, idleAc := 0 }) := by
  simp [execPermitLoss, hpermit, hidle]

/-! ### The shadow unit's check (03 R98 to R101) -/

theorem execShadowCheck_of_tile {s : State} {c : Nat} {j : ShadowJob} {cx : Ctx} (hready : s.ready = true)
    (hhalt : s.clusterHalted c = false) (hshadow : (s.cluster c).te.shadow = some j)
    (hctx : Table.find s.ctxs j.ctx = some cx) {r : Nat × Nat × ElemCheck}
    (hr : r = checkTile j (if j.accFmt = .fp64 then cx.tolExp64 else cx.tolExp32) cx.hardExp) :
    execShadowCheck c s =
      let s1 := s.modTe c fun t => { t with shadow := none }
      let s2 := s1.satRf (.fltShadowCnt j.ctx) (if r.1 = 1 then .soft else .hard) 1
      let s3 := (s2.ringPut .fltShadowRing .fltShadowPtr (leBytes 64 (s2.shadowBits c j r))).1
      if r.1 = 0 then .next s1 else .next (if r.1 = 1 then s3 else s3.clusterFail c Code.shadowHard [j.ctx]) := by
  have hrun : ¬(!s.ready || s.clusterHalted c) = true := by simp [hready, hhalt]
  have hcheck : ∀ tol, tol = (if j.accFmt = .fp64 then cx.tolExp64 else cx.tolExp32) →
      checkTile j tol cx.hardExp = r := fun _ htol => htol ▸ hr.symm
  unfold execShadowCheck
  simp only [if_neg hrun, hshadow, hctx]
  rw [hcheck]
  cases j.accFmt <;> rfl

end Sys2Proof.Machine

section

open Sys2Proof Sys2Proof.Machine

/-- Settles O27: each milestone, start, grant and check by the lemma of its command. The model's choices here: the whole
operation applied at its milestone (log 56), a load before the queued operations unless an older operation of its token
is left (log 128), what the array waits for the merge unit and the shadow unit (log 55), and a tile counted at the TMMA
that reaches K_END (log 46). -/
theorem engineWorkAndPermits : Obligations.EngineWorkAndPermits := by
  unfold Obligations.EngineWorkAndPermits
  refine ⟨?engines, ?permits⟩
  case engines =>
    intro s c host silent hready hhalt te hq
    refine ⟨?tensor, ?haulStart, ?haulDone⟩
    case tensor =>
      intro o p cx hfirst hparty hctx hstall htrace x u
      have hrun : ∀ silent, exec (.tensorMilestone c host .none silent) s = .next (s.tensorRun c o p cx host silent) :=
        fun silent => execTensorMilestone_of_first host silent hready hhalt hfirst hparty hctx hstall htrace
      refine ⟨?multiply, ?combine, ?store, ?load⟩
      case multiply =>
        intro n a b kc seq acc hkind hacc hpermit hreads ends w acc1 s1
        refine ⟨fun hinside => ?unfinished, fun hends hshadow => ?complete⟩
        case unfinished =>
          rw [hrun, State.tensorRun_mma p cx host hkind hacc hpermit hreads (ends := decide ends) rfl
            (fun hends => absurd (of_decide_eq_true hends) hinside)]
          exact congrArg (fun t : State => Host.Outcome.next (t.tensorDone c o))
            (if_neg (fun hends => hinside (of_decide_eq_true hends)))
        case complete =>
          rw [hrun, State.tensorRun_mma p cx host hkind hacc hpermit hreads (ends := decide ends) rfl
            (fun _ => ⟨rfl, hshadow⟩)]
          exact congrArg (fun t : State => Host.Outcome.next (t.tensorDone c o)) (if_pos (decide_eq_true hends))
      case combine =>
        intro into lo hi a v w hkind ha hv hw
        rw [hrun, State.tensorRun_comb p cx host silent hkind ha hv hw]
      case store =>
        intro n mode addc sr trans d rc step acc hkind hacc y hreads hwrites
        rw [hrun, State.tensorRun_store p cx host silent hkind hacc rfl hreads hwrites]
      case load =>
        intro n d tagVa acc hkind hacc y hreads
        rw [hrun, State.tensorRun_ldp p cx host silent hkind hacc rfl hreads]
    case haulStart =>
      intro o p cx hfirst hparty hctx hstall hfour hgets
      have hrun : exec (.haulOpStart c host) s = .next (s.haulRun c o p cx host) :=
        execHaulOpStart_of_first host hready hhalt hfirst hparty hctx hstall hfour hgets
      refine ⟨hrun, ?_⟩
      intro b hstop _ hidx pairs began counted
      refine ⟨?copy, ?reduction⟩
      case copy =>
        intro hkind w z hdone
        rw [hrun, State.haulRun_copy rfl hstop hidx hkind rfl rfl hdone]
        rfl
      case reduction =>
        intro op hkind g z hdone q hq
        rw [hrun, State.haulRun_red rfl hstop hidx hkind rfl rfl hdone hq]
        rfl
    case haulDone =>
      intro o hfirst htrace
      exact execHaulMilestone_of_first hready hhalt hfirst htrace
  case permits =>
    intro s hready
    refine ⟨?grant, ?loss, ?shadow⟩
    case grant =>
      intro die c asked hdie hasked hlisted holdest hsorted recent hrecent s1 s2 wait s3
      obtain ⟨k, hk⟩ := Option.isSome_iff_exists.mp hlisted
      have hcluster : s.cluster c = k := Table.get_eq_of_find _ hk
      have hmem : (asked, c) ∈ s.asksOf die :=
        State.mem_asksOf.mpr ⟨k, Table.mem_of_find hk, hdie, hcluster ▸ hasked⟩
      refine execPermitGrant_of_oldest hready (olderAsk_foldl_of_oldest hmem (State.asksOf_pairwise die hsorted)
        fun a ha => ?_) hrecent
      obtain ⟨k', hk', hdie', hasked'⟩ := State.mem_asksOf.mp ha
      exact holdest _ hk' hdie' _ hasked'
    case loss => exact fun c hpermit hidle => execPermitLoss_of_idle hpermit hidle
    case shadow =>
      intro c j cx hhalt hshadow hctx s1 r s2 s3
      have hrun := execShadowCheck_of_tile hready hhalt hshadow hctx (r := r) rfl
      refine ⟨fun hagree => ?_, fun hsoft => ?_, fun hhard => ?_⟩
      · rw [exec_shadowCheck, hrun, if_pos hagree]
      · rw [exec_shadowCheck, hrun, if_neg (by omega), if_pos hsoft]
      · rw [exec_shadowCheck, hrun, if_neg (by omega), if_neg (by omega)]

end

/-! PROOF. Statements of 05_clusters_ropes_parties.md: the join before an issue (R143) and what becomes of ropes and
parties beside their instructions (R149, R150, R153, R171, R173, R175; 06 R186), which hold; branches and calls
(R142), EXIT and the barrier (R144), atomics, tally cells and locks on the local store (R160, R164, R170 to R173), and
accesses of device memory (R158, R170), which fail for a state that the model evaluates to something else. -/

namespace Sys2Proof.Machine

/-! ### Joins (R143) -/

/-- R143 does not hold of the rope: its stack is empty, or its pc is off the top entry's join. -/
def Rope.settled (r : Rope) : Prop := r.stack = [] ∨ ∃ e rest, r.stack = e :: rest ∧ r.pc ≠ e.join

/-- The turns of R143 that an entry is good for: its pop, and before it the taking up of its pending lanes. -/
def MaskEntry.turns (exited : Mask) (e : MaskEntry) : Nat := if e.pendingMask &&& ~~~exited ≠ 0 then 2 else 1

/-- A bound on the turns that R143 can take of a rope. -/
def Rope.turns (r : Rope) : Nat := (r.stack.map (MaskEntry.turns r.exited)).sum

theorem MaskEntry.turns_le_two (exited : Mask) (e : MaskEntry) : e.turns exited ≤ 2 := by
  unfold MaskEntry.turns
  split <;> decide

theorem MaskEntry.sum_turns_le (exited : Mask) (l : List MaskEntry) :
    (l.map (MaskEntry.turns exited)).sum ≤ 2 * l.length := by
  induction l with
  | nil => exact Nat.le_refl _
  | cons e l ih =>
    have he := e.turns_le_two exited
    rw [List.map_cons, List.sum_cons, List.length_cons]
    omega

theorem Rope.turns_le (r : Rope) : r.turns ≤ 2 * r.stack.length := MaskEntry.sum_turns_le r.exited r.stack

theorem Rope.join_of_settled {r : Rope} (h : r.settled) (n : Nat) (b : Bool) : Rope.join n r b = (r, b) := by
  cases n with
  | zero => rfl
  | succ n =>
    unfold Rope.join
    rcases h with h | ⟨e, rest, h, hpc⟩
    · rw [h]
    · rw [h]
      exact if_neg hpc

section

variable {r : Rope} {e : MaskEntry} {rest : List MaskEntry} (hstack : r.stack = e :: rest) (hpc : r.pc = e.join)
include hstack hpc

/-- A turn that takes up pending lanes. -/
theorem Rope.join_of_pending (hpending : e.pendingMask &&& ~~~r.exited ≠ 0) (n : Nat) (b : Bool) :
    Rope.join (n + 1) r b = Rope.join n { r with
      active := e.pendingMask &&& ~~~r.exited, pc := e.pendingPc
      stack := { e with pendingMask := 0 } :: rest } true := by
  rw [Rope.join, hstack]
  exact (if_pos hpc).trans (if_pos hpending)

/-- A turn that pops the top entry. -/
theorem Rope.join_of_not_pending (hpending : e.pendingMask &&& ~~~r.exited = 0) (n : Nat) (b : Bool) :
    Rope.join (n + 1) r b = Rope.join n { r with active := e.saved &&& ~~~r.exited, stack := rest } false := by
  rw [Rope.join, hstack]
  exact (if_pos hpc).trans (if_neg (not_not_intro hpending))

end

theorem Rope.not_settled {r : Rope} (h : ¬ r.settled) : ∃ e rest, r.stack = e :: rest ∧ r.pc = e.join := by
  unfold Rope.settled at h
  cases hstack : r.stack with
  | nil => exact absurd (.inl hstack) h
  | cons e rest => exact ⟨e, rest, rfl, Classical.not_not.mp fun hpc => h (.inr ⟨e, rest, hstack, hpc⟩)⟩

/-- Every turn lowers the bound, so with that many turns the loop of R143 has ended. -/
theorem Rope.join_settled (n : Nat) (r : Rope) (b : Bool) (h : r.turns ≤ n) : (Rope.join n r b).1.settled := by
  induction n generalizing r b with
  | zero =>
    left
    cases hstack : r.stack with
    | nil => simpa [Rope.join] using hstack
    | cons e rest =>
      exfalso
      simp only [Rope.turns, MaskEntry.turns, hstack, List.map_cons, List.sum_cons] at h
      split at h <;> omega
  | succ n ih =>
    by_cases hsettled : r.settled
    · rw [Rope.join_of_settled hsettled]
      exact hsettled
    · obtain ⟨e, rest, hstack, hpc⟩ := Rope.not_settled hsettled
      have hturns : r.turns = e.turns r.exited + (rest.map (MaskEntry.turns r.exited)).sum := by
        rw [Rope.turns, hstack, List.map_cons, List.sum_cons]
      by_cases hpending : e.pendingMask &&& ~~~r.exited = 0
      · rw [Rope.join_of_not_pending hstack hpc hpending]
        refine ih _ _ ?_
        rw [MaskEntry.turns, if_neg (not_not_intro hpending)] at hturns
        show (rest.map (MaskEntry.turns r.exited)).sum ≤ n
        omega
      · rw [Rope.join_of_pending hstack hpc hpending]
        refine ih _ _ ?_
        rw [MaskEntry.turns, if_pos hpending] at hturns
        show MaskEntry.turns r.exited { e with pendingMask := 0 } + (rest.map (MaskEntry.turns r.exited)).sum ≤ n
        rw [MaskEntry.turns, if_neg (by simp)]
        omega

/-- Some lane of the first mask lies outside the second. -/
theorem exists_lane_iff (a b : Mask) :
    (∃ l, l < 32 ∧ a.getLsbD l = true ∧ b.getLsbD l = false) ↔ a &&& ~~~b ≠ 0 := by
  rw [Ne, BitVec.eq_of_getLsbD_eq_iff]
  simp only [Classical.not_forall, BitVec.getLsbD_and, BitVec.getLsbD_not, BitVec.ofNat_eq_ofNat, BitVec.getLsbD_zero]
  refine exists_congr fun l => ⟨fun ⟨hl, ha, hb⟩ => ⟨hl, ?_⟩, fun ⟨hl, h⟩ => ⟨hl, ?_⟩⟩
  · rw [ha, hb, decide_eq_true hl]
    decide
  · simpa [decide_eq_true hl] using h

/-- What an issue finds of the rope it names. -/
theorem issuing_rope {s : State} {i : Issue} {g : Guard} {k : IssueCtx} (h : s.issuing i g = some k) :
    ∃ r, Table.find (s.cluster i.cluster).ropes i.slot = some r ∧ k.rope = (Rope.join 70 r false).1 := by
  unfold State.issuing at h
  split at h
  · cases h
  · split at h
    · cases h
    · rename_i r hr
      refine ⟨r, hr, ?_⟩
      split at h
      · cases h
      · simp only [State.ropeCtx, hr] at h
        split at h
        · cases h
        · split at h
          · cases h
          · cases h
            rfl

/-! ### Waiting ropes and livelock (R171, R173, R175) -/

section

variable {s : State} {c slot : Nat} {k : IssueCtx} (hk : s.waiting c slot noGuard = some k)
include hk

theorem execRopeLivelock_of_count (hcount : 2 ^ 20 ≤ k.rope.livelock) :
    execRopeLivelock c slot s = .next (s.ropeFault c slot k.ctx k.rope.pc Code.ropeLivelock 0 0) := by
  rw [execRopeLivelock, hk]
  exact if_pos hcount

theorem execSpinwaitReread_of_spin {f : MFmt} {rest : Mask} (host : HostAnswer) (hwait : k.rope.wait = .spin f rest) :
    execSpinwaitReread c slot host s = .next (s.spin k f rest (some host)) := by
  simp only [execSpinwaitReread, hk, hwait]

theorem execGlockPass_of_glock {f : MFmt} {e : Mask} (hwait : k.rope.wait = .glock f e) :
    execGlockPass c slot s = .next (s.lockPass k f k.rope e) := by
  simp only [execGlockPass, hk, hwait]

end

/-! ### The launch and the end of a party (R149, R150, R153) -/

/-- The state in which cluster `c` takes a launch's party: its status registers cleared, the split taken, and the
launch's acquire made. -/
def State.readied (s : State) (c : Nat) (par : LaunchParams) : State :=
  ((((s.setReg (.clTeStat c) 0).setRf (.clHaulStat c) .xltStall 0).setRf (.clRcStat c) .misses 0).takeSplit c par.ctx
    par.split).acquireAt c par.ctx 2

/-- Cluster `c` with party `idx` of launch `l` in its lowest free party slot and its ropes in `slots`. -/
def Cluster.launched (k : Cluster) (c l idx : Nat) (par : LaunchParams) (slots : List Nat) (rest : List (Nat × Nat)) :
    Cluster :=
  let n := (Table.firstFree k.parties 0 16).getD 0
  { k with
    waiting := rest, parties := Table.insert k.parties n ⟨l, idx, par, [], [], .clear⟩
    ropes := (slots.zip (List.range par.ropes)).foldl
      (fun t e => Table.insert t e.1 (Rope.launched n e.2 c idx par)) k.ropes }

section

variable {s : State} {c : Nat} (hready : s.ready = true) (hhalt : s.clusterHalted c = false)
include hready hhalt

theorem execPartyLaunch_of_fits {l idx : Nat} {rest : List (Nat × Nat)} {x : Launch} {slots : List Nat} {t : State}
    (hwaiting : (s.cluster c).waiting = (l, idx) :: rest) (hlaunch : Table.find s.launches l = some x)
    (hsplit : (s.cluster c).split = x.par.split ∨ (s.cluster c).parties = [])
    (hfits : (s.cluster c).fits x.par = true) (hslots : slots = (s.cluster c).freeSlots x.par.ropes)
    (htrace : s.mayTraceRopes c slots x.par.ctx kPartyStart = true) (ht : t = s.readied c x.par)
    (hlive : (Table.find t.launches l).isSome = true) :
    execPartyLaunch c s = .next ((t.setCluster c ((t.cluster c).launched c l idx x.par slots rest)).traceRopes c slots
      x.par.ctx kPartyStart idx x.par.code.toNat) := by
  subst hslots ht
  have hopen : ¬ ((!s.ready || s.clusterHalted c) = true) := by simp [hready, hhalt]
  have hroom : ¬ ((decide ((s.cluster c).split ≠ x.par.split ∧ (s.cluster c).parties ≠ []) ||
      !(s.cluster c).fits x.par ||
      !s.mayTraceRopes c ((s.cluster c).freeSlots x.par.ropes) x.par.ctx kPartyStart) = true) := by
    rw [hfits, htrace]
    rcases hsplit with h | h <;> simp [h]
  have hgone : ¬ ((Table.find (s.readied c x.par).launches l).isNone = true) := by
    rw [Option.isNone_iff_eq_none]
    exact Option.isSome_iff_ne_none.mp hlive
  rw [execPartyLaunch, if_neg hopen, hwaiting]
  simp only [hlaunch]
  exact (if_neg hroom).trans (if_neg hgone)

/-- The cluster without party `n` and what it held. -/
def Cluster.withoutParty (k : Cluster) (n : Nat) : Cluster :=
  { k with
    parties := Table.erase k.parties n
    ropes := k.ropes.filter fun e => e.2.party != n
    te := { k.te with
      accs := k.te.accs.filter fun e => e.2.party != n
      handles := k.te.handles.filter fun e => e.1 / 16 != n } }

/-- The rope slots of party `n`. -/
def Cluster.slotsOf (k : Cluster) (n : Nat) : List Nat := (k.ropes.filter fun e => e.2.party == n).map Prod.fst

theorem execPartyEnd_of_ended {n : Nat} {p : Party} (hparty : Table.find (s.cluster c).parties n = some p)
    (hropes : ∀ e ∈ (s.cluster c).ropes, e.2.party = n → e.2.ended = true)
    (htokens : ∀ t, t < 16 → (p.token t).outstanding = 0)
    (htrace : s.mayTraceRopes c ((s.cluster c).slotsOf n) p.par.ctx kPartyEnd = true) :
    execPartyEnd c n s = .next (((s.traceRopes c ((s.cluster c).slotsOf n) p.par.ctx kPartyEnd p.index 0).setCluster c
      ((s.cluster c).withoutParty n)).partyGone c p.launch) := by
  have hopen : ¬ ((!s.ready || s.clusterHalted c) = true) := by simp [hready, hhalt]
  have hended : ((s.cluster c).ropes.any fun e => e.2.party == n && !e.2.ended) = false := by
    simp only [List.any_eq_false, Bool.and_eq_true, beq_iff_eq, Bool.not_eq_true', not_and, Bool.not_eq_false]
    exact hropes
  have hidle : p.idle = true := by
    simp only [Party.idle, List.all_eq_true, List.mem_range, beq_iff_eq]
    exact htokens
  have hdone : ¬ (((s.cluster c).ropes.any (fun e => e.2.party == n && !e.2.ended) || !p.idle ||
      !s.mayTraceRopes c ((s.cluster c).slotsOf n) p.par.ctx kPartyEnd) = true) := by
    simp [hended, hidle, htrace]
  rw [execPartyEnd, if_neg hopen]
  simp only [hparty]
  exact if_neg hdone

end

/-- R186: the uniform registers of a rope at launch. -/
theorem Rope.ureg_launched (party index c idx : Nat) (par : LaunchParams) (n : Nat) :
    (Rope.launched party index c idx par).ureg n =
      if n = 3 then BitVec.ofNat 64 c else if n = 2 then BitVec.ofNat 64 index
      else if n = 1 then BitVec.ofNat 64 idx else if n = 0 then par.arg else 0 := by
  simp only [Rope.ureg, Rope.launched, Table.get_set, Table.get_nil]

/-! ### A small package for the counterexamples -/

/-- A party with 4 KiB of local store and 16 vector registers for its rope. -/
def smallParty : Party := ⟨0, 0, ⟨0, 0, 0, 1, 0, 1, 1, 16, 0, 4, 0, 0⟩, [], [], .clear⟩

/-- A context that is not STRICT. -/
def smallCtx : Ctx := ⟨false, 0, 0, 0, 0, [], []⟩

/-- A rope of party 0 with all lanes active. -/
def smallRope : Rope := ⟨0, 0, 0x1000, BitVec.allOnes 32, 0, [], [], [], [], [], .none, none, 0, []⟩

/-- A package that runs, with party 0 of context 0 and these ropes on cluster 0. -/
def smallState (ropes : Table Rope) : State :=
  { State.reset.setRf .bootStatus .stage stReady with
    ctxs := [(0, smallCtx)]
    clusters := [(0, { Cluster.idle with parties := [(0, smallParty)], ropes := ropes })] }

/-- The rope in slot 0 of cluster 0 issues, its operand reads without error. -/
def slot0 : Issue := ⟨0, 0, .none⟩

/-- What an unguarded instruction of slot 0 finds where its rope is `r`. -/
def smallIssue (r : Rope) : IssueCtx := ⟨0, 0, r, smallParty, 0, smallCtx, r.active, false⟩

/-! ### What a stalled attempt has read (08 R252) -/

/-- What slot 0 holds in `issueLog` after an outcome. -/
def logAfter (o : Host.Outcome State Fault Refusal) : Option (List Nat) :=
  (after o).bind fun t => (Table.find (t.cluster 0).ropes 0).map Rope.issueLog

/-- A rope whose last attempt to issue has stalled after it read 7 of a descriptor. -/
def loggedRope : Rope := { smallRope with issueLog := [7] }

/-- A BRA on p0, which `loggedRope` has in no lane. -/
def untakenBranch : CFmt := ⟨0, 0, false, false, 0, 1⟩

/-- `loggedRope` diverged: lane 0 is active, lane 1 pending in the one entry. -/
def divergedRope : Rope := { loggedRope with active := 1, stack := [⟨0x2000, 3, 0x3000, 2⟩] }

/-- EXIT of every active lane. -/
def exitActive : CFmt := ⟨0, 0, false, true, 0, 0⟩

/-! ### A slot listed twice -/

/-- The rope of slot 0, with 1 in u0. -/
def offsetRope : Rope := { smallRope with u := [(0, 1)] }

/-- Slot 0 listed twice, against the canonical form of a table: the second rope, of a party that is not there, waits
for a translation fault. ISSUED counts in counter 0. -/
def twiceListed : State :=
  let s := smallState [(0, offsetRope), (0, { smallRope with party := 1, stall := some (0, 0) })]
  (((s.setRf .obsCtrCtl .enable 1).setRf (.clCtrSel 0 0) .en 1).setRf (.clCtrSel 0 0) .event 2).setRf (.clCtrSel 0 0)
    .ctx 63

/-- Counter 0 of cluster 0 after an outcome. -/
def issuedAfter (o : Host.Outcome State Fault Refusal) : Option Nat :=
  (after o).map fun t => t.rf (.clCtr 0 0) .value

/-- A word on the local store at u0 + `off`. -/
def atU0 (size : BitVec 3) (off : BitVec 20) : MFmt := ⟨false, false, 0, 0, 0, true, true, 0, size, 0, 0, off⟩

/-- The fault takes the first rope of slot 0 away; the second stalls, so the model counts no issue, and counting one
more shows. -/
theorem issuedAfter_fail_twiceListed (code : Nat) (hcode : code = Code.atomicAlign ∨ code = Code.tallyAlign ∨
    code = Code.lockOwner) :
    issuedAfter (.next ((twiceListed.fail (smallIssue offsetRope) code).countCl 0 2 0 1)) = some 1 := by
  rcases hcode with rfl | rfl | rfl <;> decide +kernel

/-! ### Two ranges over one line -/

/-- Lane 0 addresses 0, lane 1 addresses 65,544: the first two lock words of a line, under two ranges. -/
def sharedLineRope : Rope := { smallRope with active := 3, v := [(0, BitVec.ofNat 1024 (65544 * 2 ^ 32))] }

/-- Ranges of 64 KiB at 0 and at 65,536 map the same memory. The L1 holds line 0 under the first of them, dirty, with
the owner values of lanes 0 and 1 in its first two words; memory holds 0 there. -/
def sharedLineState : State :=
  let s := smallState [(0, sharedLineRope)]
  s.setCluster 0 { s.cluster 0 with
    rc := ⟨[(0, ⟨0, 0, 65536, 0, true, true, true, 0⟩), (1, ⟨0, 65536, 65536, 0, true, true, true, 1⟩)], 2⟩
    l1 := [⟨0, 0, 0, BitVec.ofNat 1024 (1 + 2 * 2 ^ 64), 0xFFFF, 0xFFFF, 0⟩] }

theorem pair_eq_of_snd {α β : Type} {p : α × β} {b : β} (h : p.2 = b) : p = (p.1, b) := by rw [← h]

/-- GUNLOCK at device scope of the words that v0 and v1 address. -/
def unlockDevice : MFmt := ⟨false, false, 0, 0, 0, false, false, 2, 3, 0, 0, 0⟩

/-- Context 0 has failed after an outcome. -/
def failedAfter (o : Host.Outcome State Fault Refusal) : Option Bool :=
  (after o).map fun t => t.rbit (.fltCtxState 0) .failed

end Sys2Proof.Machine

section

open Sys2Proof Sys2Proof.Machine

/-- Settles O10: each turn of the loop lowers `Rope.turns`, which a stack of 32 entries keeps below the loop's bound. -/
theorem joinBeforeIssue : Obligations.JoinBeforeIssue := by
  unfold Obligations.JoinBeforeIssue
  refine ⟨?found, ?turn⟩
  case found =>
    intro s i g k hk
    obtain ⟨r, hr, hrope⟩ := issuing_rope hk
    have hkept : r.settled → k.rope = r := fun hs => by rw [hrope, Rope.join_of_settled hs]
    refine ⟨r, hr, hrope, fun h => hkept (.inl h), fun e rest h hpc => hkept (.inr ⟨e, rest, h, hpc⟩), fun hlen => ?_⟩
    have hturns := r.turns_le
    rw [hrope]
    exact Rope.join_settled 70 r false (by omega)
  case turn =>
    intro n r b e rest hstack hpc
    refine ⟨fun h => Rope.join_of_pending hstack hpc ((exists_lane_iff _ _).mp h) n b, fun h => ?_⟩
    refine Rope.join_of_not_pending hstack hpc (Classical.not_not.mp fun hne => ?_) n b
    obtain ⟨l, hl, hpending, hexited⟩ := (exists_lane_iff _ _).mpr hne
    simp [h l hl hpending] at hexited

/-- Settles O29: each event by the lemma of its command, and a launched rope's registers by `Rope.ureg_launched`. The
model's choices here: one trace record for each rope slot of a party (log 95), the host's answer that a re-read carries
(log 33), and what counts as a spinning rope's turn (log 122). -/
theorem ropeAndPartyEvents : Obligations.RopeAndPartyEvents := by
  unfold Obligations.RopeAndPartyEvents
  intro s c hready hhalt
  refine ⟨?waiting, ?launch, ?ends, ?ropes⟩
  case waiting =>
    intro slot k hk
    exact ⟨execRopeLivelock_of_count hk, fun f rest host => execSpinwaitReread_of_spin hk host,
      fun f e => execGlockPass_of_glock hk⟩
  case launch =>
    intro l idx rest x hwaiting hlaunch hsplit hfits slots htrace s0 s1 hlive k1 n ropes
    exact execPartyLaunch_of_fits hready hhalt hwaiting hlaunch hsplit hfits rfl htrace rfl hlive
  case ends =>
    intro n p hparty hropes htokens slots htrace
    exact execPartyEnd_of_ended hready hhalt hparty hropes htokens htrace
  case ropes =>
    intro party index idx par n r
    have hureg := Rope.ureg_launched party index c idx par
    refine ⟨rfl, rfl, rfl, rfl, rfl, hureg 0, hureg 1, hureg 2, hureg 3, fun hn => ?_, rfl, rfl⟩
    rw [hureg, if_neg (by omega), if_neg (by omega), if_neg (by omega), if_neg (by omega)]

/-- Refutes O9: a BRA that no lane takes keeps the rope's `issueLog`, which the statement clears. The rope has stalled
at issue before, and the word that it then issues is a BRA (log 16). -/
theorem not_branchesAndCalls : ¬ Obligations.BranchesAndCalls := by
  unfold Obligations.BranchesAndCalls
  intro h
  obtain ⟨-, -, -, hbra⟩ := h (smallState [(0, loggedRope)]) slot0 untakenBranch (smallIssue loggedRope) ⟨rfl, rfl⟩ rfl
  obtain ⟨huntaken, -⟩ := hbra (by decide) (by decide)
  have hstated := huntaken fun l _ => by
    show (false || ((0#32).getLsbD l ^^ false)) = false
    simp
  have hkept : logAfter (exec (.bra slot0 untakenBranch) (smallState [(0, loggedRope)])) = some [7] := by decide +kernel
  rw [hstated] at hkept
  exact absurd hkept (by decide +kernel)

/-- Refutes O11: an EXIT of the last active lane, with lanes pending in the top entry, clears the rope's `issueLog`,
which the statement keeps. The rope has stalled at issue before, and the word that it then issues is an EXIT (log 16).
-/
theorem not_exitAndBarrier : ¬ Obligations.ExitAndBarrier := by
  unfold Obligations.ExitAndBarrier
  rintro ⟨h, -⟩
  obtain ⟨hexit, -⟩ := h (smallState [(0, divergedRope)]) slot0 exitActive (smallIssue divergedRope) ⟨rfl, rfl⟩
    rfl rfl rfl
  obtain ⟨-, hskip, -⟩ := hexit (fun _ => ⟨rfl, rfl⟩) 1 fun l => by
    show (1#32).getLsbD l = ((1#32).getLsbD l && true)
    simp
  obtain ⟨hpending, -⟩ := hskip (by decide) (by decide) _ _ rfl
  have hstated := hpending (by decide)
  have hcleared : logAfter (exec (.exit slot0 exitActive) (smallState [(0, divergedRope)])) = some [] := by
    decide +kernel
  rw [hstated] at hcleared
  exact absurd hcleared (by decide +kernel)

/-- Refutes O15 at its last clause, which counts the issue of a misaligned ATOM (log 136): the statement does not ask
that a cluster lists each slot once. Where slot 0 is listed twice, the rope that the fault leaves there is stalled,
and the model does not count the attempt of a rope that stalls. -/
theorem not_atomicsLocal : ¬ Obligations.AtomicsLocal := by
  unfold Obligations.AtomicsLocal
  intro h
  obtain ⟨-, -, hfault⟩ := h twiceListed slot0 (atU0 2 0) (smallIssue offsetRope) ⟨rfl, rfl⟩ rfl (.inl rfl)
    (by unfold operandsFit inReach; decide) (fun hcas => absurd hcas (by decide))
  have hstated := (hfault ⟨0, by decide, by decide⟩).1 ⟨by decide, .inl rfl⟩
  have huncounted : issuedAfter (exec (.atom slot0 (atU0 2 0)) twiceListed) = some 0 := by decide +kernel
  rw [hstated] at huncounted
  exact absurd ((issuedAfter_fail_twiceListed _ (.inl rfl)).symm.trans huncounted) (by decide)

/-- Refutes O16 at its clause for a misaligned cell, which counts the issue of the TALLY.ADD (log 136): the statement
does not ask that a cluster lists each slot once. Where slot 0 is listed twice, the rope that the fault leaves there
is stalled, and the model does not count the attempt of a rope that stalls. -/
theorem not_tallyCells : ¬ Obligations.TallyCells := by
  unfold Obligations.TallyCells
  rintro ⟨-, h⟩
  obtain ⟨hcells, -⟩ := h twiceListed slot0 (atU0 2 0) (smallIssue offsetRope) ⟨rfl, rfl⟩
  obtain ⟨-, -, -, hfault⟩ := hcells rfl (by unfold operandsFit inReach; decide) (by decide)
  have hmisaligned : ¬ ∀ l ∈ lanes (smallIssue offsetRope).e, offsetRope.addrOf (atU0 2 0) 0 0 l % 32 = 0 := by decide
  have hstated := (hfault hmisaligned).1 (by decide)
  have huncounted : issuedAfter (exec (.tallyAdd slot0 (atU0 2 0)) twiceListed) = some 0 := by decide +kernel
  rw [hstated] at huncounted
  exact absurd ((issuedAfter_fail_twiceListed _ (.inr (.inl rfl))).symm.trans huncounted) (by decide)

/-- Refutes O17 at its clause for a lock that the lane does not hold, which counts the issue of the GUNLOCK (logs 37
and 136): the statement does not ask that a cluster lists each slot once. Where slot 0 is listed twice, the rope that
the fault leaves there is stalled, and the model does not count the attempt of a rope that stalls. -/
theorem not_spinAndLocksLocal : ¬ Obligations.SpinAndLocksLocal := by
  unfold Obligations.SpinAndLocksLocal
  intro h
  obtain ⟨-, hlocks⟩ := h twiceListed slot0 (atU0 3 7) (smallIssue offsetRope) ⟨rfl, rfl⟩ rfl (by decide) (by decide)
  obtain ⟨-, hunlock⟩ := hlocks rfl rfl rfl (by decide) (by unfold inReach; decide)
  obtain ⟨-, hheld⟩ := hunlock _ rfl
  obtain ⟨-, hfault⟩ := hheld (by decide) (by decide) (by decide)
  have hstated := hfault ⟨0, by decide, by decide⟩
  have huncounted : issuedAfter (exec (.gunlock slot0 (atU0 3 7)) twiceListed) = some 0 := by decide +kernel
  rw [hstated] at huncounted
  exact absurd ((issuedAfter_fail_twiceListed _ (.inr (.inr rfl))).symm.trans huncounted) (by decide)

/-- Refutes O18 at GUNLOCK: the model tests each lane's lock by a read of that lane alone (R172, log 37), and lane 1's
word lies in a line that only lane 0's read writes back from the L1. Read together, both lanes hold their locks; read
alone, lane 1 does not, and LOCK_OWNER fails the context. -/
theorem not_deviceAccesses : ¬ Obligations.DeviceAccesses := by
  unfold Obligations.DeviceAccesses
  intro h
  obtain ⟨-, -, -, -, hlocks⟩ := h sharedLineState slot0 unlockDevice (smallIssue sharedLineRope) ⟨rfl, rfl⟩ rfl
    (by decide)
  obtain ⟨-, hunlock⟩ := hlocks rfl rfl rfl (by decide) (by unfold inReach; decide)
  have hstated := hunlock (by decide +kernel) _ [(0, .mem 0), (512, .mem 0)] [(0, 1), (1, 2)]
    (pair_eq_of_snd (by decide +kernel)) (by decide)
  have hfails : failedAfter (exec (.gunlock slot0 unlockDevice) sharedLineState) = some true := by decide +kernel
  rw [hstated] at hfails
  exact absurd hfails (by decide +kernel)

end

/-! PROOF. A bell that nobody waits on (07 R241, R244, R247): waking it finds nothing, and an addition counts one event
of package counters beside the bell's own value. -/

namespace Sys2Proof.Machine

/-! ### Registers that a package event leaves alone (20 R571) -/

section

variable {g : Reg}

/-- Counting on a counter leaves a register apart from it, its overflow bits and OBS_EVENT. -/
theorem State.reg_bump_of_ne (s : State) {ctr ovf : Reg} (b n : Nat) (hctr : g.addr ≠ ctr.addr)
    (hovf : g.addr ≠ ovf.addr) (hev : g.addr ≠ Reg.obsEvent.addr) : (s.bump ctr ovf b n).reg g = s.reg g := by
  have hcount : ∀ v, (s.setRf ctr .value v).reg g = s.reg g := fun v => s.reg_setReg_ne _ _ _ hctr
  unfold State.bump
  dsimp only
  split
  · rw [State.setRf, State.reg_setReg_ne _ _ _ _ hev, State.setBit, State.reg_setReg_ne _ _ _ _ hovf, hcount]
  · exact hcount _

/-- A register apart from the package counters, their overflow bits and OBS_EVENT. -/
def Reg.uncounted (g : Reg) : Prop :=
  (∀ n, n < 256 → g.addr ≠ (Reg.obsPctr n).addr) ∧ (∀ n, n < 4 → g.addr ≠ (Reg.obsPctrOvf n).addr) ∧
    g.addr ≠ Reg.obsEvent.addr

theorem State.reg_countPkg_of_uncounted (s : State) (ev inst ctx n : Nat) (h : g.uncounted) :
    (s.countPkg ev inst ctx n).reg g = s.reg g := by
  obtain ⟨hctr, hovf, hev⟩ := h
  unfold State.countPkg
  split
  · rfl
  · refine List.foldlRecOn (motive := fun t : State => t.reg g = s.reg g) _ _ rfl fun t ht k hk => ?_
    have hk : k < 256 := List.mem_range.mp hk
    split
    · rw [State.reg_bump_of_ne t _ _ (hctr k hk) (hovf (k / 64) (by omega)) hev, ht]
    · exact ht

end

/-! ### The registers of the bells (07 Tables 7.6 and 7.8) -/

@[simp] theorem Reg.addr_bellVal (b : Nat) : (Reg.bellVal b).addr = 0x400000 + 8 * b := rfl
@[simp] theorem Reg.addr_bellOwner (b : Nat) : (Reg.bellOwner b).addr = 0x440000 + 8 * b := rfl

/-- The registers below the observation unit's block count nothing. -/
theorem Reg.uncounted_of_lt {g : Reg} (h : g.addr < 0x600000) : g.uncounted := by
  have hctr : ∀ n, (Reg.obsPctr n).addr = 0x601008 + 0x10 * n := fun _ => rfl
  have hovf : ∀ n, (Reg.obsPctrOvf n).addr = 0x600040 + 8 * n := fun _ => rfl
  have hev : Reg.obsEvent.addr = 0x600020 := rfl
  refine ⟨fun n _ => ?_, fun n _ => ?_, ?_⟩
  · rw [hctr]; omega
  · rw [hovf]; omega
  · rw [hev]; omega

theorem Reg.uncounted_bellVal {b : Nat} (h : b < 16384) : (Reg.bellVal b).uncounted :=
  Reg.uncounted_of_lt (by rw [Reg.addr_bellVal]; omega)

theorem Reg.uncounted_bellOwner {b : Nat} (h : b < 16384) : (Reg.bellOwner b).uncounted :=
  Reg.uncounted_of_lt (by rw [Reg.addr_bellOwner]; omega)

/-! ### A bell that nobody waits on -/

theorem foldl_eq_of_fixed {α β : Type} {f : β → α → β} {l : List α} {b : β} (h : ∀ a ∈ l, f b a = b) :
    l.foldl f b = b :=
  List.foldlRecOn (motive := fun c => c = b) l f rfl fun _ hc a ha => hc ▸ h a ha

theorem State.ropesThat_eq_nil {s : State} {p : Rope → Bool} (h : ∀ c ∈ s.clusters, ∀ r ∈ c.2.ropes, p r.2 = false) :
    s.ropesThat p = [] := by
  refine List.foldrRecOn (motive := fun l => l = []) _ _ rfl fun l hl c hc => ?_
  have hnone : c.2.ropesThat p = [] := List.filter_eq_nil_iff.mpr fun r hr => by simp [h c hc r hr]
  rw [hl, hnone]
  rfl

section

variable {s : State} {b : Nat} (h : s.unawaited b)
include h

/-- Registers do not say who waits. -/
theorem State.unawaited_of_regs_only {t : State} (ht : ∃ r, t = { s with regs := r }) : t.unawaited b := by
  obtain ⟨r, rfl⟩ := ht
  exact h

/-- A test that selects only ropes waiting on the bell selects none. -/
theorem State.ropesThat_of_unawaited {p : Rope → Bool}
    (hp : ∀ r, p r = true → ∃ t sc, r.wait = .bell b t sc) : s.ropesThat p = [] := by
  obtain ⟨hropes, -⟩ := h
  refine State.ropesThat_eq_nil fun c hc r hr => Bool.eq_false_iff.mpr fun htrue => ?_
  obtain ⟨t, sc, hwait⟩ := hp r.2 htrue
  exact hropes c hc r hr t sc hwait

/-- Waking a bell that nobody waits on changes nothing (R244). -/
theorem State.bellWake_of_unawaited : s.bellWake b = s := by
  unfold State.bellWake
  dsimp only
  rw [State.ropesThat_of_unawaited h, List.foldl_nil]
  · obtain ⟨-, hcmds⟩ := h
    refine foldl_eq_of_fixed fun q hq => foldl_eq_of_fixed fun c hc => ?_
    split
    next hwait => rw [if_neg fun ⟨hbell, _⟩ => hcmds q hq c hc hwait hbell]
    next => rfl
  · intro r hr
    split at hr
    next x t sc hwait =>
      have hbell : x = b := by simp at hr; exact hr.1
      exact ⟨t, sc, hbell ▸ hwait⟩
    next => exact absurd hr (by decide)

/-- An owner write of a bell that nobody waits on takes the word, zeroes the bell and is counted (R247). -/
theorem State.bellOwnerWrite_of_unawaited (v : Word) :
    s.bellOwnerWrite b v = ((s.setReg (.bellOwner b) (v &&& 0x33F)).setReg (.bellVal b) 0).countPkg 12 0 63 1 := by
  have hset : (((s.setReg (.bellOwner b) (v &&& 0x33F)).setReg (.bellVal b) 0).countPkg 12 0 63 1).unawaited b :=
    State.unawaited_of_regs_only (s := (s.setReg (.bellOwner b) (v &&& 0x33F)).setReg (.bellVal b) 0) h
      (State.countPkg_regs_only _ _ _ _ _)
  unfold State.bellOwnerWrite
  dsimp only
  rw [State.ropesThat_of_unawaited hset, List.foldl_nil]
  · obtain ⟨-, hcmds⟩ := hset
    refine foldl_eq_of_fixed fun q hq => foldl_eq_of_fixed fun c hc => ?_
    split
    next hwait => rw [if_neg (hcmds q hq c hc hwait)]
    next => rfl
  · intro r hr
    split at hr
    next x t sc hwait => exact ⟨t, sc, beq_iff_eq.mp hr ▸ hwait⟩
    next => exact absurd hr (by decide)

/-- An addition to a bell that nobody waits on sets its value and is counted (R241). -/
theorem State.bellAdd_of_unawaited (inc : Word) (ctx : Nat) :
    s.bellAdd b inc ctx = (s.setReg (.bellVal b) (s.bell b + inc)).countPkg 12 0 ctx 1 :=
  State.bellWake_of_unawaited (State.unawaited_of_regs_only (s := s.setReg (.bellVal b) (s.bell b + inc)) h
    (State.countPkg_regs_only _ _ _ _ _))

end

end Sys2Proof.Machine

section

open Sys2Proof Sys2Proof.Machine

/-- Settles O38: the register commands by their definition, the addition by `bellAdd_of_unawaited`, which leaves one
register write and one counted event. -/
theorem bellRegisters : Obligations.BellRegisters := by
  unfold Obligations.BellRegisters
  refine ⟨?commands, ?addition⟩
  case commands =>
    intro s m b v hready hb hm
    have hopen : ¬ (!s.ready || !Block.bell.reached m || decide (16384 ≤ b)) = true := by
      have hreached : Block.bell.reached m = true := by
        cases m with
        | reeve => exact absurd rfl hm
        | host | core => rfl
      simp [hready, hreached, hb]
    have hsignal : exec (.registerSignal m b v) s = .next (s.bellHostSignal m b v) := by
      rw [exec_registerSignal, execRegisterSignal, if_neg hopen]
    have howner : exec (.ownerWrite m b v) s = .next (s.bellOwnerWrite b v) := by
      rw [exec_ownerWrite, execOwnerWrite, if_neg hopen]
    refine ⟨fun hadmit => ?_, fun hhost hrefuse => ?_, fun hnone => ?_⟩
    · have hin : ¬ (m = .host ∧ (!s.rbit (.bellOwner b) .host) = true) := by
        rintro ⟨rfl, hclosed⟩
        rcases hadmit with hne | hbit
        · exact hne rfl
        · simp [hbit] at hclosed
      rw [hsignal, State.bellHostSignal, if_neg hin, State.bellAdd]
    · rw [hsignal, State.bellHostSignal, if_pos ⟨hhost, by rw [hrefuse]; rfl⟩, State.lastBell]
    · rw [howner, State.bellOwnerWrite_of_unawaited hnone]
  case addition =>
    intro s b inc ctx hb hnone
    have hkept : ∀ g : Reg, g.addr ≠ (Reg.bellVal b).addr → g.uncounted → (s.bellAdd b inc ctx).reg g = s.reg g :=
      fun g hg hu => by
        rw [State.bellAdd_of_unawaited hnone, State.reg_countPkg_of_uncounted _ _ _ _ _ hu,
          State.reg_setReg_ne _ _ _ _ hg]
    refine ⟨?_, fun j hj hne => ?_, fun j hj => ?_, ?_, fun g hg hctr hovf hev => hkept g hg ⟨hctr, hovf, hev⟩⟩
    · rw [State.bell, State.bellAdd_of_unawaited hnone,
        State.reg_countPkg_of_uncounted _ _ _ _ _ (Reg.uncounted_bellVal hb), State.reg_setReg_self]
    · exact hkept _ (by simp only [Reg.addr_bellVal]; omega) (Reg.uncounted_bellVal hj)
    · exact hkept _ (by simp only [Reg.addr_bellVal, Reg.addr_bellOwner]; omega) (Reg.uncounted_bellOwner hj)
    · rw [State.bellAdd_of_unawaited hnone]
      obtain ⟨r, hr⟩ := State.countPkg_regs_only (s.setReg (.bellVal b) (s.bell b + inc)) 12 0 ctx 1
      rw [hr]
      rfl

end

/-! PROOF. The write at the home of a line (10 Table 10.6, 07 R235, 11 R363, R365): the bytes and poison that it leaves
in memory, what it leaves of the fabric, and so the coherent value of every line. -/

namespace Sys2Proof.Machine

/-! ### Numbers made of equal blocks -/

/-- The sum of a block of `w` ones at each of the first `n` places that `p` selects. -/
def blocks (w : Nat) (p : Nat → Bool) (n : Nat) : Nat :=
  (List.range n).foldl (fun a i => if p i then a + (2 ^ w - 1) <<< (w * i) else a) 0

theorem blocks_succ (w : Nat) (p : Nat → Bool) (n : Nat) :
    blocks w p (n + 1) = if p n then 2 ^ (w * n) * (2 ^ w - 1) + blocks w p n else blocks w p n := by
  rw [blocks, List.range_succ, List.foldl_append, List.foldl_cons, List.foldl_nil, ← blocks, Nat.shiftLeft_eq,
    Nat.mul_comm (2 ^ w - 1), Nat.add_comm]

theorem blocks_lt (w : Nat) (p : Nat → Bool) (n : Nat) : blocks w p n < 2 ^ (w * n) := by
  induction n with
  | zero => simp [blocks]
  | succ n ih =>
    have hgrow : 2 ^ (w * n) ≤ 2 ^ (w * n) * 2 ^ w := Nat.le_mul_of_pos_right _ (Nat.two_pow_pos w)
    rw [blocks_succ, Nat.mul_succ, Nat.pow_add]
    split
    · rw [Nat.mul_sub, Nat.mul_one]
      omega
    · omega

/-- The bits of the blocks tell which places are selected. -/
theorem testBit_blocks {w : Nat} (hw : 0 < w) (p : Nat → Bool) (n j : Nat) :
    (blocks w p n).testBit j = (decide (j < w * n) && p (j / w)) := by
  induction n with
  | zero => simp [blocks]
  | succ n ih =>
    have hsucc : w * (n + 1) = w * n + w := Nat.mul_succ w n
    have htop : w * n ≤ j → j < w * (n + 1) → j / w = n := fun hle hlt =>
      Nat.div_eq_of_lt_le (by rwa [Nat.mul_comm]) (by rwa [Nat.mul_comm])
    rw [blocks_succ]
    split
    next hp =>
      rw [Nat.testBit_two_pow_mul_add _ (blocks_lt w p n), Nat.testBit_two_pow_sub_one, ih]
      by_cases hlow : j < w * n
      · simp [hlow, show j < w * (n + 1) by omega]
      · by_cases hin : j < w * (n + 1)
        · simp [hlow, hin, htop (by omega) hin, hp, show j - w * n < w by omega]
        · simp [hlow, hin, show ¬ j - w * n < w by omega]
    next hp =>
      rw [ih]
      by_cases hlow : j < w * n
      · simp [hlow, show j < w * (n + 1) by omega]
      · by_cases hin : j < w * (n + 1)
        · simp [hlow, htop (by omega) hin, hp]
        · simp [hlow, hin]

/-! ### Bytes of a line -/

theorem testBit_wideMask (mask : BitVec 128) (j : Nat) :
    (wideMask mask).testBit j = (decide (j < 8 * 128) && mask.getLsbD (j / 8)) :=
  testBit_blocks (w := 8) (by omega) mask.getLsbD 128 j

theorem getLsbD_mergeLine (old new : Line) (mask : BitVec 128) {j : Nat} (hj : j < 1024) :
    (mergeLine old new mask).getLsbD j = if mask.getLsbD (j / 8) then new.getLsbD j else old.getLsbD j := by
  have hmask : (BitVec.ofNat 1024 (wideMask mask)).getLsbD j = mask.getLsbD (j / 8) := by
    rw [BitVec.getLsbD_ofNat, testBit_wideMask]
    simp [hj]
  unfold mergeLine
  simp only [BitVec.getLsbD_or, BitVec.getLsbD_and, BitVec.getLsbD_not, hmask, hj, decide_true, Bool.true_and]
  cases mask.getLsbD (j / 8) <;> simp

@[simp] theorem mergeLine_allOnes (old new : Line) : mergeLine old new (BitVec.allOnes 128) = new := by
  refine BitVec.eq_of_getLsbD_eq fun j hj => ?_
  rw [getLsbD_mergeLine old new _ hj, if_pos]
  simp only [BitVec.getLsbD_allOnes, decide_eq_true_eq]
  omega

/-- The bits of a byte of a line. -/
theorem getLsbD_lineNat (d : Line) (i : Nat) {r : Nat} (hr : r < 8) :
    (BitVec.ofNat 8 (lineNat d i 1)).getLsbD r = d.getLsbD (8 * i + r) := by
  rw [BitVec.getLsbD_ofNat, lineNat, testBit_bits]
  simp [hr, BitVec.getLsbD]

/-! ### The bytes of memory (11 R363) -/

/-- The sum by which `Mem.line` collects the bytes of a line. -/
def lineSum (base : Nat) (t : List Host.Cell) : Nat :=
  t.foldl (fun a c => if base ≤ c.1 ∧ c.1 < base + 128 then a + c.2.toNat <<< (8 * (c.1 - base)) else a) 0

theorem Mem.line_eq_lineSum (m : Mem) (l : Nat) : m.line l = BitVec.ofNat 1024 (lineSum (128 * l) m.bytes) := rfl

theorem lineSum_cons (base : Nat) (c : Host.Cell) (t : List Host.Cell) :
    lineSum base (c :: t) =
      lineSum base t + if base ≤ c.1 ∧ c.1 < base + 128 then c.2.toNat <<< (8 * (c.1 - base)) else 0 := by
  have hacc : ∀ (t : List Host.Cell) (x : Nat),
      t.foldl (fun a c => if base ≤ c.1 ∧ c.1 < base + 128 then a + c.2.toNat <<< (8 * (c.1 - base)) else a) x =
        lineSum base t + x := by
    intro t
    induction t with
    | nil => intro x; simp [lineSum]
    | cons e t ih =>
      intro x
      rw [lineSum, List.foldl_cons, List.foldl_cons, ih, ih]
      split <;> omega
  rw [lineSum, List.foldl_cons, hacc]
  split <;> simp

/-- A key below every listed one reads as the default. -/
theorem Table.get_of_lt_wfFrom {α : Type} [DecidableEq α] {d : α} {t : Table α} {lo k : Nat}
    (h : Table.wfFrom (fun _ => d) lo t = true) (hk : k < lo) : Table.get d t k = d := by
  induction t generalizing lo with
  | nil => rfl
  | cons e t ih =>
    simp only [Table.wfFrom, Bool.and_eq_true, decide_eq_true_eq] at h
    obtain ⟨⟨hlo, -⟩, htail⟩ := h
    rw [Table.get, if_neg (by omega), ih htail (by omega)]

/-- Bytes at addresses from `lo` on leave the bits below them clear. -/
theorem two_pow_dvd_lineSum {base : Nat} {t : List Host.Cell} {lo : Nat}
    (h : Table.wfFrom (fun _ => (0 : Byte)) lo t = true) : 2 ^ (8 * (lo - base)) ∣ lineSum base t := by
  induction t generalizing lo with
  | nil => exact Nat.dvd_zero _
  | cons e t ih =>
    simp only [Table.wfFrom, Bool.and_eq_true, decide_eq_true_eq] at h
    obtain ⟨⟨hlo, -⟩, htail⟩ := h
    rw [lineSum_cons]
    refine Nat.dvd_add (Nat.dvd_trans (Nat.pow_dvd_pow 2 (by omega)) (ih htail)) ?_
    split
    · rw [Nat.shiftLeft_eq]
      exact Nat.dvd_trans (Nat.pow_dvd_pow 2 (by omega)) (Nat.dvd_mul_left _ _)
    · exact Nat.dvd_zero _

/-- The collected bytes, bit by bit: in canonical form no two of them overlap. -/
theorem testBit_lineSum {base : Nat} {t : List Host.Cell} {lo : Nat}
    (h : Table.wfFrom (fun _ => (0 : Byte)) lo t = true) {j : Nat} (hj : j < 1024) :
    (lineSum base t).testBit j = (Table.get (0 : Byte) t (base + j / 8)).getLsbD (j % 8) := by
  induction t generalizing lo with
  | nil => simp [lineSum]
  | cons e t ih =>
    obtain ⟨a, v⟩ := e
    simp only [Table.wfFrom, Bool.and_eq_true, decide_eq_true_eq] at h
    obtain ⟨-, htail⟩ := h
    rw [lineSum_cons, Table.get]
    by_cases hin : base ≤ a ∧ a < base + 128
    · obtain ⟨w, hw⟩ : 2 ^ (8 * (a - base) + 8) ∣ lineSum base t := by
        have hdvd := two_pow_dvd_lineSum (base := base) htail
        rwa [show 8 * (a + 1 - base) = 8 * (a - base) + 8 by omega] at hdvd
      have hbyte : v.toNat <<< (8 * (a - base)) < 2 ^ (8 * (a - base) + 8) := by
        rw [Nat.shiftLeft_eq, Nat.pow_add, Nat.mul_comm]
        exact Nat.mul_lt_mul_of_pos_left v.isLt (Nat.two_pow_pos _)
      have htop := ih htail
      rw [hw, ← Nat.zero_add (2 ^ _ * w), Nat.add_comm 0,
        Nat.testBit_two_pow_mul_add _ (Nat.two_pow_pos _)] at htop
      rw [if_pos hin, hw, Nat.testBit_two_pow_mul_add _ hbyte, Nat.testBit_shiftLeft]
      by_cases hhere : base + j / 8 = a
      · rw [if_pos (by omega), if_pos hhere, BitVec.getLsbD]
        have hle : 8 * (a - base) ≤ j := by omega
        have hrest : j - 8 * (a - base) = j % 8 := by omega
        simp [hle, hrest]
      · rw [if_neg hhere]
        by_cases hlow : j < 8 * (a - base)
        · rw [if_pos (by omega), Table.get_of_lt_wfFrom htail (by omega)]
          have hnot : ¬ 8 * (a - base) ≤ j := by omega
          simp [hnot]
        · rw [if_neg (by omega), ← htop, if_neg (by omega)]
    · rw [if_neg hin, Nat.add_zero, if_neg (by omega), ih htail]

/-- A bit of a line of canonical memory is that of its byte. -/
theorem Mem.getLsbD_line {m : Mem} (h : m.wf = true) (l : Nat) {j : Nat} (hj : j < 1024) :
    (m.line l).getLsbD j = (m.read (128 * l + j / 8)).getLsbD (j % 8) := by
  rw [Mem.line_eq_lineSum, BitVec.getLsbD_ofNat, testBit_lineSum h hj, Mem.read]
  simp [hj]

/-- A masked write of a line merges its bytes into the line. -/
theorem Mem.line_writeBytes {m : Mem} (h : m.wf = true) (l : Nat) (d : Line) (mask : BitVec 128) :
    (m.writeBytes l d mask).line l = mergeLine (m.line l) d mask := by
  refine BitVec.eq_of_getLsbD_eq fun j hj => ?_
  rw [Mem.getLsbD_line (Mem.writeBytes_wf l d mask h) l hj, Mem.read_writeBytes, getLsbD_mergeLine _ _ _ hj,
    Nat.add_sub_cancel_left]
  by_cases hm : mask.getLsbD (j / 8) = true
  · rw [if_pos ⟨by omega, by omega, hm⟩, if_pos hm, getLsbD_lineNat d _ (Nat.mod_lt _ (by omega)), Nat.div_add_mod]
  · rw [if_neg fun ⟨_, _, hset⟩ => hm hset, if_neg hm, Mem.getLsbD_line h l hj]

/-- It leaves every other line. -/
theorem Mem.line_writeBytes_of_ne {m : Mem} (h : m.wf = true) {l other : Nat} (hne : other ≠ l) (d : Line)
    (mask : BitVec 128) : (m.writeBytes l d mask).line other = m.line other := by
  refine BitVec.eq_of_getLsbD_eq fun j hj => ?_
  rw [Mem.getLsbD_line (Mem.writeBytes_wf l d mask h) other hj, Mem.read_writeBytes, if_neg (by omega),
    Mem.getLsbD_line h other hj]

@[simp] theorem Mem.line_setPoison (m : Mem) (l : Nat) (which value : BitVec 4) (k : Nat) :
    (m.setPoison l which value).line k = m.line k := rfl

/-! ### The poison of memory (11 R365) -/

theorem mem_setInsert {t : List Nat} {k x : Nat} : x ∈ setInsert t k ↔ x = k ∨ x ∈ t := by
  induction t with
  | nil => simp [setInsert]
  | cons j t ih =>
    rw [setInsert]
    split
    next h => simp [h]
    next =>
      split
      · rw [List.mem_cons]
      · rw [List.mem_cons, ih, List.mem_cons, or_left_comm]

theorem mem_setErase {t : List Nat} {k x : Nat} : x ∈ setErase t k ↔ x ∈ t ∧ x ≠ k := by simp [setErase]

theorem Mem.getLsbD_linePoison (m : Mem) (l : Nat) {k : Nat} (hk : k < 4) :
    (m.linePoison l).getLsbD k = decide (4 * l + k ∈ m.poison) := by
  have hflags : m.linePoison l = BitVec.ofNat 4 (blocks 1 (fun k => m.poison.contains (4 * l + k)) 4) := by
    simp [Mem.linePoison, blocks, Nat.one_shiftLeft]
  rw [hflags, BitVec.getLsbD_ofNat, testBit_blocks (by omega)]
  simp [hk]

/-- The list that `Mem.setPoison` leaves after the first `n` sectors of a line. -/
def poisonSet (p : List Nat) (l : Nat) (which value : BitVec 4) (n : Nat) : List Nat :=
  (List.range n).foldl (fun p k =>
    if which.getLsbD k then (if value.getLsbD k then setInsert p (4 * l + k) else setErase p (4 * l + k)) else p) p

theorem poisonSet_succ (p : List Nat) (l : Nat) (which value : BitVec 4) (n : Nat) :
    poisonSet p l which value (n + 1) =
      if which.getLsbD n then (if value.getLsbD n then setInsert (poisonSet p l which value n) (4 * l + n)
        else setErase (poisonSet p l which value n) (4 * l + n)) else poisonSet p l which value n := by
  rw [poisonSet, List.range_succ, List.foldl_append, List.foldl_cons, List.foldl_nil, poisonSet]

/-- A sector apart from those set so far keeps its mark. -/
theorem mem_poisonSet_of_apart {p : List Nat} {l : Nat} {which value : BitVec 4} {n x : Nat}
    (h : ∀ k, k < n → which.getLsbD k = true → x ≠ 4 * l + k) : x ∈ poisonSet p l which value n ↔ x ∈ p := by
  induction n with
  | zero => rfl
  | succ n ih =>
    have hbefore := ih fun k hk => h k (by omega)
    rw [poisonSet_succ]
    split
    next hset =>
      have hne := h n (by omega) hset
      split
      · rw [mem_setInsert, hbefore, or_iff_right hne]
      · rw [mem_setErase, hbefore, and_iff_left hne]
    next => exact hbefore

/-- A sector that is set takes its new mark. -/
theorem mem_poisonSet_of_set {p : List Nat} {l : Nat} {which value : BitVec 4} {n k : Nat} (hk : k < n)
    (hset : which.getLsbD k = true) : 4 * l + k ∈ poisonSet p l which value n ↔ value.getLsbD k = true := by
  induction n with
  | zero => exact absurd hk (Nat.not_lt_zero k)
  | succ n ih =>
    rw [poisonSet_succ]
    by_cases heq : k = n
    · subst heq
      rw [if_pos hset]
      split
      next hv => simp [mem_setInsert, hv]
      next hv => simp [mem_setErase, hv]
    · have hbefore := ih (by omega)
      have hne : 4 * l + k ≠ 4 * l + n := by omega
      split
      · split
        · rw [mem_setInsert, hbefore, or_iff_right hne]
        · rw [mem_setErase, hbefore, and_iff_left hne]
      · exact hbefore

theorem Mem.linePoison_setPoison (m : Mem) (l : Nat) (which value : BitVec 4) :
    (m.setPoison l which value).linePoison l = (m.linePoison l &&& ~~~which) ||| (value &&& which) := by
  refine BitVec.eq_of_getLsbD_eq fun k hk => ?_
  simp only [BitVec.getLsbD_or, BitVec.getLsbD_and, BitVec.getLsbD_not, Mem.getLsbD_linePoison _ _ hk, hk]
  by_cases hset : which.getLsbD k = true
  · have hmem : 4 * l + k ∈ (m.setPoison l which value).poison ↔ value.getLsbD k = true := mem_poisonSet_of_set hk hset
    simp [hmem, hset]
  · have hmem : 4 * l + k ∈ (m.setPoison l which value).poison ↔ 4 * l + k ∈ m.poison :=
      mem_poisonSet_of_apart fun i _ hi hx => hset (by rwa [show k = i by omega])
    simp [hmem, hset]

theorem Mem.linePoison_setPoison_of_ne (m : Mem) {l other : Nat} (hne : other ≠ l) (which value : BitVec 4) :
    (m.setPoison l which value).linePoison other = m.linePoison other := by
  refine BitVec.eq_of_getLsbD_eq fun k hk => ?_
  have hmem : 4 * other + k ∈ (m.setPoison l which value).poison ↔ 4 * other + k ∈ m.poison :=
    mem_poisonSet_of_apart fun i hi _ => by omega
  rw [Mem.getLsbD_linePoison _ _ hk, Mem.getLsbD_linePoison _ _ hk, decide_eq_decide.mpr hmem]

@[simp] theorem Mem.writeBytes_poison (m : Mem) (l : Nat) (d : Line) (mask : BitVec 128) :
    (m.writeBytes l d mask).poison = m.poison := by
  refine foldl_keeps (P := fun t : Mem => t.poison = m.poison) (fun t i ht => ?_) _ m rfl
  split
  · exact ht
  · exact ht

@[simp] theorem Mem.linePoison_writeBytes (m : Mem) (l : Nat) (d : Line) (mask : BitVec 128) (k : Nat) :
    (m.writeBytes l d mask).linePoison k = m.linePoison k := by simp [Mem.linePoison]

/-! ### The value of a line in memory -/

/-- What memory holds of a line: its bytes and its poison bits. -/
def Mem.lineValue (m : Mem) (l : Nat) : Line × BitVec 4 := (m.line l, m.linePoison l)

/-- A masked write replaces the masked bytes and clears the poison of the sectors that it covers whole. -/
theorem Mem.lineValue_writeLine {m : Mem} (h : m.wf = true) (l : Nat) (d : Line) (mask : BitVec 128) :
    (m.writeLine l d mask).lineValue l =
      (mergeLine (m.lineValue l).1 d mask, (m.lineValue l).2 &&& ~~~wholeSectors mask) := by
  simp [Mem.lineValue, Mem.writeLine, Mem.line_writeBytes h, Mem.linePoison_setPoison]

theorem Mem.lineValue_writeLine_of_ne {m : Mem} (h : m.wf = true) {l other : Nat} (hne : other ≠ l) (d : Line)
    (mask : BitVec 128) : (m.writeLine l d mask).lineValue other = m.lineValue other := by
  simp [Mem.lineValue, Mem.writeLine, Mem.line_writeBytes_of_ne h hne, Mem.linePoison_setPoison_of_ne _ hne]

/-- The memory-side copy takes a whole line as it comes. -/
theorem State.lineValue_memTake {s : State} (h : s.mem.wf = true) (l : Nat) (d : Line) (p : BitVec 4) :
    (s.memTake l d p).mem.lineValue l = (d, p) := by
  have hall : (15 : BitVec 4) = BitVec.allOnes 4 := rfl
  rw [Mem.lineValue, State.memTake_mem, Mem.line_setPoison, Mem.line_writeBytes h, mergeLine_allOnes,
    Mem.linePoison_setPoison, hall, BitVec.not_allOnes, BitVec.and_zero, BitVec.zero_or, BitVec.and_allOnes]

theorem State.lineValue_memTake_of_ne {s : State} (h : s.mem.wf = true) {l other : Nat} (hne : other ≠ l) (d : Line)
    (p : BitVec 4) : (s.memTake l d p).mem.lineValue other = s.mem.lineValue other := by
  simp [Mem.lineValue, Mem.line_writeBytes_of_ne h hne, Mem.linePoison_setPoison_of_ne _ hne]

/-! ### What the memory-side copy leaves alone (10 R321) -/

/-- `t` differs from `s` at most in registers and in what the stacks and their memory-side copies hold open. -/
def Reads (s t : State) : Prop := ∃ r h, t = { s with regs := r, hbm := h }

theorem Reads.refl (s : State) : Reads s s := ⟨_, _, rfl⟩

theorem Reads.trans {s t u : State} (h1 : Reads s t) (h2 : Reads t u) : Reads s u := by
  obtain ⟨r, h, rfl⟩ := h1
  obtain ⟨r', h', rfl⟩ := h2
  exact ⟨_, _, rfl⟩

section

variable {s t : State}

theorem Reads.regs {u : State} (h : Reads s t) (hu : ∃ r, u = { t with regs := r }) : Reads s u := by
  obtain ⟨r, rfl⟩ := hu
  exact h.trans ⟨_, _, rfl⟩

theorem Reads.hbm (x : Hbm) (h : Reads s t) : Reads s { t with hbm := x } := h.trans ⟨_, _, rfl⟩

theorem Reads.mem_eq (h : Reads s t) : t.mem = s.mem := by obtain ⟨r, x, rfl⟩ := h; rfl
theorem Reads.coh_eq (h : Reads s t) : t.coh = s.coh := by obtain ⟨r, x, rfl⟩ := h; rfl
theorem Reads.clusters_eq (h : Reads s t) : t.clusters = s.clusters := by obtain ⟨r, x, rfl⟩ := h; rfl

theorem Reads.rowAccess {st a : Nat} (h : Reads s t) : Reads s (t.rowAccess st a) := by
  unfold State.rowAccess
  dsimp only
  split
  · exact h
  · exact h.hbm _

theorem Reads.hbmBurst {k : Nat} (h : Reads s t) : Reads s (t.hbmBurst k) :=
  h.rowAccess.regs (State.countPkg_regs_only _ _ _ _ _)

theorem Reads.satRf {r : Reg} {f : RF} {n : Nat} (h : Reads s t) : Reads s (t.satRf r f n) := h.regs ⟨_, rfl⟩

theorem Reads.poisonRead {k : Nat} (h : Reads s t) : Reads s (t.poisonRead k) := h.satRf.regs ⟨_, rfl⟩

theorem Reads.setSide {l : Nat} {x : SideLine} (h : Reads s t) : Reads s (t.setSide l x) := h.hbm _

theorem Reads.sideTake {l : Nat} {b : BitVec 4} (h : Reads s t) : Reads s (t.sideTake l b) := h.setSide

theorem Reads.sideRead {l : Nat} {b : BitVec 4} (h : Reads s t) : Reads s (t.sideRead l b) := by
  refine Reads.sideTake (foldl_keeps (P := Reads s) (fun u i hu => ?_) _ _ h)
  split
  · split
    · exact hu.hbmBurst.poisonRead
    · exact hu.hbmBurst
  · exact hu

end

@[simp] theorem State.sideStore_coh (s : State) (l : Nat) (secs part : BitVec 4) (f : Mem → Mem) :
    (s.sideStore l secs part f).coh = s.coh := by
  have hread : Reads s ((s.sideRead l part).sideTake l secs) := (Reads.refl s).sideRead.sideTake
  rw [← hread.coh_eq]
  rfl

@[simp] theorem State.memTake_coh (s : State) (l : Nat) (d : Line) (p : BitVec 4) : (s.memTake l d p).coh = s.coh :=
  s.sideStore_coh _ _ _ _

@[simp] theorem State.memWrite_coh (s : State) (l : Nat) (d : Line) (mask : BitVec 128) :
    (s.memWrite l d mask).coh = s.coh :=
  s.sideStore_coh _ _ _ _

/-! ### The dirty copies of a line -/

/-- The data of an agent's line in M or O. -/
def CAgent.dirtyLine (g : CAgent) (l : Nat) : Option (Line × BitVec 4) :=
  match Table.find g.lines l with
  | some x => if x.st = .m ∨ x.st = .o then some (x.data, x.poison) else none
  | none => none

/-- The data of an agent's write-back buffer that is still the newest (R341). -/
def CAgent.dirtyWb (g : CAgent) (l : Nat) : Option (Line × BitVec 4) :=
  match Table.find g.wbs l with
  | some w => if w.superseded || w.taken then none else some (w.data, w.poison)
  | none => none

/-- The dirty data that an agent's request has received. -/
def CAgent.dirtyReq (g : CAgent) (l : Nat) : Option (Line × BitVec 4) :=
  match Table.find g.reqs l with
  | some r => (match r.gotData with
    | some (d, p, true) => some (d, p)
    | _ => none)
  | none => none

/-- The dirty data that a message carries. -/
def CMsg.dirtyData (m : CMsg) (l : Nat) : Option (Line × BitVec 4) :=
  match m with
  | .data _ k d p true _ => if k = l then some (d, p) else none
  | _ => none

/-- The dirty copy of a line: in an agent's cache, else in a write-back buffer, else on its way, else received. -/
theorem State.dirtyCopy_eq (s : State) (l : Nat) :
    s.dirtyCopy l = (s.coh.agents.findSome? fun e => e.2.dirtyLine l).or
      ((s.coh.agents.findSome? fun e => e.2.dirtyWb l).or
        ((s.coh.msgs.findSome? fun m => m.dirtyData l).or (s.coh.agents.findSome? fun e => e.2.dirtyReq l))) := by
  have hdef : s.dirtyCopy l =
      match s.coh.agents.findSome? fun e => e.2.dirtyLine l with
      | some r => some r
      | none =>
        match s.coh.agents.findSome? fun e => e.2.dirtyWb l with
        | some r => some r
        | none =>
          match s.coh.msgs.findSome? fun m => m.dirtyData l with
          | some r => some r
          | none => s.coh.agents.findSome? fun e => e.2.dirtyReq l := rfl
  rw [hdef]
  split
  next hline => rw [hline, Option.some_or]
  next hline =>
    rw [hline, Option.none_or]
    split
    next hwb => rw [hwb, Option.some_or]
    next hwb =>
      rw [hwb, Option.none_or]
      split
      next hmsg => rw [hmsg, Option.some_or]
      next hmsg => rw [hmsg, Option.none_or]

/-- What an agent holds once its copy of a line is invalidated. -/
def CAgent.without (g : CAgent) (l : Nat) : CAgent :=
  { g with lines := Table.erase g.lines l
           wbs := match Table.find g.wbs l with
             | some w => Table.insert g.wbs l { w with superseded := true }
             | none => g.wbs }

theorem CAgent.find_without_lines (g : CAgent) (l k : Nat) :
    Table.find (g.without l).lines k = if k = l then none else Table.find g.lines k := Table.find_erase g.lines l k

@[simp] theorem CAgent.dirtyLine_without_self (g : CAgent) (l : Nat) : (g.without l).dirtyLine l = none := by
  rw [CAgent.dirtyLine, CAgent.find_without_lines, if_pos rfl]

@[simp] theorem CAgent.dirtyWb_without_self (g : CAgent) (l : Nat) : (g.without l).dirtyWb l = none := by
  cases hw : Table.find g.wbs l with
  | none => simp [CAgent.dirtyWb, CAgent.without, hw]
  | some w => simp [CAgent.dirtyWb, CAgent.without, hw]

@[simp] theorem CAgent.dirtyReq_without (g : CAgent) (l k : Nat) : (g.without l).dirtyReq k = g.dirtyReq k := rfl

theorem CAgent.dirtyLine_without_of_ne (g : CAgent) {l k : Nat} (h : k ≠ l) :
    (g.without l).dirtyLine k = g.dirtyLine k := by
  rw [CAgent.dirtyLine, CAgent.find_without_lines, if_neg h, CAgent.dirtyLine]

theorem CAgent.dirtyWb_without_of_ne (g : CAgent) {l k : Nat} (h : k ≠ l) : (g.without l).dirtyWb k = g.dirtyWb k := by
  cases hw : Table.find g.wbs l with
  | none => simp [CAgent.dirtyWb, CAgent.without, hw]
  | some w => simp [CAgent.dirtyWb, CAgent.without, hw, Table.find_insert, h]

/-! ### Every agent's copy invalidated -/

/-- A search that finds nothing in the default sees through a change of every value. -/
theorem Table.findSome?_mapVals {α β : Type} [DecidableEq α] {d : α} {f : Nat → α → α} {p : α → Option β}
    (hd : p d = none) (t : Table α) :
    (Table.mapVals d f t).findSome? (fun e => p e.2) = t.findSome? fun e => p (f e.1 e.2) := by
  induction t with
  | nil => rfl
  | cons e t ih =>
    rw [Table.mapVals, List.map_cons, List.filter_cons, List.findSome?_cons]
    split
    next => rw [List.findSome?_cons]; exact congrArg _ (funext fun _ => ih)
    next hdef =>
      have hval : f e.1 e.2 = d := by simpa using hdef
      rw [hval, hd]
      exact ih

theorem Table.exists_of_mem_mapVals {α : Type} [DecidableEq α] {d : α} {f : Nat → α → α} {t : Table α} {e : Nat × α}
    (h : e ∈ Table.mapVals d f t) : ∃ x ∈ t, e = (x.1, f x.1 x.2) := by
  obtain ⟨x, hx, rfl⟩ := List.mem_map.mp (List.mem_filter.mp h).1
  exact ⟨x, hx, rfl⟩

/-! ### The home's write (10 Table 10.6) -/

/-- The memory that a write at the home finds: a dirty copy of the line is merged first. -/
def State.homeMem (s : State) (line : Nat) : State :=
  match s.dirtyCopy line with
  | some (d, p) => s.memTake line d p
  | none => s

section

variable {s : State}

theorem State.homeMem_coh (s : State) (line : Nat) : (s.homeMem line).coh = s.coh := by
  unfold State.homeMem
  split
  · exact s.memTake_coh _ _ _
  · rfl

theorem State.homeMem_wf (h : s.mem.wf = true) (line : Nat) : (s.homeMem line).mem.wf = true := by
  unfold State.homeMem
  split
  · exact ((Fab.refl s).memTake).2 h
  · exact h

/-- Merged, memory holds the coherent value of the line. -/
theorem State.homeMem_lineValue (h : s.mem.wf = true) (line : Nat) :
    (s.homeMem line).mem.lineValue line = s.cohLine line := by
  unfold State.homeMem State.cohLine
  split
  next hd => rw [hd, State.lineValue_memTake h]
  next hd => rw [hd, Mem.lineValue]

theorem State.homeMem_lineValue_of_ne (h : s.mem.wf = true) {line other : Nat} (hne : other ≠ line) :
    (s.homeMem line).mem.lineValue other = s.mem.lineValue other := by
  unfold State.homeMem
  split
  · exact State.lineValue_memTake_of_ne h hne _ _
  · rfl

/-- A line without a transaction has none to end (R330). -/
theorem State.lineEnded_of_idle {line : Nat} (h : Table.find s.coh.trans line = none) : s.lineEnded line = s := by
  have hdrain : ∀ n, State.drain line n s = s := by
    intro n
    cases n with
    | zero => rfl
    | succ n => rw [State.drain, State.transOf, h]
  exact hdrain _

end

section

variable {s : State} {line : Nat} (hidle : Table.find s.coh.trans line = none) (d : Line) (mask : BitVec 128)
include hidle

theorem State.cohWrite_mem : (s.cohWrite line d mask).mem = (s.homeMem line).mem.writeLine line d mask := by
  have hdef : (s.cohWrite line d mask).mem = ((State.homeMem (s.lineEnded line) line).memWrite line d mask).mem := rfl
  rw [hdef, State.lineEnded_of_idle hidle, State.memWrite_mem]

theorem State.cohWrite_coh : (s.cohWrite line d mask).coh =
    { s.coh with agents := Table.mapVals .empty (fun _ g => g.without line) s.coh.agents
                 dir := Table.erase s.coh.dir line } := by
  have hfabric : ((State.homeMem (s.lineEnded line) line).memWrite line d mask).coh = s.coh := by
    rw [State.memWrite_coh, State.homeMem_coh, State.lineEnded_of_idle hidle]
  rw [← hfabric]
  rfl

/-- No agent keeps a copy of the line. -/
theorem State.cohWrite_invalidates : ∀ e ∈ (s.cohWrite line d mask).coh.agents, Table.find e.2.lines line = none := by
  intro e he
  rw [State.cohWrite_coh hidle] at he
  obtain ⟨x, -, rfl⟩ := Table.exists_of_mem_mapVals (d := CAgent.empty) (f := fun _ g => CAgent.without g line) he
  rw [CAgent.find_without_lines, if_pos rfl]

/-- Every other line's dirty copy stays what it was. -/
theorem State.cohWrite_dirtyCopy_of_ne {other : Nat} (hne : other ≠ line) :
    (s.cohWrite line d mask).dirtyCopy other = s.dirtyCopy other := by
  rw [State.dirtyCopy_eq, State.dirtyCopy_eq, State.cohWrite_coh hidle,
    Table.findSome?_mapVals (p := fun g : CAgent => g.dirtyLine other) rfl,
    Table.findSome?_mapVals (p := fun g : CAgent => g.dirtyWb other) rfl,
    Table.findSome?_mapVals (p := fun g : CAgent => g.dirtyReq other) rfl]
  simp only [CAgent.dirtyLine_without_of_ne _ hne, CAgent.dirtyWb_without_of_ne _ hne, CAgent.dirtyReq_without]

/-- The line itself has no dirty copy left, where none of it was in flight. -/
theorem State.cohWrite_dirtyCopy_self (hmsgs : ∀ m ∈ s.coh.msgs, m.dirtyData line = none)
    (hreqs : ∀ e ∈ s.coh.agents, e.2.dirtyReq line = none) : (s.cohWrite line d mask).dirtyCopy line = none := by
  rw [State.dirtyCopy_eq, State.cohWrite_coh hidle,
    Table.findSome?_mapVals (p := fun g : CAgent => g.dirtyLine line) rfl,
    Table.findSome?_mapVals (p := fun g : CAgent => g.dirtyWb line) rfl,
    Table.findSome?_mapVals (p := fun g : CAgent => g.dirtyReq line) rfl]
  simp only [CAgent.dirtyLine_without_self, CAgent.dirtyWb_without_self, CAgent.dirtyReq_without]
  rw [List.findSome?_eq_none_iff.mpr hmsgs, List.findSome?_eq_none_iff.mpr hreqs]
  simp

end

theorem CMsg.dirtyData_eq_none {m : CMsg} {l : Nat} (h : ∀ dst b p g, m ≠ .data dst l b p true g) :
    m.dirtyData l = none := by
  unfold CMsg.dirtyData
  split
  next dst k b p g => exact if_neg fun hk => h dst b p g (by rw [hk])
  next => rfl

theorem CAgent.dirtyReq_eq_none {g : CAgent} {l : Nat}
    (h : ∀ r b p, Table.find g.reqs l = some r → r.gotData ≠ some (b, p, true)) : g.dirtyReq l = none := by
  unfold CAgent.dirtyReq
  split
  next r hr =>
    split
    next b p hdata => exact absurd hdata (h r b p hr)
    next => rfl
  next => rfl

end Sys2Proof.Machine

section

open Sys2Proof Sys2Proof.Machine

/-- Settles O20: memory first takes the coherent value of the line (`homeMem_lineValue`), then the masked bytes; and the
fabric keeps no dirty copy of this line and every one of another. -/
theorem coherentWrite : Obligations.CoherentWrite := by
  unfold Obligations.CoherentWrite
  intro s line d mask hwf hidle hmsgs hreqs
  have hvalue : ∀ {t : State} {l : Nat}, t.dirtyCopy l = none → t.cohLine l = t.mem.lineValue l := fun h => by
    rw [State.cohLine, h, Mem.lineValue]
  have hself := State.cohWrite_dirtyCopy_self hidle d mask
    (fun m hm => CMsg.dirtyData_eq_none fun dst b p g hdata => hmsgs dst b p g (hdata ▸ hm))
    fun e he => CAgent.dirtyReq_eq_none (hreqs e he)
  refine ⟨?_, fun other hne => ?_, State.cohWrite_invalidates hidle d mask, ?_⟩
  · rw [hvalue hself, State.cohWrite_mem hidle, Mem.lineValue_writeLine (State.homeMem_wf hwf line),
      State.homeMem_lineValue hwf]
  · have hmem : (s.cohWrite line d mask).mem.lineValue other = s.mem.lineValue other := by
      rw [State.cohWrite_mem hidle, Mem.lineValue_writeLine_of_ne (State.homeMem_wf hwf line) hne,
        State.homeMem_lineValue_of_ne hwf hne]
    obtain ⟨hline, hpoison⟩ := Prod.mk.inj hmem
    rw [State.cohLine, State.cohLine, State.cohWrite_dirtyCopy_of_ne hidle d mask hne, hline, hpoison]
  · rw [State.cohWrite_coh hidle, Table.find_erase, if_pos rfl]

end

/-! PROOF. The read of device memory for a rope (07 R231, 05 R158): what each part of it, the translation, the L1 and
the home, can change. -/

namespace Sys2Proof.Machine

/-! ### What a read may change -/

theorem Reads.homeFetch {s t : State} {ctx l : Nat} (h : Reads s t) : Reads s (t.homeFetch ctx l).1 := by
  unfold State.homeFetch
  dsimp only
  split
  · exact h
  · exact h.sideRead

theorem State.cluster_setCluster_of_ne (s : State) {c j : Nat} (k : Cluster) (h : j ≠ c) :
    (s.setCluster c k).cluster j = s.cluster j :=
  Table.get_set_of_ne _ _ h

/-- `t` is `s` after reads of cluster `c`: at most registers, the stacks and that cluster differ, and the cluster's
parties and ropes are the same. -/
structure ReadBy (c : Nat) (s t : State) : Prop where
  only : ∃ regs clusters hbm, t = { s with regs := regs, clusters := clusters, hbm := hbm }
  others : ∀ j, j ≠ c → t.cluster j = s.cluster j
  parties : (t.cluster c).parties = (s.cluster c).parties
  ropes : (t.cluster c).ropes = (s.cluster c).ropes

theorem ReadBy.refl (c : Nat) (s : State) : ReadBy c s s := ⟨⟨_, _, _, rfl⟩, fun _ _ => rfl, rfl, rfl⟩

section

variable {c : Nat} {s t u : State}

theorem ReadBy.trans (h1 : ReadBy c s t) (h2 : ReadBy c t u) : ReadBy c s u where
  only := by
    obtain ⟨r, k, x, rfl⟩ := h1.only
    obtain ⟨r', k', x', rfl⟩ := h2.only
    exact ⟨_, _, _, rfl⟩
  others j hj := (h2.others j hj).trans (h1.others j hj)
  parties := h2.parties.trans h1.parties
  ropes := h2.ropes.trans h1.ropes

/-- Registers and stacks belong to no cluster. -/
theorem ReadBy.reads (h : ReadBy c s t) (hu : Reads t u) : ReadBy c s u := by
  obtain ⟨r, x, rfl⟩ := hu
  exact h.trans ⟨⟨_, _, _, rfl⟩, fun _ _ => rfl, rfl, rfl⟩

theorem ReadBy.regs (h : ReadBy c s t) (hu : ∃ r, u = { t with regs := r }) : ReadBy c s u :=
  h.reads ((Reads.refl t).regs hu)

theorem ReadBy.countCl {d ev ctx n : Nat} (h : ReadBy c s t) : ReadBy c s (t.countCl d ev ctx n) :=
  h.regs (State.countCl_regs_only _ _ _ _ _)

/-- The cluster may change but for its parties and ropes. -/
theorem ReadBy.setCluster {k : Cluster} (h : ReadBy c s t) (hparties : k.parties = (t.cluster c).parties)
    (hropes : k.ropes = (t.cluster c).ropes) : ReadBy c s (t.setCluster c k) :=
  h.trans
    { only := ⟨_, _, _, rfl⟩
      others := fun _ hj => t.cluster_setCluster_of_ne k hj
      parties := by rw [State.cluster_setCluster, hparties]
      ropes := by rw [State.cluster_setCluster, hropes] }

theorem ReadBy.setRcache {rc : RangeCache} (h : ReadBy c s t) : ReadBy c s (t.setRcache (.cluster c) rc) :=
  h.setCluster rfl rfl

end

/-! ### Translation (09 R289 to R295) -/

theorem State.walkReads_reads (s : State) (ctx va : Nat) : Reads s (s.walkReads ctx va) := by
  unfold State.walkReads
  dsimp only
  split
  · exact Reads.refl s
  · refine foldl_keeps (P := Reads s) (fun t i ht => ?_) _ _ (Reads.refl s)
    split
    · exact ht.homeFetch.satRf
    · exact ht.homeFetch

theorem State.countMiss_reads (s : State) (ctx c : Nat) : Reads s (s.countMiss ctx (.cluster c)) :=
  (((Reads.refl s).satRf).regs (State.countCl_regs_only _ _ _ _ _)).regs (State.countPkg_regs_only _ _ _ _ _)

/-- A translation through a cluster's range cache: a hit changes nothing, a miss walks and may fill the cache. -/
theorem State.translate_readBy (s : State) (c ctx va : Nat) (n : Need) :
    ReadBy c s (s.translate (.cluster c) ctx va n).1 := by
  have hwalk : ReadBy c s ((s.countMiss ctx (.cluster c)).walkReads ctx va) :=
    (ReadBy.refl c s).reads ((s.countMiss_reads ctx c).trans (State.walkReads_reads _ ctx va))
  unfold State.translate
  dsimp only
  split
  · exact ReadBy.refl c s
  · split
    · split
      · exact ReadBy.refl c s
      · exact ReadBy.refl c s
    · split
      · split
        · exact ReadBy.refl c s
        · exact ReadBy.refl c s
      · split
        · exact hwalk
        · split
          · exact hwalk.setRcache
          · exact hwalk.setRcache

theorem State.xlatAll_readBy (s : State) (c ctx : Nat) (n : Need) (addrs : List Nat) :
    ReadBy c s (s.xlatAll (.cluster c) ctx n addrs).1 := by
  unfold State.xlatAll
  refine foldl_keeps (P := fun r : State × Lines => ReadBy c s r.1) (fun r a hr => ?_) _ _ (ReadBy.refl c s)
  have htr := hr.trans (r.1.translate_readBy c ctx a n)
  split
  · exact hr
  · split
    · exact hr
    · split
      next heq => rwa [heq] at htr
      next heq => rwa [heq] at htr
      next heq => rwa [heq] at htr

/-- A translation for a rope that answers. -/
theorem State.ropeXlat_readBy {s t : State} {k : IssueCtx} {need : Need} {accs : List (Nat × Nat)} {n : Nat}
    {ls : List (Nat × Xlat)} (h : s.ropeXlat k need accs n = (t, some ls)) : ReadBy k.c s t := by
  have hall := s.xlatAll_readBy k.c k.ctx need (accLines accs n)
  unfold State.ropeXlat at h
  dsimp only at h
  split at h
  · simp at h
  · split at h
    next heq =>
      obtain ⟨rfl, -⟩ := Prod.mk.inj h
      rwa [heq] at hall
    next => simp at h

/-! ### The L1 and the home (07 R231) -/

theorem State.l1Read_readBy (s : State) (c ctx line pa : Nat) (alloc : Bool) :
    ReadBy c s (s.l1Read c ctx line pa alloc).1 := by
  have hfetch : Reads s (s.homeFetch ctx pa).1 := (Reads.refl s).homeFetch
  have hcluster : (s.homeFetch ctx pa).1.cluster c = s.cluster c := by
    rw [State.cluster, hfetch.clusters_eq, State.cluster]
  have hhome : ReadBy c s (s.homeFetch ctx pa).1 := (ReadBy.refl c s).reads hfetch
  unfold State.l1Read
  split
  · split
    · exact ReadBy.refl c s
    · dsimp only
      split
      · exact (hhome.setCluster (by rw [hcluster]; rfl) (by rw [hcluster]; rfl)).countCl
      · exact ReadBy.refl c s
  · dsimp only
    split
    · exact hhome.countCl.setCluster rfl rfl
    · exact hhome.countCl

/-- Lines read through the L1, where every home accepts. -/
theorem State.ropeLines_readBy {s t : State} {k : IssueCtx} {alloc : Bool} {host : Option HostAnswer}
    {ls : List (Nat × Xlat)} {l : List (Nat × Line × BitVec 4)}
    (h : s.ropeLines k false alloc host ls = (t, some l)) : ReadBy k.c s t := by
  have hkept : (s.ropeLines k false alloc host ls).2.isSome = true →
      ReadBy k.c s (s.ropeLines k false alloc host ls).1 := by
    unfold State.ropeLines
    refine foldl_keeps
      (P := fun r : State × Option (List (Nat × Line × BitVec 4)) => r.2.isSome = true → ReadBy k.c s r.1)
      (fun r x hr => ?_) _ _ fun _ => ReadBy.refl k.c s
    split
    next hnone => exact fun hsome => by rw [hnone] at hsome; exact absurd hsome Bool.false_ne_true
    next l' hsome =>
      have hr := hr (by rw [hsome]; rfl)
      split
      next pa hmem =>
        rw [if_neg (by decide)]
        dsimp only
        split
        · exact fun _ => hr.trans (State.l1Read_readBy _ _ _ _ _ _)
        · exact fun hrefused => absurd hrefused Bool.false_ne_true
      next =>
        split
        · exact fun _ => hr
        · exact fun _ => hr
      next => exact fun _ => hr
  rw [h] at hkept
  exact hkept rfl

/-! ### The load -/

/-- Accesses below the aperture touch no sector of it (09 Table 9.1). -/
theorem hostSectors_of_below {accs : List (Nat × Nat)} (h : ∀ a ∈ accs, a.2 < apertureBase) (n : Nat) :
    hostSectors accs n = [] := by
  have hnone : accs.filter (fun a => decide (apertureBase ≤ a.2)) = [] :=
    List.filter_eq_nil_iff.mpr fun a ha => by simpa using h a ha
  rw [hostSectors, hnone, List.foldl_nil]

/-- A load of device memory that answers: its addresses translate, and their lines are read. -/
theorem State.ropeLoadVals_readBy {s t : State} {k : IssueCtx} {cvt : Bool} {f : MFmt} {host : Option HostAnswer}
    {accs : List (Nat × Nat)} {n : Nat} {vals : List (Nat × Nat)} (hbelow : ∀ a ∈ accs, a.2 < apertureBase)
    (h : s.ropeLoadVals k cvt f host accs n = (t, some vals)) : ReadBy k.c s t := by
  unfold State.ropeLoadVals at h
  split at h
  next => simp at h
  next s1 ls hxlat =>
    split at h
    next => simp at h
    next =>
      rw [hostSectors_of_below hbelow n] at h
      split at h
      next => simp at h
      next s2 l hlines =>
        split at h
        next => simp at h
        next =>
          obtain ⟨rfl, -⟩ := Prod.mk.inj h
          exact (State.ropeXlat_readBy hxlat).trans (State.ropeLines_readBy hlines)

end Sys2Proof.Machine

section

open Sys2Proof Sys2Proof.Machine

/-- Settles O19: a load that answers is translations, each a hit or a walk and a fill of the range cache, and reads
through the L1, each a hit or a fetch from the home (`ropeLoadVals_readBy`). -/
theorem deviceLoadFrame : Obligations.DeviceLoadFrame := by
  unfold Obligations.DeviceLoadFrame
  intro s s1 k cvt f accs n vals hbelow _ _ hload
  have hread := State.ropeLoadVals_readBy
    (fun a ha => show a.2 < 2 ^ 55 from Nat.lt_of_le_of_lt (Nat.le_add_right _ _) (hbelow a ha)) hload
  obtain ⟨regs, clusters, hbm, heq⟩ := hread.only
  exact ⟨by rw [heq], by rw [heq], hread.others, hread.parties, hread.ropes, regs, clusters, hbm, heq⟩

end

/-! PROOF. The statements of 10_coherence_caches.md: agents' own accesses and requests (R321 to R324, R336, R341), the
messages that agents and homes take (R327 to R331, R339), the read of a line that nobody holds (R325, Table 10.6), and
the Sweep engines (R345, R346), with the stacks' scrub, refresh and sensors (11 R367 to R370). -/

namespace Sys2Proof.Machine

/-! ### An agent after a change -/

@[simp] theorem State.agent_setAgent (s : State) (a : Nat) (g : CAgent) : (s.setAgent a g).agent a = g :=
  Table.get_set_self _ _ _ _

theorem State.agent_setAgent_of_ne (s : State) {a b : Nat} (g : CAgent) (h : b ≠ a) :
    (s.setAgent a g).agent b = s.agent b :=
  Table.get_set_of_ne _ _ h

@[simp] theorem State.agent_unreserve (s : State) (a line b : Nat) (but : Option Nat) :
    (s.unreserve a line but).agent b = s.agent b := rfl

@[simp] theorem State.agent_setLine (s : State) (a line : Nat) (l : CLine) :
    (s.setLine a line l).agent a = { s.agent a with lines := Table.insert (s.agent a).lines line l } :=
  s.agent_setAgent a _

@[simp] theorem State.agent_dropLine (s : State) (a line : Nat) :
    (s.dropLine a line).agent a = { s.agent a with lines := Table.erase (s.agent a).lines line } :=
  s.agent_setAgent a _

@[simp] theorem State.agent_setCohReq (s : State) (a line : Nat) (q : CReq) :
    (s.setCohReq a line q).agent a = { s.agent a with reqs := Table.insert (s.agent a).reqs line q } :=
  s.agent_setAgent a _

@[simp] theorem State.agent_dropCohReq (s : State) (a line : Nat) :
    (s.dropCohReq a line).agent a = { s.agent a with reqs := Table.erase (s.agent a).reqs line } :=
  s.agent_setAgent a _

/-- A touch of a way changes the replacement trees only (R322). -/
theorem State.agent_touchWay (s : State) (a line way : Nat) (low : Bool) :
    ∃ trees, (s.touchWay a line way low).agent a = { s.agent a with trees := trees } :=
  ⟨_, s.agent_setAgent a _⟩

/-! ### Agents' own accesses (R321, R324, Table 10.5) -/

section

variable {s : State} {a line : Nat}

theorem State.lineBusy_of_idle (h : s.cohReq a line = none ∧ Table.find (s.agent a).wbs line = none) :
    s.lineBusy a line = false := by
  obtain ⟨hreq, hwb⟩ := h
  simp [State.lineBusy, hreq, hwb]

section

variable (hready : s.ready = true) (hline : line < memLines)
include hready hline

theorem atHome_of_ready (f : State → State) : atHome line s f = .next (f s) := by
  rw [atHome, if_neg (Nat.not_le_of_lt hline), hready]
  rfl

/-- An access of device memory by an agent that may cache the line. -/
theorem ownAccess_of_mayCache (hmay : s.mayCache a line = true) (u : LineUse) (d : Line) (mask : BitVec 128)
    (f : State → State) : ownAccess a line u d mask s f = .next (f s).coresMeet := by
  unfold ownAccess
  split
  · rw [if_neg (Nat.not_le_of_lt hline), atHome_of_ready hready hline, if_pos hmay]
  · rw [atHome_of_ready hready hline, if_pos hmay]

end

theorem atHome_of_le (hline : memLines ≤ line) (f : State → State) : atHome line s f = .fault .noSuchAddress :=
  if_pos hline

/-- No unit reaches a line beyond device memory (09 R283). -/
theorem ownAccess_of_no_core {u : LineUse} (hcore : u.core = none) (hline : memLines ≤ line) (d : Line)
    (mask : BitVec 128) (f : State → State) : ownAccess a line u d mask s f = .fault .noSuchAddress := by
  rw [ownAccess, hcore]
  exact atHome_of_le hline _

/-- A core reaches the aperture and the registers there (14 Table 14.2). -/
theorem ownAccess_of_core {u : LineUse} {k : Nat} (hcore : u.core = some k) (hready : s.ready = true)
    (hline : memLines ≤ line) (d : Line) (mask : BitVec 128) (f : State → State) :
    ownAccess a line u d mask s f = .next (s.coreOutside k line u d mask) := by
  rw [ownAccess, hcore]
  dsimp only
  rw [if_pos hline, if_pos hready]

/-- Only a core's load of the register space is a BAR0 read (14 R433). -/
theorem execRds_eq_agentRead {x : LineAccess} {ctx : Nat}
    (h : x.use.core = none ∨ line < coreBarLine ∨ coreBarLine + 2 ^ 19 ≤ line) :
    execRds a ctx line x s = agentRead a ctx line x s := by
  unfold execRds
  split
  next k off size huse =>
    have hout : (s.ready && decide (coreBarLine ≤ line) && decide (line < coreBarLine + 2 ^ 19)) = false := by
      rcases h with hcore | hlow | hhigh
      · rw [huse] at hcore; cases hcore
      · rw [decide_eq_false (Nat.not_le_of_lt hlow), Bool.and_false, Bool.false_and]
      · rw [decide_eq_false (Nat.not_lt_of_le hhigh), Bool.and_false]
    rw [hout]
    rfl
  next => rfl

theorem lt_coreBarLine (h : line < memLines) : line < coreBarLine :=
  Nat.lt_of_lt_of_le h (by decide)

/-! ### Misses (R322, R341) -/

theorem State.takeWay_of_free {w : Nat} (h : s.freeWay a line = some w) : s.takeWay a line = (s, some w) := by
  rw [State.takeWay, h]

theorem State.takeWay_of_victim {v : Nat × CLine} (hfree : s.freeWay a line = none)
    (hvictim : s.cacheVictim a line = some v) : s.takeWay a line = (s.evictLine a v.1, some v.2.way) := by
  rw [State.takeWay, hfree, hvictim]

theorem State.missReq_of_way {t : State} {w : Nat} (hbusy : s.lineBusy a line = false)
    (hway : s.takeWay a line = (t, some w)) (kind : ReqKind) (ctx : Nat) (d : Line) (mask : BitVec 128)
    (x : LineAccess) :
    s.missReq a line kind ctx d mask x = t.issueReq a line (.new kind ctx d mask x.use w) x.upset := by
  rw [State.missReq, hbusy, hway]
  rfl

section

variable (hready : s.ready = true) (hline : line < memLines) (hmay : s.mayCache a line = true)
include hready hline hmay

section

variable {t : State} {w : Nat} (hheld : Table.find (s.agent a).lines line = none)
  (hbusy : s.lineBusy a line = false) (hway : s.takeWay a line = (t, some w))
include hheld hbusy hway

/-- A read that misses issues RdS. -/
theorem exec_rds_of_miss (ctx : Nat) (x : LineAccess) :
    exec (.rds a ctx line x) s = .next (t.issueReq a line (.new .rdS ctx 0 0 x.use w) x.upset).coresMeet := by
  rw [exec_rds, execRds_eq_agentRead (.inr (.inl (lt_coreBarLine hline))), agentRead,
    ownAccess_of_mayCache hready hline hmay, hheld]
  dsimp only
  rw [State.missReq_of_way hbusy hway]

/-- A write that misses issues RdX. -/
theorem exec_rdx_of_miss (ctx : Nat) (d : Line) (mask : BitVec 128) (x : LineAccess) :
    exec (.rdx a ctx line d mask x) s = .next (t.issueReq a line (.new .rdX ctx d mask x.use w) x.upset).coresMeet := by
  rw [exec_rdx, execRdx, ownAccess_of_mayCache hready hline hmay, hheld]
  dsimp only
  rw [State.missReq_of_way hbusy hway]

end

/-! ### Hits (R324, R342) -/

section

variable {l0 l : CLine} {ctx : Nat} {x : LineAccess} (hheld : Table.find (s.agent a).lines line = some l0)
  (hleft : Table.find ((s.cacheUpset a line ctx x.upset).agent a).lines line = some l)
include hheld hleft

theorem exec_rds_of_hit : exec (.rds a ctx line x) s =
    .next (((s.cacheUpset a line ctx x.upset).touchWay a line l.way x.use.noalloc).readUse line l x.use).coresMeet := by
  rw [exec_rds, execRds_eq_agentRead (.inr (.inl (lt_coreBarLine hline))), agentRead,
    ownAccess_of_mayCache hready hline hmay, hheld]
  dsimp only
  rw [hleft]

theorem exec_rdx_of_hit (hst : l0.st = .e ∨ l0.st = .m)
    (hbusy : (s.cacheUpset a line ctx x.upset).lineBusy a line = false) (d : Line) (mask : BitVec 128) :
    exec (.rdx a ctx line d mask x) s = .next (((s.cacheUpset a line ctx x.upset).touchWay a line l.way
      x.use.noalloc).writeUse a line l x.use d mask).coresMeet := by
  rw [exec_rdx, execRdx, ownAccess_of_mayCache hready hline hmay, hheld]
  dsimp only
  rw [if_pos hst, hleft]
  dsimp only
  rw [hbusy]
  rfl

theorem exec_upg_of_shared (hst : l0.st = .s ∨ l0.st = .o) (d : Line) (mask : BitVec 128) :
    exec (.upg a ctx line d mask x) s = .next ((s.cacheUpset a line ctx x.upset).issueReq a line
      (.new .upg ctx d mask x.use l.way) noUpset).coresMeet := by
  rw [exec_upg, execUpg, ownAccess_of_mayCache hready hline hmay, hheld]
  dsimp only
  rw [if_pos hst, hleft]

end

end

/-! ### Write-backs and silent evictions (R339, R341) -/

/-- The write-back of a dirty line: its buffer set, the line given up, and WbD or WbC sent. -/
def State.sendBack (s : State) (a line : Nat) (l : CLine) (keep : Bool) : State :=
  (((s.dropLine a line).setWb a line ⟨l.st, l.data, l.poison, false, false, keep⟩).setCohReq a line
    (.new (if keep then .wbC else .wbD) 63 0 0 (.unit false) l.way)).homeTake a line noUpset

section

variable {l : CLine} (hheld : Table.find (s.agent a).lines line = some l)
  (hidle : s.cohReq a line = none ∧ Table.find (s.agent a).wbs line = none)
include hheld hidle

theorem State.writeBack_of_dirty (hst : l.st = .m ∨ l.st = .o) (keep : Bool) :
    s.writeBack a line keep = s.sendBack a line l keep := by
  rw [State.writeBack, hheld]
  exact if_pos ⟨hst, by rw [State.lineBusy_of_idle hidle]; rfl⟩

/-- The eviction of a dirty line is a write-back. -/
theorem State.evictLine_of_dirty (hst : l.st = .m ∨ l.st = .o) : s.evictLine a line = s.sendBack a line l false := by
  have hsilent : s.silentEvict a line = s := by
    rw [State.silentEvict, hheld]
    refine if_neg fun ⟨hclean, _⟩ => ?_
    rcases hst with h | h <;> simp [h] at hclean
  rw [State.evictLine, hsilent, State.writeBack_of_dirty hheld hidle hst]

/-- The eviction of a clean line is silent. -/
theorem State.evictLine_of_clean (hst : l.st = .e ∨ l.st = .s) : s.evictLine a line = s.dropLine a line := by
  have hsilent : s.silentEvict a line = s.dropLine a line := by
    rw [State.silentEvict, hheld]
    exact if_pos ⟨hst, by rw [hidle.1]; rfl⟩
  rw [State.evictLine, hsilent, State.writeBack, State.agent_dropLine, Table.find_erase, if_pos rfl]

end

/-! ### The use of a line that is held (14 R437) -/

/-- A unit's write leaves the line in M, with its bytes merged and the poison of the sectors it covers whole cleared. -/
theorem State.writeUse_unit_line (s : State) (a line : Nat) (l : CLine) (na : Bool) (d : Line) (mask : BitVec 128) :
    Table.find ((s.writeUse a line l (.unit na) d mask).agent a).lines line =
      some { l with st := .m, data := mergeLine l.data d mask, poison := l.poison &&& ~~~wholeSectors mask } := by
  have hdef : s.writeUse a line l (.unit na) d mask = s.lineWrite a line l d mask := rfl
  rw [hdef, State.lineWrite, State.agent_unreserve, State.agent_setLine, Table.find_insert_self]

/-- A core's load of an unpoisoned sector returns its bytes. -/
theorem State.readUse_load_value (s : State) (line : Nat) (l : CLine) {k off size : Nat}
    (h : l.poison.getLsbD (off / 32) = false) :
    ((s.readUse line l (.load k off size)).core k).value = BitVec.ofNat 64 (lineNat l.data off (2 ^ size)) := by
  rw [State.readUse, State.coreLoad, h, if_neg Bool.false_ne_true, State.coreGets, State.core, State.setCore,
    Table.get_set_self]

end

end Sys2Proof.Machine

section

open Sys2Proof Sys2Proof.Machine

/-- Settles O42: a request is what a miss makes in the way it found (`exec_rds_of_miss`), an access what a hit makes on
the copy that the upset left (`exec_rds_of_hit`), a write-back what `sendBack` says; what is left is each command's run
at home. -/
theorem homeRequests : Obligations.HomeRequests := by
  unfold Obligations.HomeRequests
  refine ⟨fun s a ctx line d mask x hready hline => ⟨fun hmay => ⟨fun hheld hidle => ?misses, ?hits⟩, ?evictions,
    (exec_rdcur ..).trans (atHome_of_ready hready hline _), (exec_wrnc ..).trans (atHome_of_ready hready hline _),
    ?atomics, ?resends⟩,
    fun s a line l d mask na k off size => ⟨s.writeUse_unit_line a line l na d mask, s.readUse_load_value line l⟩,
    fun s a ctx line d mask x hline => ⟨?units, ?cores, ?registers, ?homes⟩⟩
  case misses =>
    have hbusy := State.lineBusy_of_idle hidle
    refine ⟨fun w hfree => ?_, fun v hfree hvictim => ?_⟩
    · have hway := State.takeWay_of_free hfree
      exact ⟨exec_rds_of_miss hready hline hmay hheld hbusy hway ctx x,
        exec_rdx_of_miss hready hline hmay hheld hbusy hway ctx d mask x⟩
    · have hway := State.takeWay_of_victim hfree hvictim
      exact ⟨exec_rds_of_miss hready hline hmay hheld hbusy hway ctx x,
        exec_rdx_of_miss hready hline hmay hheld hbusy hway ctx d mask x⟩
  case hits =>
    exact fun l0 l hheld hleft => ⟨exec_rds_of_hit hready hline hmay hheld hleft,
      fun hst hbusy => exec_rdx_of_hit hready hline hmay hheld hleft hst hbusy d mask,
      fun hst => exec_upg_of_shared hready hline hmay hheld hleft hst d mask⟩
  case evictions =>
    refine fun l hheld hidle => ⟨fun hst => ⟨?_, ?_⟩, fun hst => ?_⟩
    · rw [exec_wbd, execWbd, atHome_of_ready hready hline, State.evictLine_of_dirty hheld hidle hst]
      rfl
    · rw [exec_wbc, execWbc, atHome_of_ready hready hline, State.writeBack_of_dirty hheld hidle hst]
      rfl
    · rw [exec_wbd, execWbd, atHome_of_ready hready hline, State.evictLine_of_clean hheld hidle hst]
  case atomics =>
    rintro addr op rfl
    exact (exec_atomh ..).trans <| atHome_of_ready hready hline _
  case resends =>
    intro q hreq hsent
    rw [exec_requestResend, execRequestResend, hreq]
    dsimp only
    rw [hready, hsent]
    rfl
  case units =>
    intro hcore
    rw [exec_rds, execRds_eq_agentRead (.inl hcore)]
    exact ⟨ownAccess_of_no_core hcore hline _ _ _, (exec_rdx ..).trans (ownAccess_of_no_core hcore hline _ _ _),
      (exec_upg ..).trans (ownAccess_of_no_core hcore hline _ _ _)⟩
  case cores =>
    refine fun k hcore hready => ⟨fun hout => ?_, (exec_rdx ..).trans (ownAccess_of_core hcore hready hline _ _ _)⟩
    rw [exec_rds, execRds_eq_agentRead (.inr hout)]
    exact ownAccess_of_core hcore hready hline _ _ _
  case registers =>
    intro k off size huse hready hlow hhigh
    rw [exec_rds, execRds, huse]
    dsimp only
    rw [hready, decide_eq_true hlow, decide_eq_true hhigh]
    rfl
  case homes =>
    exact ⟨(exec_wbd ..).trans (atHome_of_le hline _), (exec_wbc ..).trans (atHome_of_le hline _),
      (exec_rdcur ..).trans (atHome_of_le hline _), (exec_wrnc ..).trans (atHome_of_le hline _)⟩

end

namespace Sys2Proof.Machine

/-! ### What a request's events leave alone (20 R571, 11 R366) -/

/-- `t` is `s` but for registers, and LOCAL_K among them is the same. -/
structure Counted (s t : State) : Prop where
  only : ∃ r, t = { s with regs := r }
  localK : t.localK = s.localK

section

variable {s t u : State}

theorem Counted.refl (s : State) : Counted s s := ⟨⟨_, rfl⟩, rfl⟩

theorem Counted.trans (h : Counted s t) (h' : Counted t u) : Counted s u := by
  obtain ⟨⟨r, rfl⟩, hk⟩ := h
  obtain ⟨⟨r', rfl⟩, hk'⟩ := h'
  exact ⟨⟨r', rfl⟩, hk'.trans hk⟩

theorem Counted.of_reg (ht : ∃ r, t = { s with regs := r }) (h : t.reg .glbMemPlace = s.reg .glbMemPlace) :
    Counted s t :=
  ⟨ht, by rw [State.localK, State.rf, h, State.localK, State.rf]⟩

theorem Reg.addr_glbMemPlace : Reg.glbMemPlace.addr = 0x3000 := rfl
theorem Reg.addr_glbMemErr (n : Nat) : (Reg.glbMemErr n).addr = 0x3200 + 0x8 * n := rfl

theorem State.countPkg_counted (s : State) (ev inst ctx n : Nat) : Counted s (s.countPkg ev inst ctx n) :=
  .of_reg (s.countPkg_regs_only ev inst ctx n)
    (s.reg_countPkg_of_uncounted ev inst ctx n
      (Reg.uncounted_of_lt (by rw [Reg.addr_glbMemPlace]; omega)))

theorem State.countCacheMiss_counted (s : State) (a : Nat) (kind : ReqKind) : Counted s (s.countCacheMiss a kind) := by
  unfold State.countCacheMiss
  split
  · exact s.countPkg_counted _ _ _ _
  · exact .refl s

theorem State.onDie_counted (s : State) (line n : Nat) : Counted s (s.onDie line n) :=
  .of_reg ⟨_, rfl⟩ (State.reg_setReg_ne _ _ _ _ (by rw [Reg.addr_glbMemPlace, Reg.addr_glbMemErr]; omega))

theorem Counted.setCohReq (h : Counted s t) (a line : Nat) (q : CReq) :
    Counted (s.setCohReq a line q) (t.setCohReq a line q) := by
  obtain ⟨⟨r, rfl⟩, hk⟩ := h
  exact ⟨⟨r, rfl⟩, hk⟩

theorem Counted.coh_eq (h : Counted s t) : t.coh = s.coh := by obtain ⟨r, rfl⟩ := h.only; rfl
theorem Counted.mem_eq (h : Counted s t) : t.mem = s.mem := by obtain ⟨r, rfl⟩ := h.only; rfl
theorem Counted.cores_eq (h : Counted s t) : t.cores = s.cores := by obtain ⟨r, rfl⟩ := h.only; rfl

theorem Counted.cohReq_eq (h : Counted s t) (a line : Nat) : t.cohReq a line = s.cohReq a line := by
  rw [State.cohReq, State.agent, h.coh_eq]
  rfl

/-- The registers do not own frames (09 R301). -/
theorem Counted.ownerOk_eq (h : Counted s t) (ctx line : Nat) : t.ownerOk ctx line = s.ownerOk ctx line := by
  obtain ⟨r, rfl⟩ := h.only
  rfl

end

/-! The kernel runs `stackPlace` if it is asked whether `homeOf` at a state is its body there: so each of the two is
stated as a function. -/

theorem State.homeOf_eq_fun : State.homeOf = fun s line => (stackPlace s.localK (128 * line)).1 := rfl
theorem State.dirSet_eq_fun :
    State.dirSet = fun s line => (stackPlace s.localK (128 * line)).2 / 128 % 131072 := rfl

/-- A directory set depends on the directory and on the placement. -/
theorem State.dirPeers_congr {s t : State} (hdir : t.coh.dir = s.coh.dir) (hk : t.localK = s.localK) (line : Nat) :
    t.dirPeers line = s.dirPeers line := by
  have hhome (l : Nat) : t.homeOf l = s.homeOf l := by
    rw [State.homeOf_eq_fun]
    dsimp only
    rw [hk]
  have hset (l : Nat) : t.dirSet l = s.dirSet l := by
    rw [State.dirSet_eq_fun]
    dsimp only
    rw [hk]
  rw [State.dirPeers, hdir, State.dirPeers]
  simp only [hhome, hset]

/-! ### The home takes a request (R330, R336) -/

theorem State.homeUpset_noUpset (s : State) (line ctx : Nat) : s.homeUpset line ctx noUpset = s.onDie line 0 := rfl

/-- The transaction of a request that the home takes, before it has its directory room. -/
def CReq.trans (q : CReq) (a : Nat) : Trans :=
  ⟨a, q.kind, q.ctx, q.data, q.mask, .room, [], [], 0, 0, none, q.rsv⟩

section

variable {s : State} {a line : Nat} {q : CReq}

/-- With no transaction and no reservation the home takes a request. -/
theorem State.homeTake_of_free (hreq : s.cohReq a line = some q) (hrsv : q.rsv = false) (htrans : s.coh.trans = [])
    (hqueue : s.coh.rsv = []) (u : Upset) :
    s.homeTake a line u = ((s.countPkg 2 (s.homeOf line) q.ctx 1).beginTrans a line q u).settled := by
  have hidle : (s.transOf line).isNone = true := by rw [State.transOf, htrans]; rfl
  have hfree : decide (448 ≤ s.entriesUsed (s.homeOf line) false) = false := by rw [State.entriesUsed, htrans]; rfl
  rw [State.homeTake, hreq]
  dsimp only
  rw [hrsv, hidle, hqueue, hfree]
  rfl

/-- A read without upset that the frame's owner admits begins its transaction (09 R301). -/
theorem State.beginTrans_of_rdS (hkind : q.kind = .rdS) (howner : s.ownerOk q.ctx line = true) :
    s.beginTrans a line q noUpset = ((s.onDie line 0).setTrans line (q.trans a)).tryRoom line (q.trans a) := by
  have hadmits : s.homeRefuses q.ctx line noUpset = (s, false) := by
    rw [State.homeRefuses, howner]
    rfl
  unfold State.beginTrans
  rw [hkind]
  dsimp only
  rw [hadmits, ← hkind]
  rfl

variable {t : Trans} (hentry : Table.find s.coh.dir line = none)
include hentry

/-- With room in the directory set, a request for a line without entry snoops nobody and finishes at once. -/
theorem State.tryRoom_of_no_entry (hroom : (s.dirPeers line).length < 16) :
    s.tryRoom line t = s.finishTrans line { t with phase := .snoops, waiting := [] } := by
  have hsnoops : s.snoopsFor line t = [] := by rw [State.snoopsFor, hentry]
  rw [State.tryRoom, decide_eq_true hroom, Bool.or_true, if_pos rfl, State.launchTrans, hsnoops]
  rfl

/-- A read of a line without entry: its requester owns it, and is sent what memory holds (Table 10.6). -/
theorem State.finishTrans_rdS_of_no_entry (hkind : t.kind = .rdS) : s.finishTrans line t =
    ((s.setDir line .dx t.agent []).homeData t.agent line (some .e)).setTrans line
      { t with phase := .ack, waiting := [], answers := [] } := by
  unfold State.finishTrans
  rw [hkind, hentry]

end

/-- A transaction that waits for its Ack alone lets nothing else go on. -/
theorem State.settled_of_ack {s : State} {line : Nat} {t : Trans} (hqueue : s.coh.rsv = [])
    (htrans : s.coh.trans = [(line, t)]) (hphase : t.phase = .ack) : s.settled = s := by
  have hsettle (n : Nat) : s.settle n = s := by
    cases n with
    | zero => rfl
    | succ n =>
      rw [State.settle, hqueue, htrans]
      simp [hphase]
  exact hsettle _

theorem State.coresMeet_of_none {s : State} (h : ∀ e ∈ s.cores, e.2.met = none) : s.coresMeet = s :=
  foldl_eq_of_fixed fun e he => by rw [h e he]

/-! ### The read of a line that nobody holds (R325, Table 10.6) -/

/-- The fabric after a read that finds no entry: its requester owns the line, what memory holds of it is on its way
there, and the transaction waits for the Ack. -/
def Coh.grantE (k : Coh) (line : Nat) (m : Mem) (t : Trans) : Coh :=
  { k with
    dir := Table.insert k.dir line ⟨.dx, t.agent, [], k.nextAge⟩
    nextAge := k.nextAge + 1
    msgs := k.msgs ++ [.data t.agent line (m.line line) (m.linePoison line) false (some .e)]
    trans := [(line, { t with phase := .ack, waiting := [], answers := [] })] }

section

variable (s : State) (line : Nat) (t : Trans)

@[simp] theorem State.setTrans_mem : (s.setTrans line t).mem = s.mem := rfl
@[simp] theorem State.setTrans_cores : (s.setTrans line t).cores = s.cores := rfl
@[simp] theorem State.setTrans_coh :
    (s.setTrans line t).coh = { s.coh with trans := Table.insert s.coh.trans line t } := rfl
@[simp] theorem State.mapCoh_mem (f : Coh → Coh) : (s.mapCoh f).mem = s.mem := rfl
@[simp] theorem State.mapCoh_cores (f : Coh → Coh) : (s.mapCoh f).cores = s.cores := rfl
@[simp] theorem State.mapCoh_coh (f : Coh → Coh) : (s.mapCoh f).coh = f s.coh := rfl

end

theorem Reads.cores_eq {s t : State} (h : Reads s t) : t.cores = s.cores := by obtain ⟨r, x, rfl⟩ := h; rfl

section

variable (s : State) (a line : Nat) (g : Option LineState)

theorem State.sideFill_reads : Reads s (s.sideFill line) := (Reads.refl s).sideRead

theorem State.homeData_mem : (s.homeData a line g).mem = s.mem := s.sideFill_mem line

theorem State.homeData_cores : (s.homeData a line g).cores = s.cores := (s.sideFill_reads line).cores_eq

/-- The home sends what memory holds of the line. -/
theorem State.homeData_coh : (s.homeData a line g).coh =
    { s.coh with msgs := s.coh.msgs ++ [.data a line (s.mem.line line) (s.mem.linePoison line) false g] } := by
  rw [← (s.sideFill_reads line).coh_eq]
  rfl

end

section

variable {s : State} {line : Nat} {t t0 : Trans} (hkind : t.kind = .rdS)
  (hentry : Table.find s.coh.dir line = none) (hroom : (s.dirPeers line).length < 16)
include hkind hentry hroom

/-- With room in the directory set, a read that finds no entry makes its requester the owner and sends it the line. -/
theorem State.tryRoom_rdS_of_no_entry : s.tryRoom line t =
    ((s.mapCoh fun k => { k with
      dir := Table.insert k.dir line ⟨.dx, t.agent, [], k.nextAge⟩
      nextAge := k.nextAge + 1 }).homeData t.agent line (some .e)).setTrans line
        { t with phase := .ack, waiting := [], answers := [] } := by
  have howned : s.setDir line .dx t.agent [] = s.mapCoh fun k => { k with
      dir := Table.insert k.dir line ⟨.dx, t.agent, [], k.nextAge⟩, nextAge := k.nextAge + 1 } := by
    rw [State.setDir, hentry]
  rw [State.tryRoom_of_no_entry hentry hroom, ← howned]
  exact State.finishTrans_rdS_of_no_entry hentry hkind

/-- It leaves memory and the cores as they were, and the fabric as `grantE` says. -/
theorem State.tryRoom_rdS_grants (htrans : s.coh.trans = [(line, t0)]) :
    (s.tryRoom line t).mem = s.mem ∧ (s.tryRoom line t).cores = s.cores ∧
      (s.tryRoom line t).coh = s.coh.grantE line s.mem t := by
  rw [State.tryRoom_rdS_of_no_entry hkind hentry hroom]
  refine ⟨?_, ?_, ?_⟩
  · rw [State.setTrans_mem, State.homeData_mem, State.mapCoh_mem]
  · rw [State.setTrans_cores, State.homeData_cores, State.mapCoh_cores]
  · rw [State.setTrans_coh, State.homeData_coh, State.mapCoh_coh, State.mapCoh_mem]
    simp only [htrans, Table.insert, if_true, Coh.grantE]

end

@[simp] theorem State.setTrans_localK (s : State) (line : Nat) (t : Trans) : (s.setTrans line t).localK = s.localK :=
  rfl

section

variable {s u : State} {a line : Nat} {q : CReq} (hkind : q.kind = .rdS) (htrans : s.coh.trans = [])
  (hqueue : s.coh.rsv = []) (hentry : Table.find s.coh.dir line = none) (hroom : (s.dirPeers line).length < 16)
include hkind htrans hqueue hentry hroom

/-- Run after events that only count, its transaction leaves no other to go on. -/
theorem State.settled_rdS_grants (hevents : Counted s u) :
    let t := ((u.setTrans line (q.trans a)).tryRoom line (q.trans a)).settled
    t.mem = s.mem ∧ t.cores = s.cores ∧ t.coh = s.coh.grantE line s.mem (q.trans a) := by
  have hcoh : (u.setTrans line (q.trans a)).coh = { s.coh with trans := [(line, q.trans a)] } := by
    rw [State.setTrans_coh, hevents.coh_eq, htrans]
    rfl
  have hpeers : (u.setTrans line (q.trans a)).dirPeers line = s.dirPeers line :=
    State.dirPeers_congr (by rw [hcoh]) ((u.setTrans_localK _ _).trans hevents.localK) line
  obtain ⟨hmem, hcores, hleft⟩ := State.tryRoom_rdS_grants (s := u.setTrans line (q.trans a)) (t := q.trans a) hkind
    (by rw [hcoh]; exact hentry) (by rw [hpeers]; exact hroom) (by rw [hcoh])
  have hgrant : ((u.setTrans line (q.trans a)).tryRoom line (q.trans a)).coh =
      s.coh.grantE line s.mem (q.trans a) := by
    rw [hleft, hcoh, State.setTrans_mem, hevents.mem_eq]
    rfl
  rw [State.settled_of_ack (by rw [hgrant]; exact hqueue) (by rw [hgrant]; rfl) rfl]
  exact ⟨hmem.trans hevents.mem_eq, hcores.trans hevents.cores_eq, hgrant⟩

/-- The home takes such a read: the events are counted, and its transaction run. -/
theorem State.homeTake_rdS_grants (hrsv : q.rsv = false) (hreq : s.cohReq a line = some q)
    (howner : s.ownerOk q.ctx line = true) :
    (s.homeTake a line noUpset).mem = s.mem ∧ (s.homeTake a line noUpset).cores = s.cores ∧
      (s.homeTake a line noUpset).coh = s.coh.grantE line s.mem (q.trans a) := by
  have hcount := s.countPkg_counted 2 (s.homeOf line) q.ctx 1
  rw [State.homeTake_of_free hreq hrsv htrans hqueue,
    State.beginTrans_of_rdS hkind ((hcount.ownerOk_eq _ _).trans howner)]
  exact State.settled_rdS_grants hkind htrans hqueue hentry hroom (hcount.trans (State.onDie_counted _ line 0))

end

end Sys2Proof.Machine

section

open Sys2Proof Sys2Proof.Machine

/-- Settles O41: RDS is a miss (`exec_rds_of_miss`), whose request the home takes at once; with no entry in the
directory its transaction grants E and waits for the Ack (`homeTake_rdS_grants`), and what is counted on the way is
registers. -/
theorem uncachedRead : Obligations.UncachedRead := by
  unfold Obligations.UncachedRead
  intro s a ctx line w noalloc hready hline hmay htrans hqueue hentry hroom howner hheld hreq hwb hfree hmet
  have hbusy := State.lineBusy_of_idle ⟨hreq, hwb⟩
  obtain ⟨q, hq⟩ : ∃ q : CReq, q = .new .rdS ctx 0 0 (.unit noalloc) w := ⟨_, rfl⟩
  have hexec : exec (.rds a ctx line ⟨.unit noalloc, noUpset⟩) s =
      .next (s.issueReq a line q noUpset).coresMeet := by
    rw [hq]
    exact exec_rds_of_miss hready hline hmay hheld hbusy (State.takeWay_of_free hfree) ctx ⟨.unit noalloc, noUpset⟩
  have hkind : q.kind = .rdS := congrArg CReq.kind hq
  have hctx : q.ctx = ctx := congrArg CReq.ctx hq
  have hissue : s.issueReq a line q noUpset =
      ((s.countCacheMiss a .rdS).setCohReq a line q).homeTake a line noUpset := by
    rw [State.issueReq, hbusy, hkind]
    rfl
  have hsent := (s.countCacheMiss_counted a .rdS).setCohReq a line q
  rw [hexec, hissue]
  generalize (s.countCacheMiss a .rdS).setCohReq a line q = u at hsent
  have hcoh : u.coh = (s.setCohReq a line q).coh := hsent.coh_eq
  have hqueued : u.cohReq a line = some q := by
    rw [hsent.cohReq_eq, State.cohReq, State.agent_setCohReq, Table.find_insert_self]
  have hdir : u.coh.dir = (s.setCohReq a line q).coh.dir := by rw [hcoh]
  have hpeers : u.dirPeers line = s.dirPeers line := State.dirPeers_congr (s := s) hdir hsent.localK line
  obtain ⟨hmem, hcores, hleft⟩ := State.homeTake_rdS_grants (s := u) hkind (by rw [hcoh]; exact htrans)
    (by rw [hcoh]; exact hqueue) (by rw [hcoh]; exact hentry) (by rw [hpeers]; exact hroom)
    (congrArg CReq.rsv hq) hqueued (by rw [hsent.ownerOk_eq, hctx]; exact howner)
  have hagents (b : Nat) : (u.homeTake a line noUpset).agent b = (s.setCohReq a line q).agent b := by
    rw [State.agent, hleft, hcoh]
    rfl
  rw [State.coresMeet_of_none (by rw [hcores, hsent.cores_eq]; exact hmet)]
  refine ⟨_, rfl, hmem.trans hsent.mem_eq, ?msgs, ?entry, fun l hl => ?others, ?trans,
    ⟨q, ?request, hkind, congrArg CReq.way hq, congrArg CReq.sent hq⟩,
    fun b hb => (hagents b).trans (s.agent_setAgent_of_ne _ hb), ?lines⟩
  case msgs =>
    rw [hleft, hcoh, hsent.mem_eq]
    rfl
  case entry =>
    rw [hleft]
    exact ⟨_, Table.find_insert_self _ _ _, rfl, rfl, rfl⟩
  case others =>
    rw [hleft, hcoh]
    exact (Table.find_insert _ _ _ _).trans (if_neg hl)
  case trans =>
    rw [hleft]
    exact ⟨_, rfl, rfl, rfl, hkind⟩
  case request => rw [State.cohReq, hagents, State.agent_setCohReq, Table.find_insert_self]
  case lines => rw [hagents, State.agent_setCohReq]

end

namespace Sys2Proof.Machine

/-! ### What a message does when it is taken (R327 to R331, Table 10.5) -/

/-- Where the package runs and the message is in flight, it is taken. -/
theorem onMessage_of_take {s s1 : State} {p : CMsg → Bool} {m : CMsg} (hready : s.ready = true)
    (htake : s.cohTake p = some (m, s1)) (f : CMsg → State → State) : onMessage s p f = .next (f m s1) := by
  rw [onMessage, htake]
  exact congrArg Host.Outcome.next (if_pos hready)

section

variable {s : State} {a line : Nat} {d : Line} {p : BitVec 4} {wb : Bool}

/-! A snoop finds the copy that its agent answers with (R339, R341). -/

theorem State.takeSnpShr_of_e (h : s.copyOf a line = some (.e, d, p, wb)) (dest : SnpDest) :
    s.takeSnpShr a line dest =
      (s.setCopy a line wb (some .s)).snoopAnswer a line rspKeptShared dest (some (d, p, false)) := by
  rw [State.takeSnpShr, h]

theorem State.takeSnpShr_of_m (h : s.copyOf a line = some (.m, d, p, wb)) (dest : SnpDest) :
    s.takeSnpShr a line dest =
      (s.setCopy a line wb (some .o)).snoopAnswer a line rspKeptOwned dest (some (d, p, false)) := by
  rw [State.takeSnpShr, h]

theorem State.takeSnpShr_of_o (h : s.copyOf a line = some (.o, d, p, wb)) (dest : SnpDest) :
    s.takeSnpShr a line dest = s.snoopAnswer a line rspKeptOwned dest (some (d, p, false)) := by
  rw [State.takeSnpShr, h]

theorem State.takeSnpShr_of_none (h : s.copyOf a line = none) (dest : SnpDest) :
    s.takeSnpShr a line dest = s.snoopAnswer a line rspNotPresent dest none := by
  rw [State.takeSnpShr, h]

theorem State.takeSnpInv_of_s (h : s.copyOf a line = some (.s, d, p, wb)) (dest : SnpDest) :
    s.takeSnpInv a line dest = (s.setCopy a line wb none).snoopAnswer a line rspInvalidated .nowhere none := by
  rw [State.takeSnpInv, h]

theorem State.takeSnpInv_of_ne_s {st : LineState} (hst : st ≠ .s) (h : s.copyOf a line = some (st, d, p, wb))
    (dest : SnpDest) : s.takeSnpInv a line dest =
      (s.setCopy a line wb none).snoopAnswer a line rspInvalidated dest (some (d, p, st != .e)) := by
  rw [State.takeSnpInv, h]
  cases st with
  | s => exact absurd rfl hst
  | m => rfl
  | o => rfl
  | e => rfl

theorem State.takeSnpInv_of_none (h : s.copyOf a line = none) (dest : SnpDest) :
    s.takeSnpInv a line dest = s.snoopAnswer a line rspNotPresent dest none := by
  rw [State.takeSnpInv, h]

theorem State.takeSnpCur_of_ne_s {st : LineState} (hst : st ≠ .s) (h : s.copyOf a line = some (st, d, p, wb)) :
    s.takeSnpCur a line = s.snoopAnswer a line rspKeptOwned .home (some (d, p, false)) := by
  rw [State.takeSnpCur, h]
  cases st with
  | s => exact absurd rfl hst
  | m => rfl
  | o => rfl
  | e => rfl

theorem State.takeSnpCur_of_none (h : s.copyOf a line = none) :
    s.takeSnpCur a line = s.snoopAnswer a line rspNotPresent .home none := by
  rw [State.takeSnpCur, h]

end

/-- The data that a snoop has sent goes home but for RdS, RdX and Upg, whose requester takes it (R327). -/
theorem State.takeSnpRsp_eq (s : State) (a line kind : Nat) (sent : Bool) (t : Trans) :
    s.takeSnpRsp a line kind sent t = (s.setTrans line { t with
      waiting := t.waiting.erase a, answers := t.answers ++ [(a, kind)]
      due := t.due + (if sent && !(t.kind == .rdS || t.kind == .rdX || t.kind == .upg) then 1 else 0) }).checkTrans
        line := by
  cases hkind : t.kind <;> rw [State.takeSnpRsp, hkind] <;> cases sent <;> rfl

/-! ### What a request is answered (R330, R331, R336) -/

section

variable {s : State} {a line : Nat} {q : CReq} (hreq : s.cohReq a line = some q)
include hreq

theorem State.takeNack_of_req :
    s.takeNack a line = s.setCohReq a line { q with nacks := q.nacks + 1, sent := false } := by
  rw [State.takeNack, hreq]

theorem State.takeCmp_of_grant (g : LineState) :
    s.takeCmp a line (some g) = (s.setCohReq a line { q with gotGrant := some g }).install a line := by
  unfold State.takeCmp
  rw [hreq]

/-- The end of a request that is no write-back. -/
theorem State.takeCmp_of_end (hd : q.kind ≠ .wbD) (hc : q.kind ≠ .wbC) :
    s.takeCmp a line none = s.dropCohReq a line := by
  unfold State.takeCmp
  rw [hreq]
  dsimp only
  split
  next heq _ => exact absurd heq hd
  next heq _ => exact absurd heq hc
  next => rfl

/-- The end of a WbD gives its buffer up (R341). -/
theorem State.takeCmp_of_wbD {w : WbBuf} (hkind : q.kind = .wbD)
    (hwb : Table.find ((s.dropCohReq a line).agent a).wbs line = some w) :
    s.takeCmp a line none = (s.dropCohReq a line).dropWb a line := by
  unfold State.takeCmp
  rw [hreq]
  dsimp only
  rw [hkind, hwb]

/-- The end of a WbC that the home has taken, and no snoop superseded, leaves the line clean in the free way. -/
theorem State.takeCmp_of_wbC {w : WbBuf} {n : Nat} (hkind : q.kind = .wbC)
    (hwb : Table.find ((s.dropCohReq a line).agent a).wbs line = some w)
    (hway : ((s.dropCohReq a line).dropWb a line).freeWay a line = some n) (htaken : w.taken = true)
    (hlive : w.superseded = false) : s.takeCmp a line none =
      ((s.dropCohReq a line).dropWb a line).setLine a line ⟨w.st.cleaned, w.data, w.poison, n⟩ := by
  unfold State.takeCmp
  rw [hreq]
  dsimp only
  rw [hkind, hwb]
  dsimp only
  rw [hway, htaken, hlive]
  rfl

theorem State.takeData_of_rdCur (hkind : q.kind = .rdCur) (d : Line) (p : BitVec 4) (dirty : Bool)
    (grant : Option LineState) : s.takeData a line d p dirty grant = s.dropCohReq a line := by
  rw [State.takeData, hreq]
  exact if_pos hkind

theorem State.takeData_of_ne_rdCur (hkind : q.kind ≠ .rdCur) (d : Line) (p : BitVec 4) (dirty : Bool)
    (grant : Option LineState) : s.takeData a line d p dirty grant = (s.setCohReq a line { q with
      gotData := some (d, p, dirty)
      gotGrant := match grant with
        | some x => some x
        | none => q.gotGrant }).install a line := by
  rw [State.takeData, hreq]
  exact if_neg hkind

end

section

variable {s s1 : State} {a line x : Nat} {grant : Option LineState} {q : CReq} {m : CMsg} (hready : s.ready = true)
  (htake : s.cohTake (fun m => match m with
    | .cmp x l _ => x == a && l == line
    | _ => false) = some (.cmp x line grant, s1))
  (hreq : s1.cohReq a line = some q)
include hready htake hreq

theorem exec_cmp_of_done (hfailed : q.failed = none) :
    exec (.cmp a line) s = .next (s1.takeCmp a line grant).coresMeet := by
  rw [exec_cmp]
  refine (onMessage_of_take hready htake _).trans ?_
  dsimp only
  rw [hreq]
  dsimp only
  rw [hfailed]

/-- An AtomH that met poison fails its context (19 Table 19.3). -/
theorem exec_cmp_of_failed {addr : Nat} (hfailed : q.failed = some addr) :
    exec (.cmp a line) s = .next ((s1.takeCmp a line grant).coresMeet.countConsumed.ctxFail q.ctx Code.poison
      { die := cacheDie a, addr := addr, addrKind := 2 } none) := by
  rw [exec_cmp]
  refine (onMessage_of_take hready htake _).trans ?_
  dsimp only
  rw [hreq]
  dsimp only
  rw [hfailed]

end

section

variable {s s1 : State} {a line x : Nat} {d : Line} {p : BitVec 4} {dirty : Bool} {grant : Option LineState}
  (hready : s.ready = true)
  (htake : s.cohTake (fun m => match m with
    | .data x l _ _ _ _ => x == a && l == line
    | _ => false) = some (.data x line d p dirty grant, s1))
include hready htake

/-- Data at the home meets the upset in the home die's cache. -/
theorem exec_lineData_of_home (ha : a = homeDest) (u : Upset) : exec (.lineData a line u) s =
    .next ((s1.dataError (s1.homeOf line / 5) line 63 u).homeGets line d (p ||| spoiled u)).settled := by
  have hcache : s1.dataCache a line = some (s1.homeOf line / 5) := if_pos ha
  rw [exec_lineData]
  refine (onMessage_of_take hready htake _).trans ?_
  dsimp only
  rw [hcache, if_pos ha]
  rfl

/-- Data at a requester meets the upset in its own cache, if it has one. -/
theorem exec_lineData_of_requester (ha : a ≠ homeDest) (u : Upset) : exec (.lineData a line u) s =
    .next ((if a < 14 then s1.dataError a line 63 u else s1).takeData a line d
      (if a < 14 then p ||| spoiled u else p) dirty grant).coresMeet := by
  have hcache : s1.dataCache a line = if a < 14 then some a else none := if_neg ha
  rw [exec_lineData]
  refine (onMessage_of_take hready htake _).trans ?_
  dsimp only
  rw [hcache, if_neg ha]
  by_cases hsmall : a < 14
  · simp only [if_pos hsmall]
    rfl
  · simp only [if_neg hsmall]
    rfl

end

/-! ### What is granted is installed (R330, R331) -/

/-- The messages in flight and the requests of agent `a` are in `t` what they are in `s`. -/
structure SameTraffic (a : Nat) (s t : State) : Prop where
  msgs : t.coh.msgs = s.coh.msgs
  reqs : (t.agent a).reqs = (s.agent a).reqs

section

variable {a line : Nat} {s t : State} (h : SameTraffic a s t)
include h

theorem SameTraffic.setLine (l : CLine) : SameTraffic a s (t.setLine a line l) :=
  ⟨h.msgs, by rw [State.agent_setLine, h.reqs]⟩

theorem SameTraffic.lineWrite (l : CLine) (d : Line) (mask : BitVec 128) (k : Option Nat) :
    SameTraffic a s (t.lineWrite a line l d mask k) := by
  obtain ⟨hmsgs, hreqs⟩ := h.setLine (line := line)
    { l with st := .m, data := mergeLine l.data d mask, poison := l.poison &&& ~~~ wholeSectors mask }
  exact ⟨hmsgs, hreqs⟩

theorem SameTraffic.setCore (k : Nat) (c : Core) : SameTraffic a s (t.setCore k c) := ⟨h.msgs, h.reqs⟩

theorem SameTraffic.coreLoad (k : Nat) (l : CLine) (off n : Nat) (rsv : Option Nat) :
    SameTraffic a s (t.coreLoad k line l off n rsv) := by
  unfold State.coreLoad
  split
  · exact h.setCore k _
  · exact h.setCore k _

theorem SameTraffic.readUse (l : CLine) (u : LineUse) : SameTraffic a s (t.readUse line l u) := by
  unfold State.readUse
  split
  · exact h.coreLoad _ _ _ _ _
  · exact h

theorem SameTraffic.writeUse (l : CLine) (u : LineUse) (d : Line) (mask : BitVec 128) :
    SameTraffic a s (t.writeUse a line l u d mask) := by
  unfold State.writeUse
  split
  next =>
    dsimp only
    split
    · exact (h.setLine _).coreLoad _ _ _ _ _
    · exact ((h.setLine _).coreLoad _ _ _ _ _).lineWrite _ _ _ _
  next => exact (h.setLine _).coreLoad _ _ _ _ _
  next =>
    dsimp only
    split
    · exact (h.lineWrite _ _ _ _).setCore _ _
    · exact (h.setLine _).setCore _ _
  next => exact h.lineWrite _ _ _ _

end

@[simp] theorem State.agent_cohSend (s : State) (m : CMsg) (a : Nat) : (s.cohSend m).agent a = s.agent a := rfl

/-- A read of a held line changes no line. -/
@[simp] theorem State.agent_readUse (s : State) (line : Nat) (l : CLine) (u : LineUse) (a : Nat) :
    (s.readUse line l u).agent a = s.agent a := by
  unfold State.readUse
  split
  · unfold State.coreLoad
    split <;> rfl
  · rfl

/-- The agent when its request has been answered: the request dropped, and the way touched. -/
def State.answered (s : State) (a line : Nat) (q : CReq) : State :=
  (s.dropCohReq a line).touchWay a line q.way q.use.noalloc

theorem State.answered_traffic (s : State) (a line : Nat) (q : CReq) :
    (s.answered a line q).cohReq a line = none ∧ (s.answered a line q).coh.msgs = s.coh.msgs := by
  refine ⟨?_, rfl⟩
  obtain ⟨trees, htrees⟩ := (s.dropCohReq a line).agent_touchWay a line q.way q.use.noalloc
  rw [State.answered, State.cohReq, htrees, State.agent_dropCohReq, Table.find_erase, if_pos rfl]

/-- The line comes with its data and grant: a read takes it as granted, a write in M. -/
theorem State.install_of_data {s : State} {a line : Nat} {q : CReq} {d : Line} {p : BitVec 4} {dirty : Bool}
    {g : LineState} (hreq : s.cohReq a line = some q) (hdata : q.gotData = some (d, p, dirty))
    (hgrant : q.gotGrant = some g) (hfree : Table.find (s.agent a).lines line = none) :
    s.install a line = (if q.kind = .rdS then
      ((s.answered a line q).setLine a line ⟨g, d, p, q.way⟩).readUse line ⟨g, d, p, q.way⟩ q.use
      else (s.answered a line q).writeUse a line ⟨.m, d, p, q.way⟩ q.use q.data q.mask).cohSend (.ack a line) := by
  rw [State.install, hreq]
  dsimp only
  rw [hdata, hgrant, hfree]
  rfl

/-- After the answer, the access leaves no request and no message. -/
theorem State.cohSend_traffic {s t u : State} {a line : Nat} (m : CMsg)
    (hs : t.cohReq a line = none ∧ t.coh.msgs = s.coh.msgs) (h : SameTraffic a t u) :
    (u.cohSend m).cohReq a line = none ∧ (u.cohSend m).coh.msgs = s.coh.msgs ++ [m] := by
  obtain ⟨hreq, hmsgs⟩ := hs
  refine ⟨?_, ?_⟩
  · have hreqs : (u.cohSend m).cohReq a line = t.cohReq a line := congrArg (Table.find · line) h.reqs
    rw [hreqs, hreq]
  · have hsent : (u.cohSend m).coh.msgs = u.coh.msgs ++ [m] := rfl
    rw [hsent, h.msgs, hmsgs]

end Sys2Proof.Machine

section

open Sys2Proof Sys2Proof.Machine

/-- Settles O43: a message in flight is taken (`onMessage_of_take`), and what its taking does is the case lemma of the
copy, the request or the transaction that it meets; an install is its access past `answered`, which leaves no request
(`cohSend_traffic`). -/
theorem coherenceMessages : Obligations.CoherenceMessages := by
  unfold Obligations.CoherenceMessages
  refine ⟨fun s a line hready => ⟨fun s1 x dest htake => ?snpshr, fun s1 x dest htake => ?snpinv,
    fun s1 m htake => ?snpcur, fun s1 x kind sent t htake htrans => ?snprsp,
    fun s1 x grant q htake hreq => ?cmp, fun s1 m q htake hreq => ?nack, fun s1 m htake => ?installAck,
    fun s1 x d p dirty grant u htake => ?lineData⟩,
    fun s a line q d p dirty g hreq hdata hgrant hfree => ?install⟩
  case snpshr =>
    have hexec : exec (.snpshr a line) s = .next (s1.takeSnpShr a line dest) :=
      (exec_snpshr ..).trans (onMessage_of_take hready htake _)
    rw [hexec]
    exact ⟨fun d p wb h => congrArg _ (State.takeSnpShr_of_e h dest),
      fun d p wb h => congrArg _ (State.takeSnpShr_of_m h dest),
      fun d p wb h => congrArg _ (State.takeSnpShr_of_o h dest), fun h => congrArg _ (State.takeSnpShr_of_none h dest)⟩
  case snpinv =>
    have hexec : exec (.snpinv a line) s = .next (s1.takeSnpInv a line dest) :=
      (exec_snpinv ..).trans (onMessage_of_take hready htake _)
    rw [hexec]
    exact ⟨fun d p wb h => congrArg _ (State.takeSnpInv_of_s h dest),
      fun st d p wb hst h => congrArg _ (State.takeSnpInv_of_ne_s hst h dest),
      fun h => congrArg _ (State.takeSnpInv_of_none h dest)⟩
  case snpcur =>
    have hexec : exec (.snpcur a line) s = .next (s1.takeSnpCur a line) :=
      (exec_snpcur ..).trans (onMessage_of_take hready htake _)
    rw [hexec]
    exact ⟨fun st d p wb hst h => congrArg _ (State.takeSnpCur_of_ne_s hst h),
      fun h => congrArg _ (State.takeSnpCur_of_none h)⟩
  case snprsp =>
    rw [exec_snprsp, execSnprsp, htrans]
    refine (onMessage_of_take hready htake _).trans ?_
    dsimp only
    rw [State.takeSnpRsp_eq]
  case cmp =>
    refine ⟨fun g hgrant hfailed => ?_, fun hgrant hd hc => ⟨fun hfailed => ?_, fun addr hfailed => ?_⟩,
      fun w hgrant hfailed hwb => ⟨fun hkind => ?_, fun n hkind hway htaken hlive => ?_⟩⟩
    · rw [exec_cmp_of_done hready htake hreq hfailed, hgrant, State.takeCmp_of_grant hreq]
    · rw [exec_cmp_of_done hready htake hreq hfailed, hgrant, State.takeCmp_of_end hreq hd hc]
    · rw [exec_cmp_of_failed hready htake hreq hfailed, hgrant, State.takeCmp_of_end hreq hd hc]
    · rw [exec_cmp_of_done hready htake hreq hfailed, hgrant, State.takeCmp_of_wbD hreq hkind hwb]
    · rw [exec_cmp_of_done hready htake hreq hfailed, hgrant,
        State.takeCmp_of_wbC hreq hkind hwb hway htaken hlive]
  case nack =>
    refine (exec_nack ..).trans ((onMessage_of_take hready htake _).trans ?_)
    rw [State.takeNack_of_req hreq]
  case installAck => exact (exec_installAck ..).trans (onMessage_of_take hready htake _)
  case lineData =>
    refine ⟨fun ha => exec_lineData_of_home hready htake ha u, fun ha q hreq => ⟨fun hkind => ?_, fun hkind => ?_⟩⟩
    · rw [exec_lineData_of_requester hready htake ha, State.takeData_of_rdCur hreq hkind]
    · rw [exec_lineData_of_requester hready htake ha]
      exact congrArg (fun t : State => Host.Outcome.next t.coresMeet) (State.takeData_of_ne_rdCur hreq hkind _ _ _ _)
  case install =>
    have htraffic := s.answered_traffic a line q
    have hsame : SameTraffic a (s.answered a line q) (s.answered a line q) := ⟨rfl, rfl⟩
    rw [State.install_of_data hreq hdata hgrant hfree]
    dsimp only
    refine and_assoc.mp ⟨?_, fun hkind => ?_, fun na hkind huse => ?_⟩
    · split
      · exact State.cohSend_traffic _ htraffic ((hsame.setLine _).readUse _ _)
      · exact State.cohSend_traffic _ htraffic (hsame.writeUse _ _ _ _)
    · rw [if_pos hkind, State.agent_cohSend, State.agent_readUse, State.agent_setLine, Table.find_insert_self]
    · rw [if_neg (by rw [hkind]; decide), huse, State.agent_cohSend, State.writeUse_unit_line]

end

namespace Sys2Proof.Machine

/-! ### The Sweep engines (R345, R346) -/

section

variable {s : State} (hready : s.ready = true)
include hready

/-- A write of GLB_SWP_CTRLn is the command that its OP bit names. -/
theorem exec_clean_or_cleanInv {n : Nat} (hn : n < 5) (m : Master) (v : Word) :
    (v.getLsbD 60 = false → exec (.clean m n v) s = .next (s.swpCtrlWrite n v)) ∧
      (v.getLsbD 60 = true → exec (.cleanInv m n v) s = .next (s.swpCtrlWrite n v)) := by
  have hsmall : decide (5 ≤ n) = false := decide_eq_false (Nat.not_le_of_lt hn)
  refine ⟨fun hop => ?_, fun hop => ?_⟩
  · have hbit : bit v.toNat 60 = false := hop
    rw [exec_clean, execClean, hready, hsmall, hbit]
    rfl
  · have hbit : bit v.toNat 60 = true := hop
    rw [exec_cleanInv, execCleanInv, hready, hsmall, hbit]
    rfl

end

theorem State.swpCtrlWrite_of_busy {s : State} {n : Nat} (h : s.swpBusy n = true) (v : Word) :
    s.swpCtrlWrite n v = s.satRf (.glbSwpCtrl n) .refused 1 := if_pos h

/-! ### The stacks (11 R367 to R370) -/

section

variable {s : State} (hready : s.ready = true)
include hready

theorem State.rails_of_ready : s.board.rails = true ∧ s.fatal = false := by
  simp only [State.ready, Bool.and_eq_true, Bool.not_eq_true'] at hready
  exact ⟨hready.1.2, hready.2⟩

variable {st : Nat} (hst : st < 20) (htrained : s.rbit (.glbMemStat st) .trained = true)
include hst htrained

/-- A trained stack of a package that runs is in service. -/
theorem State.stackRuns_of_trained : s.stackRuns st = true := by
  obtain ⟨hrails, hfatal⟩ := State.rails_of_ready hready
  rw [State.stackRuns, hrails, hfatal, htrained, decide_eq_true hst]
  rfl

end

/-- A flag of R370, as it is stored: set above its threshold, and left 3 °C below it. -/
theorem bval_hysteresis (was : Bool) {t high low : Int} (h : high - 3 = low) :
    bval (hysteresis was t high) = if high < t ∨ (was = true ∧ low < t) then 1 else 0 := by
  subst h
  simp only [bval, hysteresis, Bool.or_eq_true, Bool.and_eq_true, decide_eq_true_eq]

end Sys2Proof.Machine

section

open Sys2Proof Sys2Proof.Machine

/-- Settles O44: a GO write is the command of its OP bit (`exec_clean_or_cleanInv`), and a trained stack of a running
package is in service (`stackRuns_of_trained`); past those guards each command is the update stated. -/
theorem sweepAndHbm : Obligations.SweepAndHbm := by
  unfold Obligations.SweepAndHbm
  refine fun s hready => ⟨fun m n v hn hbusy => ?busy, fun m n v hn hbusy hgo => ?go, fun n w hsweep => ?done,
    fun st hst htrained => ?stack⟩
  case busy =>
    rw [← State.swpCtrlWrite_of_busy hbusy v]
    exact exec_clean_or_cleanInv hready hn m v
  case go =>
    have hwrite := exec_clean_or_cleanInv hready hn m v
    have hbit : bit v.toNat 63 = true := hgo
    rw [State.swpCtrlWrite, hbusy, if_neg Bool.false_ne_true, hbit] at hwrite
    exact hwrite
  case done =>
    dsimp only
    refine ⟨fun hleft => ?_, fun hleft => ?_⟩
    · rw [exec_sweepDone, execSweepDone, hsweep]
      dsimp only
      rw [hready]
      exact if_pos hleft
    · rw [exec_sweepDone, execSweepDone, hsweep]
      dsimp only
      rw [hready]
      exact if_neg hleft
  case stack =>
    have hruns := State.stackRuns_of_trained hready hst htrained
    refine ⟨fun flips onDie henable => ?scrub, fun bank hbank => ?banks, fun t => ?temp, fun sector => ?parity⟩
    case scrub =>
      intro n line htrans
      have hidle : (s.transOf line).isSome = false := congrArg Option.isSome htrans
      rw [exec_scrubRead, execScrubRead]
      dsimp only
      rw [hready, hruns, henable]
      exact if_neg (Bool.eq_false_iff.mp hidle)
    case banks =>
      have hsmall : decide (3072 ≤ bank) = false := decide_eq_false (Nat.not_le_of_lt hbank)
      refine ⟨?_, fun hacts => ?_⟩
      · rw [exec_refresh, execRefresh]
        dsimp only
        rw [hruns, hsmall]
        rfl
      · rw [exec_rfm, execRfm]
        dsimp only
        rw [hruns, hsmall, decide_eq_false (Nat.not_lt_of_le hacts)]
        rfl
    case temp =>
      rw [exec_hbmTempRead, execHbmTempRead, hruns]
      dsimp only
      rw [bval_hysteresis _ (show (85 : Int) - 3 = 82 from rfl), bval_hysteresis _ (show (95 : Int) - 3 = 92 from rfl)]
      exact ⟨fun hcool => congrArg Host.Outcome.next (if_neg (Int.not_lt.mpr hcool)),
        fun hhot => congrArg Host.Outcome.next (if_pos hhot)⟩
    case parity =>
      refine ⟨?_, ?_⟩
      · rw [exec_parityRetry, execParityRetry, hruns]
        rfl
      · rw [exec_parityRetry, execParityRetry, hruns]
        rfl

end

/-! ### Placement in the stacks: the two regions and their inverse (11_hbm_memory.md R354) -/

namespace Sys2Proof.Machine

/-- Below four times 5 x LOCAL_K GiB. -/
theorem stackPlace_of_local {k p : Nat} (h : p < 4 * (5 * k * gib)) :
    stackPlace k p =
      (5 * (p / (5 * k * gib)) + (p - p / (5 * k * gib) * (5 * k * gib)) / 512 % 5,
        (p - p / (5 * k * gib) * (5 * k * gib)) / 512 / 5 * 512 + (p - p / (5 * k * gib) * (5 * k * gib)) % 512) :=
  if_pos h

/-- From four times 5 x LOCAL_K GiB up. -/
theorem stackPlace_of_interleaved {k p : Nat} (h : 4 * (5 * k * gib) ≤ p) :
    stackPlace k p =
      ((p - 4 * (5 * k * gib)) / 512 % 20,
        k * gib + (p - 4 * (5 * k * gib)) / 512 / 20 * 512 + (p - 4 * (5 * k * gib)) % 512) :=
  if_neg (Nat.not_lt.mpr h)

theorem stackUnplace_of_local {k s a : Nat} (h : a < k * gib) :
    stackUnplace k s a = s / 5 * (5 * k * gib) + (a / 512 * 5 + s % 5) * 512 + a % 512 :=
  if_pos h

theorem stackUnplace_of_interleaved {k s a : Nat} (h : k * gib ≤ a) :
    stackUnplace k s a =
      4 * (5 * k * gib) + ((a - k * gib) / 512 * 20 + s) * 512 + (a - k * gib) % 512 :=
  if_neg (Nat.not_lt.mpr h)

/-- A local address is an offset `o` in the region of its die `d`. -/
theorem exists_die_of_local {k p : Nat} (h : p < 4 * (5 * k * gib)) :
    ∃ d o, d < 4 ∧ o < 5 * k * gib ∧ p = d * (5 * k * gib) + o :=
  have hpos : 0 < 5 * k * gib := by omega
  ⟨p / (5 * k * gib), p % (5 * k * gib), (Nat.div_lt_iff_lt_mul hpos).mpr h, Nat.mod_lt _ hpos,
    (Nat.div_add_mod' _ _).symm⟩

/-- The granules of a die's region take turns over its five stacks. -/
theorem stackPlace_die {k d o : Nat} (hd : d < 4) (ho : o < 5 * k * gib) :
    stackPlace k (d * (5 * k * gib) + o) = (5 * d + o / 512 % 5, o / 512 / 5 * 512 + o % 512) := by
  have hlocal : d * (5 * k * gib) + o < 4 * (5 * k * gib) :=
    calc d * (5 * k * gib) + o < d * (5 * k * gib) + 5 * k * gib := Nat.add_lt_add_left ho _
      _ = (d + 1) * (5 * k * gib) := (Nat.succ_mul ..).symm
      _ ≤ 4 * (5 * k * gib) := Nat.mul_le_mul_right _ hd
  have hdie : (d * (5 * k * gib) + o) / (5 * k * gib) = d := by
    rw [Nat.add_comm, Nat.add_mul_div_right _ _ (Nat.zero_lt_of_lt ho), Nat.div_eq_of_lt ho, Nat.zero_add]
  rw [stackPlace_of_local hlocal, hdie, Nat.add_sub_cancel_left]

/-- A die's local addresses fill the first LOCAL_K GiB of its stacks. -/
theorem stackPlace_snd_lt_of_local {k p : Nat} (h : p < 4 * (5 * k * gib)) : (stackPlace k p).2 < k * gib := by
  obtain ⟨d, o, hd, ho, rfl⟩ := exists_die_of_local h
  rw [stackPlace_die hd ho]
  dsimp only [gib] at *
  omega

theorem stackPlace_fst_lt (k p : Nat) : (stackPlace k p).1 < 20 := by
  rcases Nat.lt_or_ge p (4 * (5 * k * gib)) with hlocal | hinter
  · obtain ⟨d, o, hd, ho, rfl⟩ := exists_die_of_local hlocal
    rw [stackPlace_die hd ho]
    dsimp only
    omega
  · rw [stackPlace_of_interleaved hinter]
    exact Nat.mod_lt _ (by omega)

theorem stackPlace_snd_lt {k p : Nat} (hk : k ≤ 48) (hp : p < 960 * gib) : (stackPlace k p).2 < 48 * gib := by
  rcases Nat.lt_or_ge p (4 * (5 * k * gib)) with hlocal | hinter
  · exact Nat.lt_of_lt_of_le (stackPlace_snd_lt_of_local hlocal) (Nat.mul_le_mul_right _ hk)
  · rw [stackPlace_of_interleaved hinter]
    dsimp only [gib] at *
    omega

/-- The placement loses nothing: `stackUnplace` finds the address again. -/
theorem stackUnplace_stackPlace (k p : Nat) : stackUnplace k (stackPlace k p).1 (stackPlace k p).2 = p := by
  rcases Nat.lt_or_ge p (4 * (5 * k * gib)) with hlocal | hinter
  · rw [stackUnplace_of_local (stackPlace_snd_lt_of_local hlocal)]
    obtain ⟨d, o, hd, ho, rfl⟩ := exists_die_of_local hlocal
    have hdie : (5 * d + o / 512 % 5) / 5 = d := by omega
    rw [stackPlace_die hd ho]
    dsimp only
    rw [hdie]
    omega
  · have hplace := stackPlace_of_interleaved hinter
    rw [stackUnplace_of_interleaved (by rw [hplace]; dsimp only; omega), hplace]
    dsimp only
    omega

theorem stackPlace_injective (k : Nat) : Function.Injective (stackPlace k) := fun p q h => by
  rw [← stackUnplace_stackPlace k p, h, stackUnplace_stackPlace]

/-- Every place is the place of the address `stackUnplace` gives. -/
theorem stackPlace_stackUnplace {k n a : Nat} (hn : n < 20) : stackPlace k (stackUnplace k n a) = (n, a) := by
  rcases Nat.lt_or_ge a (k * gib) with hlocal | hinter
  · have ho : (a / 512 * 5 + n % 5) * 512 + a % 512 < 5 * k * gib := by dsimp only [gib] at *; omega
    rw [stackUnplace_of_local hlocal, Nat.add_assoc, stackPlace_die (by omega) ho, Prod.mk.injEq]
    omega
  · rw [stackUnplace_of_interleaved hinter, stackPlace_of_interleaved (by omega), Prod.mk.injEq]
    omega

theorem stackUnplace_lt {k n a : Nat} (hk : k ≤ 48) (hn : n < 20) (ha : a < 48 * gib) :
    stackUnplace k n a < 960 * gib := by
  rcases Nat.lt_or_ge a (k * gib) with hlocal | hinter
  · have hdie : n / 5 * (5 * k * gib) ≤ 3 * (5 * k * gib) := Nat.mul_le_mul_right _ (by omega)
    rw [stackUnplace_of_local hlocal]
    dsimp only [gib] at *
    omega
  · rw [stackUnplace_of_interleaved hinter]
    dsimp only [gib] at *
    omega

/-- Bytes of one granule lie in one stack. The die's region is a whole number of granules. -/
theorem stackPlace_fst_congr {k p q : Nat} (h : p / 512 = q / 512) : (stackPlace k p).1 = (stackPlace k q).1 := by
  rcases Nat.lt_or_ge p (4 * (5 * k * gib)) with hlocal | hinter
  · have hlocal' : q < 4 * (5 * k * gib) := by dsimp only [gib] at *; omega
    obtain ⟨g, hg⟩ : ∃ g, 5 * k * gib = 512 * g := ⟨5 * k * 2 ^ 21, by dsimp only [gib]; omega⟩
    have hdie : p / (512 * g) = q / (512 * g) := by
      rw [← Nat.div_div_eq_div_mul, h, Nat.div_div_eq_div_mul]
    rw [stackPlace_of_local hlocal, stackPlace_of_local hlocal', hg, hdie, Nat.mul_left_comm]
    dsimp only
    omega
  · have hinter' : 4 * (5 * k * gib) ≤ q := by dsimp only [gib] at *; omega
    rw [stackPlace_of_interleaved hinter, stackPlace_of_interleaved hinter']
    dsimp only [gib] at *
    omega

theorem State.homeOf_congr (s : State) {line other : Nat} (h : line / 4 = other / 4) :
    s.homeOf line = s.homeOf other := by
  rw [State.homeOf_eq_fun]
  exact stackPlace_fst_congr (by omega)

end Sys2Proof.Machine

section

open Sys2Proof Sys2Proof.Machine

/-- Settles O56: `stackUnplace` is the placement's inverse on both sides (11_hbm_memory.md R354). -/
theorem placement : Obligations.Placement := by
  unfold Obligations.Placement
  intro k hk
  refine ⟨fun p hp => ⟨fun hlocal => stackPlace_of_local hlocal, fun hinter => stackPlace_of_interleaved hinter,
      stackPlace_fst_lt k p, stackPlace_snd_lt hk hp⟩,
    fun p q _ _ hpq => stackPlace_injective k hpq,
    fun n a hn ha => ⟨stackUnplace k n a, stackUnplace_lt hk hn ha, stackPlace_stackUnplace hn⟩,
    fun p q hpq => stackPlace_fst_congr hpq,
    fun s line other hline => s.homeOf_congr hline⟩

end

/-! ### Arithmetic of GF(16) (11_hbm_memory.md R356) -/

namespace Sys2Proof.Machine

/-- Multiplication by x, reduced by x^4 + x + 1: the doubling of `gfMul`. -/
def gfDouble (a : Nat) : Nat := if 16 ≤ a * 2 then a * 2 ^^^ 19 else a * 2

theorem gfDouble_lt : ∀ a < 16, gfDouble a < 16 := by decide

theorem gfDouble_xor : ∀ a < 16, ∀ b < 16, gfDouble (a ^^^ b) = gfDouble a ^^^ gfDouble b := by decide

/-- One step of `gfMul`: the multiple `m` of the first factor is added where bit `i` of the second is set. -/
def gfTerm (b i m : Nat) : Nat := if b.testBit i then m else 0

theorem gfTerm_xor (b i m m' : Nat) : gfTerm b i (m ^^^ m') = gfTerm b i m ^^^ gfTerm b i m' := by
  unfold gfTerm
  split <;> rfl

theorem gfTerm_lt {m : Nat} (b i : Nat) (h : m < 16) : gfTerm b i m < 16 := by
  unfold gfTerm
  split <;> omega

theorem gfMul_eq_terms (a b : Nat) :
    gfMul a b = gfTerm b 0 a ^^^ gfTerm b 1 (gfDouble a) ^^^ gfTerm b 2 (gfDouble (gfDouble a)) ^^^
      gfTerm b 3 (gfDouble (gfDouble (gfDouble a))) := by
  have hstep (acc m i : Nat) : (if b.testBit i then acc ^^^ m else acc) = acc ^^^ gfTerm b i m := by
    unfold gfTerm
    split <;> simp
  have hfold : gfMul a b =
      ((List.range 4).foldl (fun acc i => (acc.1 ^^^ gfTerm b i acc.2, gfDouble acc.2)) (0, a)).1 := by
    simp only [gfMul, hstep]
    rfl
  rw [hfold]
  simp [List.range_succ]

theorem gfMul_lt {a : Nat} (ha : a < 16) (b : Nat) : gfMul a b < 16 := by
  have h1 := gfDouble_lt a ha
  have h2 := gfDouble_lt _ h1
  have h3 := gfDouble_lt _ h2
  rw [gfMul_eq_terms]
  exact Nat.xor_lt_two_pow (n := 4) (Nat.xor_lt_two_pow (Nat.xor_lt_two_pow (gfTerm_lt b 0 ha) (gfTerm_lt b 1 h1))
    (gfTerm_lt b 2 h2)) (gfTerm_lt b 3 h3)

theorem gfMul_xor_left {a a' : Nat} (ha : a < 16) (ha' : a' < 16) (b : Nat) :
    gfMul (a ^^^ a') b = gfMul a b ^^^ gfMul a' b := by
  have h1 := gfDouble_lt a ha
  have h1' := gfDouble_lt a' ha'
  rw [gfMul_eq_terms, gfMul_eq_terms a, gfMul_eq_terms a', gfDouble_xor a ha a' ha', gfDouble_xor _ h1 _ h1',
    gfDouble_xor _ (gfDouble_lt _ h1) _ (gfDouble_lt _ h1')]
  simp only [gfTerm_xor]
  ac_rfl

@[simp] theorem gfMul_zero_left (b : Nat) : gfMul 0 b = 0 := by
  simp [gfMul_eq_terms, gfTerm, gfDouble]

@[simp] theorem gfMul_zero_right (a : Nat) : gfMul a 0 = 0 := by
  simp [gfMul_eq_terms, gfTerm]

@[simp] theorem gfMul_one_right (a : Nat) : gfMul a 1 = a := by
  simp [gfMul_eq_terms, gfTerm, Nat.testBit_one_eq_true_iff_self_eq_zero]

theorem gfMul_gfOmega_comm : ∀ a < 16, gfMul a gfOmega = gfMul gfOmega a := by decide

/-- Division undoes multiplication. -/
theorem gfDiv_gfMul : ∀ e < 16, 0 < e → ∀ a < 16, gfDiv (gfMul e a) e = a := by decide +kernel

/-! ### The syndrome, entry by entry (11_hbm_memory.md R357, R359) -/

/-- An entry of a symbol's column. -/
def columnEntry (j n : Nat) : Nat := (column n).getD j 0

/-- An entry of `symbolSum`. -/
def symbolEntry (j : Nat) : Nat → Nat → Nat
  | 0, _ => 0
  | n + 1, x => symbolEntry j n x ^^^ gfMul (bits x (4 * n) 4) (columnEntry j n)

theorem column_eq_entries (n : Nat) :
    column n = [columnEntry 0 n, columnEntry 1 n, columnEntry 2 n, columnEntry 3 n] := by
  unfold columnEntry column
  split <;> rfl

theorem symbolSum_succ (n x : Nat) :
    symbolSum (n + 1) x = if bits x (4 * n) 4 = 0 then symbolSum n x
      else List.zipWith (fun y h => y ^^^ gfMul (bits x (4 * n) 4) h) (symbolSum n x) (column n) := by
  simp [symbolSum, List.range_succ]

theorem symbolSum_eq_entries (n x : Nat) :
    symbolSum n x = [symbolEntry 0 n x, symbolEntry 1 n x, symbolEntry 2 n x, symbolEntry 3 n x] := by
  induction n with
  | zero => rfl
  | succ n ih =>
    rw [symbolSum_succ, ih, column_eq_entries]
    by_cases hzero : bits x (4 * n) 4 = 0
    · simp [symbolEntry, hzero]
    · simp [symbolEntry, hzero]

theorem bits_lt (x lo w : Nat) : bits x lo w < 2 ^ w := Nat.mod_lt _ (Nat.two_pow_pos w)

theorem bits_xor (x y lo w : Nat) : bits (x ^^^ y) lo w = bits x lo w ^^^ bits y lo w := by
  simp only [bits, Nat.shiftRight_xor_distrib, Nat.xor_mod_two_pow]

/-- A symbol's value moved to its place is the digit there, and no other. -/
theorem bits_symbol {e : Nat} (he : e < 16) (n m : Nat) : bits (e <<< (4 * n)) (4 * m) 4 = if m = n then e else 0 := by
  apply Nat.eq_of_testBit_eq
  intro i
  rw [testBit_bits, Nat.testBit_shiftLeft]
  have hhigh (j : Nat) (hj : 4 ≤ j) : e.testBit j = false :=
    Nat.testBit_lt_two_pow (Nat.lt_of_lt_of_le he (Nat.pow_le_pow_right Nat.two_pos hj))
  rcases Nat.lt_trichotomy m n with h | rfl | h
  · have hdigit : ¬ (i < 4 ∧ 4 * n ≤ 4 * m + i) := by omega
    rw [if_neg (Nat.ne_of_lt h), Nat.zero_testBit, ← Bool.and_assoc, ← Bool.decide_and,
      decide_eq_false hdigit, Bool.false_and]
  · rcases Nat.lt_or_ge i 4 with hi | hi
    · simp [hi]
    · simp [hhigh i hi]
  · rw [if_neg (Nat.ne_of_gt h), Nat.zero_testBit, hhigh _ (by omega), Bool.and_false, Bool.and_false]

theorem symbolEntry_lt (j n x : Nat) : symbolEntry j n x < 16 := by
  induction n with
  | zero => exact Nat.zero_lt_succ 15
  | succ n ih => exact Nat.xor_lt_two_pow (n := 4) ih (gfMul_lt (bits_lt x _ 4) _)

/-- The code is linear. -/
theorem symbolEntry_xor (j n x y : Nat) : symbolEntry j n (x ^^^ y) = symbolEntry j n x ^^^ symbolEntry j n y := by
  induction n with
  | zero => simp only [symbolEntry, Nat.xor_self]
  | succ n ih =>
    simp only [symbolEntry]
    rw [ih, bits_xor, gfMul_xor_left (bits_lt x _ 4) (bits_lt y _ 4)]
    ac_rfl

/-- A single symbol adds its multiple of its column. -/
theorem symbolEntry_symbol {e : Nat} (he : e < 16) (j n m : Nat) :
    symbolEntry j m (e <<< (4 * n)) = if n < m then gfMul e (columnEntry j n) else 0 := by
  induction m with
  | zero => rfl
  | succ m ih =>
    rw [symbolEntry, ih, bits_symbol he]
    rcases Nat.lt_trichotomy n m with h | rfl | h
    · simp [h, Nat.ne_of_gt h, Nat.lt_succ_of_lt h]
    · simp
    · simp [Nat.ne_of_lt h, Nat.not_lt_of_gt h, Nat.not_lt.mpr (Nat.succ_le_of_lt h)]

theorem symbolEntry_of_lt {n m x : Nat} (j : Nat) (hm : n ≤ m) (hx : x < 2 ^ (4 * n)) :
    symbolEntry j m x = symbolEntry j n x := by
  induction hm with
  | refl => rfl
  | @step m hm ih =>
    have hdigit : bits x (4 * m) 4 = 0 := by
      have hpow : 2 ^ (4 * n) ≤ 2 ^ (4 * m) := Nat.pow_le_pow_right Nat.two_pos (Nat.mul_le_mul_left 4 hm)
      rw [bits, Nat.shiftRight_eq_zero x _ (Nat.lt_of_lt_of_le hx hpow), Nat.zero_mod]
    rw [symbolEntry, ih, hdigit, gfMul_zero_left, Nat.xor_zero]

/-! ### The stored word (11_hbm_memory.md R358, R363) -/

theorem add_mul_two_pow_eq_xor {b i : Nat} (h : b < 2 ^ i) (a : Nat) : b + a * 2 ^ i = b ^^^ a <<< i := by
  apply Nat.eq_of_testBit_eq
  intro j
  rw [Nat.add_comm, Nat.mul_comm, Nat.testBit_two_pow_mul_add a h, Nat.testBit_xor, Nat.testBit_shiftLeft]
  rcases Nat.lt_or_ge j i with hj | hj
  · simp [hj, Nat.not_le.mpr hj]
  · simp [hj, Nat.not_lt.mpr hj, Nat.testBit_lt_two_pow (Nat.lt_of_lt_of_le h (Nat.pow_le_pow_right Nat.two_pos hj))]

/-- The check symbols of R358, as entries of the data's sum. -/
def checkSymbol (x : Nat) : Nat → Nat
  | 0 => symbolEntry 1 64 x ^^^ symbolEntry 2 64 x ^^^ gfMul gfOmega (symbolEntry 3 64 x)
  | 1 => symbolEntry 0 64 x ^^^ symbolEntry 2 64 x ^^^ symbolEntry 3 64 x
  | 2 => symbolEntry 2 64 x
  | _ => symbolEntry 3 64 x

theorem checkSymbol_lt (x i : Nat) : checkSymbol x i < 16 := by
  have hentry (j : Nat) := symbolEntry_lt j 64 x
  have hmul := gfMul_lt (a := gfOmega) (by decide) (symbolEntry 3 64 x)
  match i with
  | 0 => exact Nat.xor_lt_two_pow (n := 4) (Nat.xor_lt_two_pow (hentry 1) (hentry 2)) hmul
  | 1 => exact Nat.xor_lt_two_pow (n := 4) (Nat.xor_lt_two_pow (hentry 0) (hentry 2)) (hentry 3)
  | 2 => exact hentry 2
  | _ + 3 => exact hentry 3

theorem encodeSector_eq_checkSymbols (x : Nat) :
    encodeSector x = checkSymbol x 0 ^^^ checkSymbol x 1 <<< 4 ^^^ checkSymbol x 2 <<< 8 ^^^ checkSymbol x 3 <<< 12 := by
  have hsum : encodeSector x =
      checkSymbol x 0 + checkSymbol x 1 * 2 ^ 4 + checkSymbol x 2 * 2 ^ 8 + checkSymbol x 3 * 2 ^ 12 := by
    rw [encodeSector, symbolSum_eq_entries]
    rfl
  have h0 := checkSymbol_lt x 0
  have h1 := checkSymbol_lt x 1
  have h2 := checkSymbol_lt x 2
  rw [hsum, add_mul_two_pow_eq_xor (by omega), add_mul_two_pow_eq_xor (by omega), add_mul_two_pow_eq_xor h0]

/-- An unpoisoned sector as its data and the four check symbols at their places. -/
theorem storedWord_clean {x : Nat} (hx : x < 2 ^ 256) :
    storedWord x false = x ^^^ checkSymbol x 0 <<< (4 * 64) ^^^ checkSymbol x 1 <<< (4 * 65) ^^^
      checkSymbol x 2 <<< (4 * 66) ^^^ checkSymbol x 3 <<< (4 * 67) := by
  rw [storedWord, add_mul_two_pow_eq_xor hx, encodeSector_eq_checkSymbols]
  simp [Nat.shiftLeft_xor_distrib, ← Nat.shiftLeft_add, Nat.xor_assoc]

/-- Poison is the value 1 added to symbols 66 and 67. -/
theorem storedWord_poisoned {x : Nat} (hx : x < 2 ^ 256) :
    storedWord x true = storedWord x false ^^^ 1 <<< (4 * 66) ^^^ 1 <<< (4 * 67) := by
  have hpoison : poisonCheck <<< 256 = 1 <<< (4 * 66) ^^^ 1 <<< (4 * 67) := by decide +kernel
  rw [storedWord, storedWord, add_mul_two_pow_eq_xor hx, add_mul_two_pow_eq_xor hx, if_pos rfl,
    Nat.shiftLeft_xor_distrib, hpoison, if_neg Bool.false_ne_true, Nat.xor_zero, ← Nat.xor_assoc, ← Nat.xor_assoc]

/-! ### What a stored word's syndrome is -/

theorem column_64 : column 64 = [0, 1, 0, 0] := rfl
theorem column_65 : column 65 = [1, 0, 0, 0] := by decide
theorem column_66 : column 66 = [1, 1, 1, 0] := by decide
theorem column_67 : column 67 = [1, gfOmega, 0, 1] := by decide

/-- The check symbols cancel the data's sum. -/
theorem symbolEntry_storedWord {x j : Nat} (hx : x < 2 ^ 256) (hj : j < 4) :
    symbolEntry j 68 (storedWord x false) = 0 := by
  have hdata : symbolEntry j 68 x = symbolEntry j 64 x := symbolEntry_of_lt j (by omega) hx
  rw [storedWord_clean hx]
  simp only [symbolEntry_xor, symbolEntry_symbol (checkSymbol_lt x _), hdata, columnEntry, column_64, column_65,
    column_66, column_67]
  have hcomm := gfMul_gfOmega_comm _ (symbolEntry_lt 3 64 x)
  have hcancel (a b c : Nat) : a ^^^ (a ^^^ b ^^^ c) ^^^ b = c := by
    rw [Nat.xor_assoc a b c, ← Nat.xor_assoc a a, Nat.xor_self, Nat.zero_xor, Nat.xor_comm b c, Nat.xor_assoc,
      Nat.xor_self, Nat.xor_zero]
  match j with
  | 0 => simp [checkSymbol, hcancel]
  | 1 => simp [checkSymbol, hcomm, hcancel]
  | 2 => simp [checkSymbol]
  | 3 => simp [checkSymbol]

theorem symbolSum_storedWord {x : Nat} (hx : x < 2 ^ 256) : symbolSum 68 (storedWord x false) = [0, 0, 0, 0] := by
  rw [symbolSum_eq_entries]
  simp only [symbolEntry_storedWord hx, Nat.reduceLT]

/-- The poison syndrome of R363 is the sum of columns 66 and 67. -/
theorem symbolSum_storedWord_poisoned {x : Nat} (hx : x < 2 ^ 256) :
    symbolSum 68 (storedWord x true) = [0, 9, 1, 1] := by
  have hone : 1 < 16 := by decide
  have hentry {j : Nat} (hj : j < 4) : symbolEntry j 68 (storedWord x true) =
      gfMul 1 (columnEntry j 66) ^^^ gfMul 1 (columnEntry j 67) := by
    rw [storedWord_poisoned hx, symbolEntry_xor, symbolEntry_xor, symbolEntry_storedWord hx hj, Nat.zero_xor,
      symbolEntry_symbol hone, symbolEntry_symbol hone, if_pos (by decide), if_pos (by decide)]
  rw [symbolSum_eq_entries, hentry (by decide), hentry (by decide), hentry (by decide), hentry (by decide)]
  decide

/-- An error in one symbol leaves its multiple of that symbol's column. -/
theorem symbolSum_storedWord_xor_symbol {x n e : Nat} (hx : x < 2 ^ 256) (hn : n < 68) (he : e < 16) :
    symbolSum 68 (storedWord x false ^^^ e <<< (4 * n)) = (column n).map (gfMul e) := by
  rw [symbolSum_eq_entries, column_eq_entries n]
  simp [symbolEntry_xor, symbolEntry_storedWord hx, symbolEntry_symbol he, hn]

theorem symbolPair_lt : ∀ n < 68, (symbolPair n).1 < 16 ∧ (symbolPair n).2 < 16 := by decide

theorem quadric_lt {a b : Nat} (ha : a < 16) : quadric a b < 16 :=
  Nat.xor_lt_two_pow (n := 4) (Nat.xor_lt_two_pow (gfMul_lt ha a) (gfMul_lt ha b)) (gfMul_lt (by decide) _)

/-- No two symbols but 64 have one pair. -/
theorem find?_symbolPair : ∀ n < 68, n ≠ 64 →
    ((List.range 68).find? fun m => m != 64 && symbolPair m == symbolPair n) = some n := by
  decide +kernel

theorem decodeSyndrome_column {n e : Nat} (hn : n < 68) (hpos : 0 < e) (he : e < 16) :
    decodeSyndrome ((column n).map (gfMul e)) = .corrected n e := by
  by_cases h64 : n = 64
  · subst h64
    simp [column_64, decodeSyndrome, Nat.ne_of_gt hpos]
  · obtain ⟨ha, hb⟩ := symbolPair_lt n hn
    have hfind := find?_symbolPair n hn h64
    have hdiv := gfDiv_gfMul e he hpos
    simp [column, h64, decodeSyndrome, Nat.ne_of_gt hpos, hdiv _ ha, hdiv _ hb, hdiv _ (quadric_lt ha), hfind]

end Sys2Proof.Machine

section

open Sys2Proof Sys2Proof.Machine

/-- Settles O45: the code is linear, and the check symbols of R358 cancel the data's sum (11_hbm_memory.md R357 to
R359, R363). -/
theorem sectorCode : Obligations.SectorCode := by
  unfold Obligations.SectorCode
  intro x hx
  refine ⟨?clean, ?poisoned, fun n e hn hpos he => ?corrected⟩
  case clean =>
    rw [symbolSum_storedWord hx]
    rfl
  case poisoned =>
    rw [symbolSum_storedWord_poisoned hx]
    rfl
  case corrected =>
    rw [symbolSum_storedWord_xor_symbol hx hn he, decodeSyndrome_column hn hpos he]

end

/-! PROOF. The statements of 12_host_interface.md: BAR2 in boot mode and the windows (R381 to R388, R397), the link,
aperture reads and MSI-X (R374, R376, R392, R394), and the DOE mailbox with the SPDM requests over it (R395, R396;
18_reset_boot_firmware.md R537 to R540). -/

namespace Sys2Proof.Machine

/-! ### The boot SRAM behind BAR2 (R397; 18 R528) -/

/-- What one byte of a write leaves in the boot SRAM: a disabled byte, and one beyond its end, nothing. -/
def sramPut (offset : Nat) (t : Table Byte) (x : Option Byte × Nat) : Table Byte :=
  match x.1 with
  | some b => if offset + x.2 < sramSize then Table.set 0 t (offset + x.2) b else t
  | none => t

theorem State.sramWrite_of_verify {s : State} (h : s.stage = 2) (offset : Nat) (bytes : List (Option Byte)) :
    s.sramWrite offset bytes = s.satRf .bootStatus .sramDrops 1 := if_pos h

theorem State.sramWrite_of_not_verify {s : State} (h : s.stage ≠ 2) (offset : Nat) (bytes : List (Option Byte)) :
    s.sramWrite offset bytes = { s with boot := { s.boot with
      sram := (bytes.zip (List.range bytes.length)).foldl (sramPut offset) s.boot.sram } } := if_neg h

theorem get_sramPut {offset i : Nat} (t : Table Byte) (b : Option Byte) (a : Nat) (h : offset + i < sramSize) :
    Table.get 0 (sramPut offset t (b, i)) a = if a = offset + i then b.getD (Table.get 0 t a) else Table.get 0 t a := by
  cases b with
  | none => simp [sramPut]
  | some b => simp [sramPut, h, Table.get_set]

/-- Bytes written one after another from `offset + i`: each address of them reads its byte, if that is enabled. -/
theorem get_foldl_sramPut {offset i : Nat} (bytes : List (Option Byte)) (t : Table Byte) (a : Nat)
    (h : offset + i + bytes.length ≤ sramSize) :
    Table.get 0 ((bytes.zip (List.range' i bytes.length)).foldl (sramPut offset) t) a =
      if a < offset + i then Table.get 0 t a else (bytes.getD (a - (offset + i)) none).getD (Table.get 0 t a) := by
  induction bytes generalizing i t with
  | nil => simp
  | cons b bytes ih =>
    rw [List.length_cons] at h
    rw [List.length_cons, List.range'_succ, List.zip_cons_cons, List.foldl_cons, ih _ (by omega),
      get_sramPut t b a (by omega)]
    rcases Nat.lt_trichotomy a (offset + i) with hlt | heq | hgt
    · simp only [hlt, Nat.ne_of_lt hlt, show a < offset + (i + 1) by omega, if_true, if_false]
    · simp [heq]
    · obtain ⟨k, rfl⟩ : ∃ k, a = offset + (i + 1) + k := ⟨a - (offset + (i + 1)), by omega⟩
      have hk : offset + (i + 1) + k - (offset + i) = k + 1 := by omega
      simp only [hk, Nat.add_sub_cancel_left, List.getD_cons_succ, Nat.not_lt.mpr (Nat.le_of_lt hgt),
        Nat.ne_of_gt hgt, Nat.not_lt.mpr (Nat.le_add_right _ _), if_false]

theorem get_foldl_sramPut_range {offset : Nat} (bytes : List (Option Byte)) (t : Table Byte) (a : Nat)
    (h : offset + bytes.length ≤ sramSize) :
    Table.get 0 ((bytes.zip (List.range bytes.length)).foldl (sramPut offset) t) a =
      if a < offset then Table.get 0 t a else (bytes.getD (a - offset) none).getD (Table.get 0 t a) := by
  rw [List.range_eq_range', get_foldl_sramPut bytes t a h, Nat.add_zero]

/-- Outside its bytes a write leaves the boot SRAM as it was. -/
theorem get_foldl_sramPut_of_outside {offset : Nat} (bytes : List (Option Byte)) (t : Table Byte) {a : Nat}
    (h : offset + bytes.length ≤ sramSize) (ha : a < offset ∨ offset + bytes.length ≤ a) :
    Table.get 0 ((bytes.zip (List.range bytes.length)).foldl (sramPut offset) t) a = Table.get 0 t a := by
  rw [get_foldl_sramPut_range bytes t a h]
  split
  · rfl
  · rw [List.getD_eq_default _ _ (by omega), Option.getD_none]

section

variable {s : State}

theorem execWindowWrite_of_boot (he : s.endpoint = true) (hf : s.fatal = false) (hm : s.boot.mode = true)
    (t : WriteTlp) : execWindowWrite t s = .next (s.sramWrite t.offset t.bytes) := by
  simp [execWindowWrite, he, hf, hm]

theorem execBootSramWrite_of_boot (he : s.endpoint = true) (hf : s.fatal = false) (hm : s.boot.mode = true)
    (offset : Nat) (bytes : List (Option Byte)) :
    execBootSramWrite offset bytes s = .next (s.sramWrite offset bytes) := by
  simp [execBootSramWrite, he, hf, hm]

theorem execWindowRead_of_boot (he : s.endpoint = true) (hf : s.fatal = false) (hm : s.boot.mode = true)
    {offset length : Nat} (h : offset + length ≤ sramSize) :
    execWindowRead offset length s =
      .next (s.sendRead offset ((List.range length).map fun j => Table.get 0 s.boot.sram (offset + j)) []) := by
  have hbytes : ((List.range length).map fun i =>
      if offset + i < sramSize then Table.get 0 s.boot.sram (offset + i) else 0xFF) =
      (List.range length).map fun j => Table.get 0 s.boot.sram (offset + j) :=
    List.map_congr_left fun i hi => if_pos (by have := List.mem_range.mp hi; omega)
  simp only [execWindowRead, he, hf, hm, Bool.not_true, Bool.false_eq_true, if_false, if_true, hbytes]

/-! ### The windows (R381, R384 to R388) -/

theorem execWindowWrite_of_windows (he : s.endpoint = true) (hf : s.fatal = false) (hm : s.boot.mode = false)
    (t : WriteTlp) : execWindowWrite t s = .next (s.windowWrite t) := by
  simp [execWindowWrite, he, hf, hm]

theorem execWindowRead_of_windows (he : s.endpoint = true) (hf : s.fatal = false) (hm : s.boot.mode = false)
    (offset length : Nat) : execWindowRead offset length s = .next (s.windowRead offset length) := by
  simp [execWindowRead, he, hf, hm]

theorem State.windowWrite_of_disabled {t : WriteTlp} (hw : t.offset / windowSize < 4)
    (hd : s.rbit (.hqWinBase (t.offset / windowSize)) .enable = false) :
    s.windowWrite t = (s.satRf .hqWinStat .disWrites 1).settleBytes (t.offset / windowSize)
      (t.bytes.filter Option.isSome).length := by
  simp [State.windowWrite, Nat.not_le.mpr hw, hd]

theorem State.windowRead_of_disabled {offset : Nat} (length : Nat) (hw : offset / windowSize < 4)
    (hd : s.rbit (.hqWinBase (offset / windowSize)) .enable = false) :
    s.windowRead offset length = (s.satRf .hqWinStat .disReads 1).sendRead offset (allOnes length) [] := by
  simp [State.windowRead, Nat.not_le.mpr hw, hd]

/-- The sectors of a write TLP commit one after another, and whether one of them would have faulted. -/
def State.windowSectors (s : State) (w : Nat) (t : WriteTlp) : State × Bool :=
  (tlpSectors t.offset t.bytes).foldl (fun (r : State × Bool) x =>
    let z := r.1.windowSector w t.ep (Table.find t.flips (x.1 / 32)) x
    (z.1, r.2 || z.2)) (s, false)

theorem State.windowWrite_of_enabled {t : WriteTlp} (hw : t.offset / windowSize < 4)
    (hon : s.rbit (.hqWinBase (t.offset / windowSize)) .enable = true) :
    let w := t.offset / windowSize
    let r := s.windowSectors w t
    let s1 := if r.2 then r.1.satRf .xltStatus .winFaults 1 else r.1
    let va := s.rf (.hqWinBase w) .base * 65536 + (t.offset - windowSize * w)
    let s2 := if t.ep then (s1.errRecord { addr := va, addrKind := 1 } Code.hostEpWrite 1 (s.rf (.hqWinBase w) .ctx)).1
      else s1
    s.windowWrite t = s2.settleBytes w (t.bytes.filter Option.isSome).length := by
  have henabled : ¬(!s.rbit (.hqWinBase (t.offset / windowSize)) .enable) = true := by simp [hon]
  exact (if_neg (Nat.not_le.mpr hw)).trans (if_neg henabled)

/-! ### HQ_WINn_BASE (R381, R386) -/

theorem State.hqOpen_of_endpoint (he : s.endpoint = true) (hf : s.fatal = false) : s.hqOpen = true := by
  obtain ⟨⟨hrails, -⟩, -⟩ : (s.board.rails = true ∧ _) ∧ _ := by simpa [State.endpoint] using he
  simp [State.hqOpen, hf, hrails]

theorem execWindowBaseWrite_of_open {m : Master} {w : Nat} (v : Word) (he : s.endpoint = true) (hf : s.fatal = false)
    (hm : m ≠ .reeve) (hw : w < 4) : execWindowBaseWrite m w v s = .next ((s.windowBase w v).windowWake w) := by
  simp [execWindowBaseWrite, s.hqOpen_of_endpoint he hf, hqMaster, hm, hw]

/-- The fields of a window's base register after a write with ENABLE held at `on`. -/
def State.windowFields (s : State) (w : Nat) (v : Word) (on : Bool) : State :=
  ((s.setRf (.hqWinBase w) .enable (bval on)).setRf (.hqWinBase w) .ctx (fld v 56 6)).setRf (.hqWinBase w) .base
    (fld v 16 40)

/-- What a write leaves in ENABLE outside boot mode: HALTED holds it at 0. -/
def State.windowEnable (s : State) (v : Word) : Bool := v.getLsbD 63 && s.stage != 9

/-- Outside boot mode a write with CTX not 63 takes the fields, and a rising ENABLE clears ARRIVED. -/
theorem State.windowBase_eq {v : Word} (w : Nat) (hm : s.boot.mode = false) (hctx : fld v 56 6 ≠ 63) :
    s.windowBase w v = if s.windowEnable v && !s.rbit (.hqWinBase w) .enable
      then ((s.windowFields w v (s.windowEnable v)).setReg (.hqWinArrived w) 0).fenceDone w
      else s.windowFields w v (s.windowEnable v) := by
  have hon : (bit v.toNat 63 && !s.boot.mode && s.stage != stHalted) = s.windowEnable v := by
    rw [hm, Bool.not_false, Bool.and_true]
    rfl
  simp only [State.windowBase, if_neg hctx, hon]
  rfl

theorem State.windowBase_of_rise {v : Word} {w : Nat} (hm : s.boot.mode = false) (hctx : fld v 56 6 ≠ 63)
    (hon : s.windowEnable v = true) (hlow : s.rbit (.hqWinBase w) .enable = false) :
    s.windowBase w v = ((s.windowFields w v (s.windowEnable v)).setReg (.hqWinArrived w) 0).fenceDone w := by
  rw [s.windowBase_eq w hm hctx, if_pos (by rw [hon, hlow]; rfl)]

theorem State.windowBase_of_no_rise {v : Word} {w : Nat} (hm : s.boot.mode = false) (hctx : fld v 56 6 ≠ 63)
    (h : s.windowEnable v = false ∨ s.rbit (.hqWinBase w) .enable = true) :
    s.windowBase w v = s.windowFields w v (s.windowEnable v) := by
  have hlevel : ¬(s.windowEnable v && !s.rbit (.hqWinBase w) .enable) = true := by
    rcases h with hoff | hhigh
    · simp [hoff]
    · simp [hhigh]
  rw [s.windowBase_eq w hm hctx, if_neg hlevel]

/-! ### The link and aperture reads (R374, R376, R392) -/

theorem execLinkDown_of_up (he : s.endpoint = true) (hup : s.rbit .hqLinkStatus .up = true) :
    let s1 := (s.setRf .hqLinkStatus .up 0).satRf .hqLinkStatus .downCount 1
    execLinkDown s =
      .next (if s.ready then s1.pcie.apReads.foldl (fun t r => t.finishRead r.1 (t.failedAnswer r.1)) s1 else s1) := by
  simp [execLinkDown, he, hup]

theorem execApertureReadCompletion_of_up (hready : s.ready = true) (hup : s.rbit .hqLinkStatus .up = true) (id : Nat)
    (answer : HostAnswer) : execApertureReadCompletion id answer s = .next (s.finishRead id answer) := by
  simp [execApertureReadCompletion, hready, hup]

theorem execCompletionTimeout_of_ready (hready : s.ready = true) (id : Nat) :
    execCompletionTimeout id s = .next (s.finishRead id (s.failedAnswer id)) := by
  simp [execCompletionTimeout, hready]

/-- A link that trains at a speed of R374 shows it at a width of 8 or 16 lanes, and stays down at another. -/
theorem execLinkUp_of_down {speed : Nat} {flit : Bool} (width : Nat) (he : s.endpoint = true)
    (hdown : s.rbit .hqLinkStatus .up = false) (hlo : 1 ≤ speed) (hhi : speed ≤ 7) (hflit : flit = true ↔ 6 ≤ speed) :
    let told := fun (x : Bool) => ({ s with pcie := { s.pcie with otherWidth := x } } : State)
    execLinkUp speed width flit s = .next (if width = 8 ∨ width = 16
      then ((((told false).setRf .hqLinkStatus .up 1).setRf .hqLinkStatus .speed speed).setRf .hqLinkStatus .width
        width).setRf .hqLinkStatus .flit (bval flit)
      else told true) := by
  have hmode : flit = decide (6 ≤ speed) := Bool.eq_iff_iff.mpr (hflit.trans decide_eq_true_iff.symm)
  simp only [execLinkUp, he, hdown, ← hmode, Nat.not_lt.mpr hhi, beq_eq_false_iff_ne.mpr (Nat.ne_of_gt hlo), bne_self_eq_false,
    decide_false, Bool.not_true, Bool.or_self, Bool.false_eq_true, if_false, Bool.or_eq_true, beq_iff_eq]
  split <;> rfl

/-! ### MSI-X (R394) -/

@[simp] theorem State.msixEntry_setMsix (n : Nat) (e : MsixEntry) : (s.setMsix n e).msixEntry n = e :=
  Table.get_set_self _ _ _ _

/-- A vector that is not pending, or that the function mask holds, sends nothing. -/
theorem State.msixFlush_of_held {n : Nat} (h : s.pcie.pend.contains n = false ∨ s.pcie.funcMask = true) :
    s.msixFlush n = s := by
  rcases h with hidle | hmask
  · simp only [State.msixFlush, hidle, Bool.false_and, Bool.false_eq_true, if_false]
  · simp only [State.msixFlush, hmask, Bool.not_true, Bool.and_false, Bool.false_eq_true, if_false]

theorem State.msixFlush_of_pending {n : Nat} (hpend : s.pcie.pend.contains n = true)
    (hentry : (s.msixEntry n).masked = false) (hmask : s.pcie.funcMask = false) :
    s.msixFlush n = ({ s with pcie := { s.pcie with pend := setErase s.pcie.pend n } } : State).msix n := by
  simp only [State.msixFlush, hpend, hentry, hmask, Bool.not_false, Bool.and_self, if_true]

theorem execMsixUnmask_vector {n : Nat} (he : s.endpoint = true) (hn : n < 2048) :
    execMsixUnmask (.vector n) s = .next ((s.setMsix n { s.msixEntry n with masked := false }).msixFlush n) := by
  simp [execMsixUnmask, he, hn]

theorem execMsixUnmask_function (he : s.endpoint = true) (x : Bool) :
    execMsixUnmask (.function x) s = .next (s.functionMask x) := if_pos he

end

end Sys2Proof.Machine

section

open Sys2Proof Sys2Proof.Machine

/-- Settles O35: BAR2 in boot mode and outside it (R381, R384 to R388, R397), then the link, aperture reads and MSI-X
(R374, R376, R392, R394); the order of the sectors, one fault for a TLP and ENABLE held at 0 in HALTED are the model's
logs 97 to 99. -/
theorem windowsLinkAndMsix : Obligations.WindowsLinkAndMsix := by
  unfold Obligations.WindowsLinkAndMsix
  refine ⟨fun s he hf => ⟨fun hboot => ?boot, fun hwin w hw => ?windows⟩, fun s he => ?link⟩
  case boot =>
    refine ⟨fun offset bytes ep flips => ⟨fun hverify => ?dropped, fun hstage hend => ?stored⟩,
      fun offset length hend => execWindowRead_of_boot he hf hboot hend⟩
    case dropped =>
      have hdrop := State.sramWrite_of_verify hverify offset bytes
      exact ⟨(execWindowWrite_of_boot he hf hboot _).trans (congrArg _ hdrop),
        (execBootSramWrite_of_boot he hf hboot _ _).trans (congrArg _ hdrop)⟩
    case stored =>
      have hstore := State.sramWrite_of_not_verify hstage offset bytes
      refine ⟨_, (execWindowWrite_of_boot he hf hboot _).trans (congrArg _ hstore),
        (execBootSramWrite_of_boot he hf hboot _ _).trans (congrArg _ hstore),
        fun a => get_foldl_sramPut_of_outside bytes _ hend, fun j _ => ?_⟩
      rw [get_foldl_sramPut_range bytes _ _ hend, if_neg (Nat.not_lt.mpr (Nat.le_add_right _ _)), Nat.add_sub_cancel_left]
  case windows =>
    refine ⟨fun hoff => ⟨?discarded, ?ones⟩,
      fun hon => ⟨?committed, fun offset length _ => execWindowRead_of_windows he hf hwin offset length⟩, ?base⟩
    case discarded =>
      rintro t rfl
      exact (execWindowWrite_of_windows he hf hwin t).trans (congrArg _ (State.windowWrite_of_disabled hw hoff))
    case ones =>
      rintro offset length rfl
      exact (execWindowRead_of_windows he hf hwin _ _).trans (congrArg _ (State.windowRead_of_disabled length hw hoff))
    case committed =>
      rintro t rfl
      exact (execWindowWrite_of_windows he hf hwin t).trans (congrArg _ (State.windowWrite_of_enabled hw hon))
    case base =>
      intro m v hm hctx
      have hexec {t : State} (h : s.windowBase w v = t) : exec (.windowBaseWrite m w v) s = .next (t.windowWake w) :=
        h ▸ execWindowBaseWrite_of_open v he hf hm hw
      exact ⟨fun hrise hlow => hexec (State.windowBase_of_rise hwin hctx hrise hlow),
        fun hlevel => hexec (State.windowBase_of_no_rise hwin hctx hlevel)⟩
  case link =>
    refine ⟨fun hup => ⟨?down, ?downEarly, fun hready id answer => execApertureReadCompletion_of_up hready hup id answer⟩,
      fun hready id => execCompletionTimeout_of_ready hready id, ?trained,
      fun n hn => ⟨fun hheld => ?held, fun hpend hmask => ?sent⟩,
      execMsixUnmask_function he true, execMsixUnmask_function he false⟩
    case down => exact fun hready => (execLinkDown_of_up he hup).trans (congrArg _ (if_pos hready))
    case downEarly =>
      exact fun hready => (execLinkDown_of_up he hup).trans (congrArg _ (if_neg (Bool.not_eq_true _ ▸ hready)))
    case trained =>
      intro hdown speed width flit hlo hhi hflit told
      have hexec := execLinkUp_of_down width he hdown hlo hhi hflit
      exact ⟨fun hwidth => hexec.trans (congrArg _ (if_pos hwidth)),
        fun h8 h16 => hexec.trans (congrArg _ (if_neg (not_or.mpr ⟨h8, h16⟩)))⟩
    case held => exact (execMsixUnmask_vector he hn).trans (congrArg _ (State.msixFlush_of_held hheld))
    case sent =>
      exact (execMsixUnmask_vector he hn).trans (congrArg _
        (State.msixFlush_of_pending hpend (by rw [State.msixEntry_setMsix]) hmask))

end

namespace Sys2Proof.Machine

/-! ### What the mailbox passes on (R395, R396; 18 R539, R540) -/

/-- The mailbox passes a request's message on to what serves that version of SPDM. -/
structure State.Serves (s : State) (version : Nat) (r : List Byte) : Prop where
  endpoint : s.endpoint = true
  length_le : r.length ≤ doeLimit
  object : doeIs r [1, 2] = true
  not_busy : s.spdmBusy = false
  version_eq : spdmVersion (doePayload r) = version

theorem doeIs_eq_true {r : List Byte} {types : List Nat} (hv : doeVendor r = 1) (ht : doeType r ∈ types) :
    doeIs r types = true := by
  simp [doeIs, hv, ht]

theorem State.spdmBusy_iff (s : State) : s.spdmBusy = true ↔
    s.stage < 7 ∨ (s.stage = 9 ∧ (s.rf .bootStatus .error = 11 ∨ s.rf .bootStatus .error = 12)) := by
  simp [State.spdmBusy, stHalted]

theorem State.Serves.spdm_eq {s : State} {version : Nat} {r : List Byte} (h : s.Serves version r)
    (serve : State → List Byte → State) : s.spdm version r serve = serve s (doePayload r) := by
  simp [State.spdm, h.endpoint, Nat.not_lt.mpr h.length_le, h.object, h.not_busy, h.version_eq]

theorem State.spdm_of_busy (s : State) (version : Nat) {r : List Byte} (serve : State → List Byte → State)
    (he : s.endpoint = true) (hlen : r.length ≤ doeLimit) (hobj : doeIs r [1, 2] = true) (hbusy : s.spdmBusy = true) :
    s.spdm version r serve = s.doeReply .busy := by
  simp [State.spdm, he, Nat.not_lt.mpr hlen, hobj, hbusy]

/-- A request that comes after the step it needs is recorded and served. -/
theorem State.Serves.spdm_afterStep {s : State} {version n : Nat} {r : List Byte} (h : s.Serves version r)
    (hn : n ≤ s.doe.negotiated) (serve : List Byte → State → State) :
    (s.spdm version r fun s m => s.afterStep n m (serve m)) = serve (doePayload r) (s.spdmRecord (doePayload r)) := by
  rw [h.spdm_eq, State.afterStep, if_neg (Nat.not_lt.mpr hn)]

/-! ### What a message on the transcript leaves alone -/

@[simp] theorem State.certChain_spdmRecord (s : State) (m : List Byte) : (s.spdmRecord m).certChain = s.certChain := (rfl)
@[simp] theorem State.measurement_spdmRecord (s : State) (m : List Byte) (i : Nat) :
    (s.spdmRecord m).measurement i = s.measurement i := (rfl)
@[simp] theorem State.free_spdmRecord (s : State) (m : List Byte) : (s.spdmRecord m).free = s.free := (rfl)
@[simp] theorem State.session_spdmRecord (s : State) (m : List Byte) : (s.spdmRecord m).doe.session = s.doe.session := (rfl)

/-! ### Discovery and objects of no known kind (R395) -/

theorem execDoeDiscovery_of_index {s : State} {r : List Byte} (he : s.endpoint = true) (hlen : r.length ≤ doeLimit)
    (hobj : doeIs r [0] = true) (hi : ((doePayload r).getD 0 0).toNat ≤ 2) :
    execDoeDiscovery r s = .next (s.doeReply (.discovery 1 ((doePayload r).getD 0 0).toNat
      ((((doePayload r).getD 0 0).toNat + 1) % 3))) := by
  simp only [execDoeDiscovery, he, Nat.not_lt.mpr hlen, hobj, Nat.not_lt.mpr hi, Bool.not_true, decide_false,
    Bool.or_self, Bool.false_eq_true, if_false]

theorem execUnsupportedDoeObject_of_unknown {s : State} {r : List Byte} (he : s.endpoint = true)
    (h : 2 < doeType r ∨ doeVendor r ≠ 1) : execUnsupportedDoeObject r s = .next (s.doeReply .doeError) := by
  have hunknown : (decide (2 < doeType r) || doeVendor r != 1) = true := by simpa using h
  simp [execUnsupportedDoeObject, he, Bool.or_assoc, hunknown]

theorem execUnsupportedSpdmRequest_eq {s : State} {r : List Byte} (he : s.endpoint = true) (hlen : r.length ≤ doeLimit) :
    execUnsupportedSpdmRequest r s = .next (if s.spdmBusy then s.doeReply .busy else s.doeReply .unsupported) := by
  simp [execUnsupportedSpdmRequest, he, Nat.not_lt.mpr hlen]

/-! ### The negotiation (18 R539) -/

section

variable {s : State} {r : List Byte}

theorem execGetVersion_of_serves (h : s.Serves 0x10 r) :
    execGetVersion r s = .next ((State.negotiated { s with doe := { s.doe with transcript := doePayload r } } 1).doeReply
      .version) := by
  rw [execGetVersion, h.spdm_eq]
  rfl

theorem execGetCapabilities_of_serves (h : s.Serves spdm14 r) (hn : 1 ≤ s.doe.negotiated) :
    execGetCapabilities r s = .next (((s.spdmRecord (doePayload r)).negotiated 2).doeReply .capabilities) :=
  congrArg _ (h.spdm_afterStep hn _)

theorem execNegotiateAlgorithms_of_serves (h : s.Serves spdm14 r) (hn : 2 ≤ s.doe.negotiated)
    (ho : Config.offersAlgorithms (doePayload r) = true) :
    execNegotiateAlgorithms r s = .next (((s.spdmRecord (doePayload r)).negotiated 3).doeReply .algorithms) := by
  rw [execNegotiateAlgorithms, h.spdm_eq, if_pos ho, State.afterStep, if_neg (Nat.not_lt.mpr hn)]

/-! ### Certificates and measurements (18 R537, R538) -/

theorem execGetDigests_of_serves (h : s.Serves spdm14 r) (hn : 3 ≤ s.doe.negotiated) :
    execGetDigests r s = .next ((s.spdmRecord (doePayload r)).doeReply (.digests (Config.sha3_384 s.certChain))) :=
  congrArg _ (h.spdm_afterStep hn _)

theorem execGetCertificate_of_serves (h : s.Serves spdm14 r) (hn : 3 ≤ s.doe.negotiated)
    (hslot : spdmParam1 (doePayload r) % 16 = 0) :
    let rest := s.certChain.drop (leNat (((doePayload r).drop 4).take 2))
    let n := leNat (((doePayload r).drop 6).take 2)
    execGetCertificate r s =
      .next ((s.spdmRecord (doePayload r)).doeReply (.certificate (rest.take n) (rest.length - n))) := by
  simp [execGetCertificate, h.spdm_afterStep hn, hslot]

theorem execChallenge_of_serves (h : s.Serves spdm14 r) (hn : 3 ≤ s.doe.negotiated)
    (hslot : spdmParam1 (doePayload r) = 0) :
    let signed := (s.spdmRecord (doePayload r)).aliasSigned
    execChallenge r s = .next (signed.1.doeReply (.challengeAuth (Config.sha3_384 s.certChain)
      (if spdmParam2 (doePayload r) = 0 then []
        else Config.sha3_384 ((List.range 6).flatMap fun i => s.measurement (i + 1))) signed.2)) := by
  simp [execChallenge, h.spdm_afterStep hn, hslot]

/-- The measurements that parameter 2 asks for: none, one, or all (255). -/
def State.measurementBlocks (s : State) (i : Nat) : List (Nat × List Byte) :=
  if i = 0 then [] else (if i = 255 then [1, 2, 3, 4, 5, 6] else [i]).map fun k => (k, s.measurement k)

theorem execGetMeasurements_of_serves (h : s.Serves spdm14 r) (hn : 3 ≤ s.doe.negotiated)
    (hi : spdmParam2 (doePayload r) ≤ 6 ∨ spdmParam2 (doePayload r) = 255) :
    let blocks := s.measurementBlocks (spdmParam2 (doePayload r))
    let signed := (s.spdmRecord (doePayload r)).aliasSigned
    execGetMeasurements r s = .next (if bit (spdmParam1 (doePayload r)) 0
      then signed.1.doeReply (.measurements 6 blocks signed.2)
      else (s.spdmRecord (doePayload r)).doeReply (.measurements 6 blocks [])) := by
  have hknown : ¬(6 < spdmParam2 (doePayload r) ∧ spdmParam2 (doePayload r) ≠ 255) := by omega
  simp only [execGetMeasurements, h.spdm_afterStep hn, if_neg hknown]
  rfl

/-! ### The secured session (18 R539) -/

theorem execKeyExchange_of_serves (h : s.Serves spdm14 r) (hn : 3 ≤ s.doe.negotiated) (hnone : s.doe.session = .none) :
    let signed := (s.spdmRecord (doePayload r)).aliasSigned
    execKeyExchange r s = .next ((signed.1.setSession .exchanging).doeReply
      (.keyExchangeRsp (Config.kemEncap (doePayload r) s.free) signed.2)) := by
  simp [execKeyExchange, h.spdm_afterStep hn, hnone]

theorem execFinish_of_serves (h : s.Serves spdm14 r) (hn : 3 ≤ s.doe.negotiated)
    (hexch : s.doe.session = .exchanging) (hauth : Config.sessionAuth (doePayload r) s.free = true) :
    execFinish r s = .next ((State.setSession { s.spdmRecord (doePayload r) with free := s.free + 1 } .opened).doeReply
      .finishRsp) := by
  simp [execFinish, h.spdm_afterStep hn, hexch, hauth]

/-- A message that verifies under the keys of the open session is served. -/
theorem State.inSession_of_auth (m : List Byte) (serve : State → State) (hopen : s.doe.session = .opened)
    (hauth : Config.sessionAuth m s.free = true) : s.inSession m serve = serve { s with free := s.free + 1 } := by
  simp [State.inSession, hopen, hauth]

theorem execHeartbeat_of_serves (h : s.Serves spdm14 r) (hopen : s.doe.session = .opened)
    (hauth : Config.sessionAuth (doePayload r) s.free = true) :
    execHeartbeat r s = .next (State.doeReply { s with free := s.free + 1 } .heartbeatAck) := by
  rw [execHeartbeat, h.spdm_eq, State.inSession_of_auth _ _ hopen hauth]

theorem execEndSession_of_serves (h : s.Serves spdm14 r) (hopen : s.doe.session = .opened)
    (hauth : Config.sessionAuth (doePayload r) s.free = true) :
    execEndSession r s = .next ((State.setSession { s with free := s.free + 1 } .none).doeReply .endSessionAck) := by
  rw [execEndSession, h.spdm_eq, State.inSession_of_auth _ _ hopen hauth]

end

end Sys2Proof.Machine

section

open Sys2Proof Sys2Proof.Machine

/-- Settles O51: a request that the mailbox takes is passed on to what serves it, and what a request needs of the
negotiation or of the session leaves one branch of that (12_host_interface.md R395, R396; 18 R537 to R540). -/
theorem doeAndSpdm : Obligations.DoeAndSpdm := by
  unfold Obligations.DoeAndSpdm
  intro s r he hlen m version p1 p2 said took step phase signed pciSig type busy
  have hbusy : s.spdmBusy = true ↔ busy := s.spdmBusy_iff
  have hobj (hv : pciSig) (ht : type = 1 ∨ type = 2) : doeIs r [1, 2] = true :=
    doeIs_eq_true hv (List.mem_pair.mpr ht)
  refine ⟨fun hv ht hi => ?discovery, fun h => ?unknown, ?abort, fun hb => ?early, fun hb => ?unsupported,
    fun hv ht hb => ?busy, fun hv ht hb => ?served⟩
  case discovery => exact execDoeDiscovery_of_index he hlen (doeIs_eq_true hv (List.mem_singleton.mpr ht)) hi
  case unknown => exact execUnsupportedDoeObject_of_unknown he h
  case abort => simp [execDoeAbort, he]
  case early => exact (execUnsupportedSpdmRequest_eq he hlen).trans (congrArg _ (if_pos (hbusy.mpr hb)))
  case unsupported => exact (execUnsupportedSpdmRequest_eq he hlen).trans (congrArg _ (if_neg (mt hbusy.mp hb)))
  case busy => exact congrArg _ (s.spdm_of_busy _ _ he hlen (hobj hv ht) (hbusy.mpr hb))
  case served =>
    have serves {n : Nat} (hn : version = n) : s.Serves n r :=
      ⟨he, hlen, hobj hv ht, Bool.eq_false_iff.mpr (mt hbusy.mp hb), hn⟩
    refine ⟨fun h10 => execGetVersion_of_serves (serves h10), fun h14 => ?_⟩
    have h := serves h14
    refine ⟨execGetCapabilities_of_serves h, execNegotiateAlgorithms_of_serves h, fun hn => ?_, fun hopen hauth =>
      ⟨execHeartbeat_of_serves h hopen hauth, execEndSession_of_serves h hopen hauth⟩⟩
    refine ⟨execGetDigests_of_serves h hn, execGetCertificate_of_serves h hn, execChallenge_of_serves h hn,
      fun hi => ⟨fun hplain => ?_, fun hsigned => ?_⟩, execKeyExchange_of_serves h hn, execFinish_of_serves h hn⟩
    · have hbit : ¬bit p1 0 = true := by simp [bit, hplain]
      exact (execGetMeasurements_of_serves h hn hi).trans (congrArg _ (if_neg hbit))
    · have hbit : bit p1 0 = true := by simp [bit, hsigned]
      exact (execGetMeasurements_of_serves h hn hi).trans (congrArg _ (if_pos hbit))

end

/-! PROOF. The statements of 13_command_queues.md: the end of a command (R427, R428) and the commands that a queue starts
(R410 to R420, with 16 R482 to R484, R496 and 17 R514); and refutations of two statements of it. -/

namespace Sys2Proof.Machine

/-! ### A register field after another is set -/

theorem findField_le {l : List RegField} (f : RF) (h : ∀ x ∈ l, x.lo + x.w ≤ 64) :
    (findField f l).lo + (findField f l).w ≤ 64 := by
  induction l with
  | nil => exact Nat.zero_le _
  | cons x l ih =>
    rw [findField]
    split
    · exact h x List.mem_cons_self
    · exact ih fun y hy => h y (List.mem_cons_of_mem x hy)

/-- Every field lies within the 64 bits of its register. -/
theorem Reg.field_le (r : Reg) (f : RF) : (r.field f).lo + (r.field f).w ≤ 64 := by
  have h : r.fields.all (fun x => decide (x.lo + x.w ≤ 64)) = true := by cases r <;> rfl
  exact findField_le f fun x hx => of_decide_eq_true (List.all_eq_true.mp h x hx)

section

variable (s : State) {r r' : Reg} (f : RF) (n : Nat)

@[simp] theorem State.rf_setRf_self : (s.setRf r f n).rf r f = n % 2 ^ (r.field f).w := by
  rw [State.rf, State.setRf, State.reg_setReg_self, fld_putFld _ _ _ _ (r.field_le f)]

/-- Setting a field leaves every field apart from it. -/
theorem State.rf_setRf_of_apart {f' : RF} (h : (r.field f').lo + (r.field f').w ≤ (r.field f).lo ∨
    (r.field f).lo + (r.field f).w ≤ (r.field f').lo) : (s.setRf r f n).rf r f' = s.rf r f' := by
  rw [State.rf, State.setRf, State.reg_setReg_self, fld_putFld_ne _ _ _ _ _ _ h (r.field_le f'), State.rf]

theorem State.reg_setRf_of_ne (h : r'.addr ≠ r.addr) : (s.setRf r f n).reg r' = s.reg r' :=
  s.reg_setReg_ne r r' _ h

theorem State.rf_setRf_of_ne (f' : RF) (h : r'.addr ≠ r.addr) : (s.setRf r f n).rf r' f' = s.rf r' f' := by
  rw [State.rf, s.reg_setRf_of_ne f n h, State.rf]

end

/-! ### A queue and its STATE after a change -/

section

variable (s : State) {n m : Nat}

@[simp] theorem State.queue_setQueue_self (q : Queue) : (s.setQueue n q).queue n = q := Table.get_set_self _ _ _ _

theorem State.queue_setQueue_of_ne (q : Queue) (h : m ≠ n) : (s.setQueue n q).queue m = s.queue m :=
  Table.get_set_of_ne _ _ h

@[simp] theorem State.queue_setRf (r : Reg) (f : RF) (v : Nat) : (s.setRf r f v).queue m = s.queue m := by
  rw [State.queue, State.setRf_queues, State.queue]

@[simp] theorem State.queue_showWait : (s.showWait n).queue m = s.queue m := s.queue_setRf _ _ _

@[simp] theorem State.sqState_setQueue (q : Queue) : (s.setQueue n q).sqState m = s.sqState m := (rfl)

/-- STATE of another queue is a field of another register. -/
theorem State.sqState_setRf_of_ne (f : RF) (v : Nat) (h : m ≠ n) :
    (s.setRf (.hqSqStatus n) f v).sqState m = s.sqState m :=
  s.rf_setRf_of_ne f v .state (by simp only [Reg.addr]; omega)

/-- WAIT_KIND is no part of STATE. -/
@[simp] theorem State.sqState_showWait : (s.showWait n).sqState m = s.sqState m := by
  by_cases h : m = n
  · exact h ▸ s.rf_setRf_of_apart .waitKind _ (.inr (Nat.le_of_ble_eq_true rfl))
  · exact s.sqState_setRf_of_ne .waitKind _ h

/-! ### The end of a command (R427, R428) -/

/-- The command with its place of standing replaced where it has the index. -/
theorem State.queue_setCmd_self (idx : Nat) (st : CmdState) : ((s.setCmd n idx st).queue n).cmds =
    (s.queue n).cmds.map fun c => if c.index = idx then { c with state := st } else c := by
  simp [State.setCmd]

theorem State.queue_setCmd_of_ne (idx : Nat) (st : CmdState) (h : m ≠ n) :
    (s.setCmd n idx st).queue m = s.queue m := by
  simp [State.setCmd, s.queue_setQueue_of_ne _ h]

@[simp] theorem State.sqState_setCmd (idx : Nat) (st : CmdState) : (s.setCmd n idx st).sqState m = s.sqState m := by
  simp [State.setCmd]

theorem CmdState.hasEnded_iff (x : CmdState) :
    x.hasEnded = true ↔ ∃ st r d, x = .finished st r d ∨ x = .full st r d := by
  cases x <;> simp [CmdState.hasEnded]

theorem State.cmdOver_iff (idx : Nat) : s.cmdOver n idx = true ↔
    ∃ c ∈ (s.queue n).cmds, c.index = idx ∧ ∃ st r d, c.state = .finished st r d ∨ c.state = .full st r d := by
  simp only [State.cmdOver, List.any_eq_true, Bool.and_eq_true, beq_iff_eq, CmdState.hasEnded_iff]

/-- What the end of a command leaves before a failure stops the queue. -/
def State.cmdEnded (s : State) (n idx status result detail : Nat) : State :=
  if s.cmdOver n idx then s
  else s.setCmd n idx (.finished status (BitVec.ofNat 64 result) (BitVec.ofNat 64 detail))

theorem State.cmdEnded_eq (idx status result detail : Nat) :
    s.cmdEnded n idx status result detail = s ∨ s.cmdEnded n idx status result detail =
      s.setCmd n idx (.finished status (BitVec.ofNat 64 result) (BitVec.ofNat 64 detail)) := by
  unfold State.cmdEnded
  split
  · exact .inl rfl
  · exact .inr rfl

@[simp] theorem State.sqState_cmdEnded (idx status result detail : Nat) :
    (s.cmdEnded n idx status result detail).sqState m = s.sqState m := by
  rcases s.cmdEnded_eq (n := n) idx status result detail with h | h <;> simp [h]

theorem State.queue_cmdEnded_of_ne (idx status result detail : Nat) (h : m ≠ n) :
    (s.cmdEnded n idx status result detail).queue m = s.queue m := by
  rcases s.cmdEnded_eq (n := n) idx status result detail with hs | hs
  · rw [hs]
  · rw [hs, s.queue_setCmd_of_ne _ _ h]

/-- A failure with status 1 to 6 stops a running queue. -/
theorem State.endCmd_eq (idx status result detail : Nat) : s.endCmd n idx status result detail =
    if 1 ≤ status ∧ status ≤ 6 ∧ s.sqState n = qRun
    then (s.cmdEnded n idx status result detail).setRf (.hqSqStatus n) .state qStopped
    else s.cmdEnded n idx status result detail := by
  rw [← s.sqState_cmdEnded idx status result detail]
  rfl

theorem State.endCmd_cases (idx status result detail : Nat) :
    s.endCmd n idx status result detail = s.cmdEnded n idx status result detail ∨
    s.endCmd n idx status result detail =
      (s.cmdEnded n idx status result detail).setRf (.hqSqStatus n) .state qStopped := by
  rw [s.endCmd_eq]
  split
  · exact .inr rfl
  · exact .inl rfl

theorem State.queue_endCmd (idx status result detail : Nat) :
    (s.endCmd n idx status result detail).queue m = (s.cmdEnded n idx status result detail).queue m := by
  rcases s.endCmd_cases (n := n) idx status result detail with h | h <;> simp [h]

theorem State.sqState_endCmd_of_ne (idx status result detail : Nat) (h : m ≠ n) :
    (s.endCmd n idx status result detail).sqState m = s.sqState m := by
  rcases s.endCmd_cases (n := n) idx status result detail with hs | hs
  · rw [hs, s.sqState_cmdEnded]
  · rw [hs, State.sqState_setRf_of_ne _ _ _ h, s.sqState_cmdEnded]

theorem State.setCmd_regs_queues (idx : Nat) (st : CmdState) :
    ∃ r q, s.setCmd n idx st = { s with regs := r, queues := q } := ⟨_, _, rfl⟩

/-- The end of a command changes registers and queues only. -/
theorem State.endCmd_regs_queues (idx status result detail : Nat) :
    ∃ r q, s.endCmd n idx status result detail = { s with regs := r, queues := q } := by
  have hended : ∃ r q, s.cmdEnded n idx status result detail = { s with regs := r, queues := q } := by
    rcases s.cmdEnded_eq (n := n) idx status result detail with h | h
    · exact ⟨s.regs, s.queues, h⟩
    · rw [h]
      exact s.setCmd_regs_queues idx _
  obtain ⟨r, q, he⟩ := hended
  rcases s.endCmd_cases (n := n) idx status result detail with h | h
  · exact ⟨r, q, h.trans he⟩
  · rw [h, he]
    exact ⟨_, q, rfl⟩

end

end Sys2Proof.Machine

section

open Sys2Proof Sys2Proof.Machine

/-- Settles O33: the command's place in its queue and the queue's STATE are the two things that `endCmd` writes. -/
theorem commandEnd : Obligations.CommandEnd := by
  unfold Obligations.CommandEnd
  intro s n idx status result detail _ t hasEnded
  have hover : s.cmdOver n idx = true ↔ hasEnded := s.cmdOver_iff idx
  have hcmds : (t.queue n).cmds = ((s.cmdEnded n idx status result detail).queue n).cmds :=
    congrArg Queue.cmds (s.queue_endCmd idx status result detail)
  refine ⟨fun hnot => ?fresh, fun hended => ?kept, fun m hm => ⟨?queues, fun _ => ?states⟩, ?frame,
    fun hlo hhi hrun => ?stops, fun hkeeps => ?keeps⟩
  case fresh => rw [hcmds, State.cmdEnded, if_neg (mt hover.mp hnot), State.queue_setCmd_self]
  case kept => rw [hcmds, State.cmdEnded, if_pos (hover.mpr hended)]
  case queues => rw [State.queue_endCmd, State.queue_cmdEnded_of_ne _ _ _ _ _ hm]
  case states => exact s.sqState_endCmd_of_ne _ _ _ _ hm
  case frame =>
    obtain ⟨r, q, h⟩ := s.endCmd_regs_queues (n := n) idx status result detail
    simp only [t, h, and_self]
  case stops =>
    have h : t = _ := (s.endCmd_eq idx status result detail).trans (if_pos ⟨hlo, hhi, hrun⟩)
    rw [h, State.sqState, State.rf_setRf_self]
    rfl
  case keeps =>
    have h : t = _ := (s.endCmd_eq idx status result detail).trans (if_neg (by omega))
    rw [h, State.sqState_cmdEnded]

end

namespace Sys2Proof.Machine

/-! ### A command that may start runs (R407, R412) -/

theorem Cmd.word_lt (c : Cmd) (i : Nat) : c.word i < 2 ^ 64 := Nat.mod_lt _ (Nat.two_pow_pos _)

theorem and_span_zero {x w : Nat} (h : x < 2 ^ w) : x &&& span 0 w = x := by
  rw [span, Nat.pow_zero, Nat.mul_one, Nat.and_two_pow_sub_one_eq_mod, Nat.mod_eq_of_lt h]

theorem Cmd.word_and_allBits (c : Cmd) (i : Nat) : c.word i &&& allBits = c.word i := by
  rw [allBits, Nat.and_two_pow_sub_one_eq_mod, Nat.mod_eq_of_lt (c.word_lt i)]

/-- The operand words from `first` on are 0. -/
def Cmd.zerosFrom (c : Cmd) (first : Nat) : Prop := ∀ i, first ≤ i → i ≤ 6 → c.word i = 0

/-- No reserved bit is set where the words before `first` lie in their masks and the others are 0. -/
theorem Cmd.reserved_eq_none {c : Cmd} {masks : List Nat} {first : Nat} (hz : c.zerosFrom first)
    (h : ∀ i, 1 ≤ i → i < first → c.word i &&& masks.getD (i - 1) 0 = c.word i) : c.reserved masks = none := by
  refine List.find?_eq_none.mpr fun i hi => ?_
  have hrange : 1 ≤ i ∧ i ≤ 6 := by simp at hi; omega
  by_cases hlt : i < first
  · rw [h i hrange.1 hlt, bne_self_eq_false]
    exact Bool.false_ne_true
  · simp [hz i (by omega) hrange.2]

theorem Cmd.reserved_allBits (c : Cmd) :
    c.reserved [allBits, allBits, allBits, allBits, allBits, allBits] = none := by
  simp [Cmd.reserved, Cmd.word_and_allBits]

/-- Of the commands that a test selects the same one may start, if it is one of them. -/
theorem State.nextCmd_eq_filter (s : State) (n : Nat) (sel : Cmd → Bool) :
    s.nextCmd n sel = (s.nextCmd n fun _ => true).filter sel := by
  unfold State.nextCmd
  dsimp only
  split
  · rfl
  split
  · exact (Option.filter_some ..).symm
  split
  · rfl
  · rename_i c _
    by_cases hc : sel c = true
    · simp only [hc, true_and]
      split
      · exact (Option.filter_some_pos hc).symm
      · rfl
    · rw [if_neg fun h => hc h.2.2.1]
      split
      · exact (Option.filter_some_neg (Bool.eq_false_iff.mpr hc)).symm
      · rfl

section

variable {s : State} {n op : Nat} {c : Cmd} {sel : Cmd → Bool} {masks : List Nat} {range : Cmd → Option Nat}
  {priv : Bool} {body : State → Cmd → Nat → State} {u : State}

/-- A command that passes the checks of R412 and R418 makes its start record, and its own effect follows. -/
theorem State.startable.runCmd (h : s.startable n c) (hop : c.opcode = op) (hsel : sel c = true)
    (hpriv : priv = true → s.queueCtx n = 0) (hres : c.reserved masks = none) (hrange : range c = none)
    (hbody : body (s.traceStart n c) c (s.queueCtx n) = u) :
    s.runCmd n op sel priv masks range body = .next u := by
  obtain ⟨hnext, hmay, hflags⟩ := h
  have hfound : s.nextCmd n (fun c => c.opcode == op && sel c) = some c := by
    rw [State.nextCmd_eq_filter, hnext]
    simp [hop, hsel]
  have hnopriv : ¬(priv = true ∧ s.queueCtx n ≠ 0) := fun hp => hp.2 (hpriv hp.1)
  simp only [State.runCmd, hfound, hmay, hflags, hnopriv, hres, hrange, hbody, firstWord, Bool.not_true, Bool.false_eq_true,
    if_false, ne_eq, not_true_eq_false]

/-- A command that the test of its row leaves out stays at its start. -/
theorem State.startable.runCmd_of_not_sel (h : s.startable n c) (hsel : sel c = false) :
    s.runCmd n op sel priv masks range body = .next s := by
  have hfound : s.nextCmd n (fun c => c.opcode == op && sel c) = none := by
    rw [State.nextCmd_eq_filter, h.1]
    simp [hsel]
  simp only [State.runCmd, hfound]

/-! ### The commands of a queue (R410 to R420; 17 R514) -/

theorem State.startable.nopCmd (h : s.startable n c) (hop : c.opcode = 1) (hz : c.zerosFrom 1) :
    execNopCmd n s = .next ((s.traceStart n c).endCmd n c.index stOk 0 0) :=
  h.runCmd hop rfl nofun (Cmd.reserved_eq_none hz (by omega)) rfl rfl

theorem State.startable.windowFence (h : s.startable n c) (hop : c.opcode = 2) (hw : c.word 1 < 4)
    (hz : c.zerosFrom 3) :
    let t := s.traceStart n c
    execWindowFence n s = .next (if t.windowReached (c.word 1) (c.word 2)
      then (t.fenceDone (c.word 1)).endCmd n c.index stOk (c.word 2) 0
      else t.setCmd n c.index (.waiting waitWindow)) := by
  refine h.runCmd hop rfl nofun (Cmd.reserved_eq_none hz fun i hlo hhi => ?_) rfl rfl
  obtain rfl | rfl : i = 1 ∨ i = 2 := by omega
  · exact and_span_zero (w := 2) hw
  · exact c.word_and_allBits 2


theorem State.startable.launch (h : s.startable n c) (hop : c.opcode = 3)
    (hres : c.reserved [allBits, allBits, span 0 42 + span 48 10,
      span 0 6 + span 8 8 + span 16 2 + span 20 12 + span 32 6 + span 40 5] = none) :
    let t := s.traceStart n c
    let p := c.launchParams (s.queueCtx n)
    let t1 := t.setCmd n c.index .running
    p.parties ≠ 0 → p.clusters ≠ 0 → p.first + p.clusters ≤ 704 → p.shapeOk = true →
    (∀ j, j < p.clustersUsed → t.clusterHalted (p.first + j) = false) →
      execLaunch n s = .next (({ t1 with
        launches := Table.insert t1.launches t1.nextLaunch ⟨p, n, c.index, [], 0⟩
        nextLaunch := t1.nextLaunch + 1 } : State).placeParties t1.nextLaunch p) := by
  intro t p t1 hparties hclusters hlast hshape hrun
  have hlegal : ¬(p.clusters = 0 ∨ 704 < p.first + p.clusters ∨ (!p.shapeOk) = true) := by
    simp [hclusters, Nat.not_lt.mpr hlast, hshape]
  have hnone : ((List.range p.clustersUsed).find? fun j => t.clusterHalted (p.first + j)) = none :=
    List.find?_eq_none.mpr fun j hj => by simp [hrun j (List.mem_range.mp hj)]
  refine h.runCmd hop rfl nofun hres (if_neg hparties) ?_
  dsimp only
  rw [if_neg hlegal, hnone]

theorem State.cmdBellOk_of_ok {ctx b : Nat} (h : ctx = 0 ∨ s.bellOk ctx b = true) : s.cmdBellOk ctx b = true := by
  simpa [State.cmdBellOk] using h

theorem Cmd.reserved_bell (hb : c.word 1 < 16384) (hz : c.zerosFrom 3) : c.reserved [span 0 14, allBits] = none := by
  refine Cmd.reserved_eq_none hz fun i hlo hhi => ?_
  obtain rfl | rfl : i = 1 ∨ i = 2 := by omega
  · exact and_span_zero (w := 14) hb
  · exact c.word_and_allBits 2

theorem State.startable.bellWaitCmd (h : s.startable n c) (hop : c.opcode = 4) (hroom : s.bellWaits n < 16)
    (hb : c.word 1 < 16384) (hz : c.zerosFrom 3) :
    let t := s.traceStart n c
    let ctx := s.queueCtx n
    let u := t.countPkg 12 0 ctx 1
    (ctx = 0 ∨ t.bellOk ctx (c.word 1) = true) →
      execBellWaitCmd n s = .next (if c.word 2 ≤ (t.bell (c.word 1)).toNat then u.endCmd n c.index stOk (c.word 2) 0
        else u.setCmd n c.index (.waiting waitBell)) := by
  intro t ctx u hok
  have hbell : ¬(!t.cmdBellOk ctx (c.word 1)) = true := by simp [State.cmdBellOk_of_ok hok]
  exact h.runCmd hop (decide_eq_true hroom) nofun (Cmd.reserved_bell hb hz) rfl (if_neg hbell)

/-- With the queue's 16 waits registered a BELL_WAIT stays at its start (07 R250). -/
theorem State.startable.bellWaitCmd_of_full (h : s.startable n c) (hfull : 16 ≤ s.bellWaits n) :
    execBellWaitCmd n s = .next s :=
  h.runCmd_of_not_sel (sel := fun _ => decide (s.bellWaits n < 16)) (decide_eq_false (Nat.not_lt.mpr hfull))

theorem State.startable.bellSignal (h : s.startable n c) (hop : c.opcode = 5) (hb : c.word 1 < 16384)
    (hz : c.zerosFrom 3) :
    let t := s.traceStart n c
    let ctx := s.queueCtx n
    (ctx = 0 ∨ t.bellOk ctx (c.word 1) = true) → execBellSignal n s =
      .next ((t.bellAdd (c.word 1) (BitVec.ofNat 64 (c.word 2)) ctx).endCmd n c.index stOk 0 0) := by
  intro t ctx hok
  have hbell : ¬(!t.cmdBellOk ctx (c.word 1)) = true := by simp [State.cmdBellOk_of_ok hok]
  exact h.runCmd hop rfl nofun (Cmd.reserved_bell hb hz) rfl (if_neg hbell)

/-- The command ends OK with RESULT 0. -/
def endsOk (n : Nat) (c : Cmd) (u : State) : Host.Outcome State Fault Refusal := .next (u.endCmd n c.index stOk 0 0)

/-- What a hint leaves in the power controller before its command ends (17 R514). -/
def State.hinted (s : State) (c : Cmd) : State :=
  let s1 := s.wrapRf .pwrHintCnt .accepted 1
  let d := bits (c.word 1) 0 32
  if !s.rbit .pwrCtl .hintEn then s.satRf .pwrHintCnt .ignored 1
  else if d = 0 then s1.setReg .pwrHint 0
  else (((s1.setRf .pwrHint .active 1).setRf .pwrHint .mask (bits (c.word 1) 48 4)).setRf .pwrHint .powerW
    (bits (c.word 1) 32 16)).setRf .pwrHint .remainUs d

theorem State.hinted_of_off (hoff : s.rbit .pwrCtl .hintEn = false) :
    s.hinted c = s.satRf .pwrHintCnt .ignored 1 := if_pos (by rw [hoff]; rfl)

theorem State.hinted_of_on (hon : s.rbit .pwrCtl .hintEn = true) :
    let s1 := s.wrapRf .pwrHintCnt .accepted 1
    let d := bits (c.word 1) 0 32
    s.hinted c = if d = 0 then s1.setReg .pwrHint 0
      else (((s1.setRf .pwrHint .active 1).setRf .pwrHint .mask (bits (c.word 1) 48 4)).setRf .pwrHint .powerW
        (bits (c.word 1) 32 16)).setRf .pwrHint .remainUs d := if_neg (by rw [hon]; exact Bool.false_ne_true)

theorem State.startable.hintHeavy (h : s.startable n c) (hop : c.opcode = 6) (hw : c.word 1 < 2 ^ 52)
    (hz : c.zerosFrom 2) :
    execHintHeavy n s = endsOk n c ((s.traceStart n c).hinted c) := by
  have hres : c.reserved [span 0 52] = none := Cmd.reserved_eq_none hz fun i hlo hhi => by
    obtain rfl : i = 1 := by omega
    exact and_span_zero hw
  exact h.runCmd hop rfl nofun hres rfl rfl

theorem State.startable.xltInv (h : s.startable n c) (hop : c.opcode = 9) (hctx : s.queueCtx n = 0)
    (hres : c.reserved [span 0 6 + span 8 1, span 16 39, span 16 40] = none) (hlive : c.word 1 % 64 ≠ 63) :
    let t := s.traceStart n c
    t.invBusy = false → execXltInv n s = .next ((t.setCmd n c.index .running).startInv (c.word 1 % 64)
      ((c.word 1).testBit 8) (c.word 2) (c.word 3) (some (n, c.index))) := by
  intro t hidle
  have hbusy : ¬t.invBusy = true := by simp [hidle]
  exact h.runCmd hop rfl (fun _ => hctx) hres (if_neg hlive) (if_neg hbusy)

/-- What CTX_DESTROY of a context leaves: the lines of its clusters released, its work ended, no sampled tile of it, and
its queues disabled (R420). -/
def State.ctxDestroyed (t : State) (n idx x : Nat) : State :=
  let t0 := t.setCmd n idx .running
  let t1 := (t0.clusters.foldl (fun u e =>
    if e.2.parties.any fun p => p.2.par.ctx == x then u.releaseAt e.1 x 3 else u) t0).endCtxWork x
  let t2 := t1.mapClusters fun _ k => { k with te := { k.te with shadow := match k.te.shadow with
    | some j => if j.ctx = x then none else some j
    | none => none } }
  (List.range 256).foldl (fun u q => if u.sqState q ≠ qDisabled ∧ u.queueCtx q = x then u.sqDisable q true else u) t2

theorem State.startable.ctxDestroy (h : s.startable n c) (hop : c.opcode = 12) (hctx : s.queueCtx n = 0)
    (hx : c.word 1 < 63) (hzero : c.word 1 ≠ 0) (hz : c.zerosFrom 2) :
    let t := s.traceStart n c
    (Table.find t.ctxs (c.word 1)).isSome = true →
      execCtxDestroy n s = .next (t.ctxDestroyed n c.index (c.word 1)).destroyDone := by
  intro t hlive
  have hres : c.reserved [span 0 6] = none := Cmd.reserved_eq_none hz fun i hlo hhi => by
    obtain rfl : i = 1 := by omega
    exact and_span_zero (show c.word 1 < 2 ^ 6 by omega)
  have hword : bits (c.word 1) 0 6 = c.word 1 := Nat.mod_eq_of_lt (show c.word 1 < 2 ^ 6 by omega)
  have hknown : ¬(c.word 1 = 0 ∨ c.word 1 = 63 ∨ (Table.find t.ctxs (c.word 1)).isNone = true) := by
    simp [hzero, Nat.ne_of_lt hx, Option.isNone_iff_eq_none, Option.isSome_iff_ne_none.mp hlive]
  refine h.runCmd hop rfl (fun _ => hctx) hres rfl ?_
  dsimp only
  rw [hword, if_neg hknown]
  rfl

/-! ### Collectives and MUSTER (16 R482 to R484, R496) -/

/-- The collective that command `c` of a queue starts: the next of its engine, over the group of R482. -/
def State.collOf (t : State) (n ctx : Nat) (cx : Ctx) (c : Cmd) : Coll :=
  let e := bits (c.word 3) 52 2
  let mask := bits (c.word 3) 56 4
  let rank := (t.rankOf ctx).1
  ⟨ctx, e, (Table.get 0 t.pod.cseq (4 * ctx + e) + 1) % 65536, n, c.index, c.record,
    (List.range (groupSize cx.axes mask)).map (groupRank cx.axes mask rank), groupIndex cx.axes mask rank, [], [], [],
    [], 0, none⟩

/-- The collective joins the active ones, and its engine's count and queue are kept. -/
def State.collJoined (t : State) (n ctx : Nat) (cx : Ctx) (c : Cmd) : State :=
  let key := 4 * ctx + bits (c.word 3) 52 2
  { t with pod := { t.pod with
    colls := t.pod.colls ++ [t.collOf n ctx cx c]
    cseq := Table.insert t.pod.cseq key (Table.get 0 t.pod.cseq key + 1)
    collQueue := Table.insert t.pod.collQueue key n } }

/-- A collective with legal operands starts on a free engine that no other queue used last. -/
theorem State.collStart_of_free {t : State} {ctx : Nat} {cx : Ctx} (hlegal : (t.collOf n ctx cx c).badWord = none)
    (hfree : t.coll ctx (bits (c.word 3) 52 2) = none)
    (hqueue : ∀ q, Table.find t.pod.collQueue (4 * ctx + bits (c.word 3) 52 2) = some q → q = n) :
    (t.collStart n ctx cx c).1 =
      ((t.collJoined n ctx cx c).setCmd n c.index .running).showColl.collRun ctx (bits (c.word 3) 52 2) := by
  have hmine : ¬(Table.find t.pod.collQueue (4 * ctx + bits (c.word 3) 52 2)).getD n ≠ n := by
    cases hfind : Table.find t.pod.collQueue (4 * ctx + bits (c.word 3) 52 2) with
    | none => simp
    | some q => simp [hqueue q hfind]
  have hidle : ¬(t.coll ctx (bits (c.word 3) 52 2)).isSome = true := by simp [hfree]
  unfold State.collOf at hlegal
  dsimp only at hlegal
  unfold State.collStart
  dsimp only
  rw [if_neg hidle, hlegal]
  exact congrArg Prod.fst (if_neg hmine)

theorem State.startable.runColl {cx : Ctx} (h : s.startable n c) (hop : c.opcode = op) :
    let t := s.traceStart n c
    let ctx := s.queueCtx n
    let e := bits (c.word 3) 52 2
    Table.find t.ctxs ctx = some cx → (t.collOf n ctx cx c).badWord = none → t.coll ctx e = none →
    (∀ q, Table.find t.pod.collQueue (4 * ctx + e) = some q → q = n) →
      s.runColl n op = .next (((t.collJoined n ctx cx c).setCmd n c.index .running).showColl.collRun ctx e) := by
  intro t ctx e hlive hlegal hfree hqueue
  refine h.runCmd hop rfl nofun c.reserved_allBits rfl ?_
  rw [hlive]
  exact State.collStart_of_free hlegal hfree hqueue

theorem Cmd.reserved_muster (hw : c.word 2 < 2 ^ 32) (hz : c.zerosFrom 3) : c.reserved [allBits, span 0 32] = none :=
  Cmd.reserved_eq_none hz fun i hlo hhi => by
    obtain rfl | rfl : i = 1 ∨ i = 2 := by omega
    · exact c.word_and_allBits 1
    · exact and_span_zero hw

/-- A MUSTER in a context that musters with no one ends at once. -/
theorem State.startable.muster_alone (h : s.startable n c) (hop : c.opcode = 0x16) (hw : c.word 2 < 2 ^ 32)
    (hz : c.zerosFrom 3) (halone : (s.traceStart n c).musters (s.queueCtx n) = false) :
    execMuster n s = .next ((s.traceStart n c).endCmd n c.index stOk (c.word 2) 0) := by
  have hword : bits (c.word 2) 0 32 = c.word 2 := Nat.mod_eq_of_lt hw
  refine h.runCmd hop rfl nofun (Cmd.reserved_muster hw hz) rfl ?_
  dsimp only
  rw [halone, hword]
  rfl

/-- A MUSTER in an unmustered context starts with its digest, which it reads. -/
theorem State.startable.muster_start (h : s.startable n c) (hop : c.opcode = 0x16) (hw : c.word 2 < 2 ^ 32)
    (hz : c.zerosFrom 3) (hva : c.word 1 < apertureBase) :
    let t := s.traceStart n c
    let ctx := s.queueCtx n
    t.musters ctx = true → (t.muster ctx).stage = .unmustered → ∀ {t1 d},
      t.unitRead ctx (c.word 1) 64 needReadDev = (t1, .ok, d) →
        execMuster n s = .next (t1.musterStart n ctx c d) := by
  intro t ctx hmusters hstage t1 d hread
  refine h.runCmd hop rfl nofun (Cmd.reserved_muster hw hz) rfl ?_
  dsimp only
  rw [hmusters, hstage, hread]
  exact if_neg (Nat.not_le.mpr hva)

end

end Sys2Proof.Machine

section

open Sys2Proof Sys2Proof.Machine

/-- Settles O30: a command that may start and whose words pass their checks takes the one branch of its row that its
state selects; the hint of duration 0 and the MUSTER of one node are the model's logs 104 and 83, and what else a
destroyed context's commands end with its log 139. -/
theorem queueCommands : Obligations.QueueCommands := by
  unfold Obligations.QueueCommands
  refine ⟨?commands, ?collectives⟩
  case commands =>
    intro s n c h t ctx done zeros
    refine ⟨h.nopCmd, fun hop hw hz => ⟨fun hreached => ?fenced, fun hnot => ?fencing⟩, h.launch,
      fun _ => h.bellWaitCmd_of_full, fun hop hroom hb hz hok => ⟨fun hle => ?waited, fun hlt => ?waiting⟩, h.bellSignal,
      fun hop hw hz => ⟨fun hoff => ?ignored, fun hon hd => ?ended, fun hon hd => ?hinted⟩, h.xltInv,
      h.ctxDestroy⟩
    case fenced => exact (h.windowFence hop hw hz).trans (congrArg _ (if_pos hreached))
    case fencing => exact (h.windowFence hop hw hz).trans (congrArg _ (if_neg (ne_true_of_eq_false hnot)))
    case waited => exact (h.bellWaitCmd hop hroom hb hz hok).trans (congrArg _ (if_pos hle))
    case waiting => exact (h.bellWaitCmd hop hroom hb hz hok).trans (congrArg _ (if_neg (Nat.not_le.mpr hlt)))
    case ignored => exact (h.hintHeavy hop hw hz).trans (congrArg (endsOk n c) (State.hinted_of_off hoff))
    case ended => exact (h.hintHeavy hop hw hz).trans (congrArg (endsOk n c) ((State.hinted_of_on hon).trans (if_pos hd)))
    case hinted => exact (h.hintHeavy hop hw hz).trans (congrArg (endsOk n c) ((State.hinted_of_on hon).trans (if_neg hd)))
  case collectives =>
    intro s n c h t ctx e key seq begun
    refine ⟨fun cx hlive hbegun hqueue => ?begin, fun hop hw hz => ⟨h.muster_alone hop hw hz,
      fun hmusters hstage hva t1 d hread => h.muster_start hop hw hz hva hmusters hstage hread⟩⟩
    obtain ⟨hlegal, hfree⟩ := Prod.ext_iff.mp hbegun
    have hrun {op : Nat} (hop : c.opcode = op) : s.runColl n op = .next (begun cx).2 :=
      h.runColl hop hlive hlegal hfree hqueue
    exact ⟨hrun, hrun, hrun, hrun, hrun, hrun⟩

end

namespace Sys2Proof.Machine

/-! ### Packages for the counterexamples -/

/-- A package in READY whose PCIe link is up, and whose context 0 may read the host's memory. -/
@[irreducible] def linkedState : State :=
  ((State.reset.setRf .bootStatus .stage 8).setRf .hqLinkStatus .up 1).setRf (.xltCtx 0) .aperture 1

/-- TABLE_LOAD of the first 32 bytes of the aperture to physical address 0. -/
@[irreducible] def loadCmd : Cmd := ⟨0, BitVec.ofNat 512 (10 + 2 ^ 64 * apertureBase + 2 ^ 192 * 32), .fetched⟩

/-- Queue 0 runs in context 0 and has fetched the TABLE_LOAD. -/
@[irreducible] def loadState : State :=
  ({ linkedState with queues := [(0, ⟨1, [loadCmd], none, none⟩)] } : State).setRf (.hqSqStatus 0) .state qRun

/-- How many things an outcome has handed to the outside. -/
def sentAfter (o : Host.Outcome State Fault Refusal) : Option Nat := (after o).map fun t => t.outbox.length

/-- The host's answer to a read of zeros, none of which fails. -/
def zerosAnswer : HostAnswer := ⟨[], []⟩

/-- Ring 0 is disabled and its base is the last page of the host aperture, for 2^14 records. -/
@[irreducible] def lastPageRing : State :=
  linkedState.setReg (.hqCqBase 0) (BitVec.ofNat 64 ((2 ^ 44 - 1) * 2 ^ 12 + 14))

/-- ENABLE of ring 0 after an outcome. -/
def ringOnAfter (o : Host.Outcome State Fault Refusal) : Option Bool :=
  (after o).map fun t => t.rbit (.hqCqCtrl 0) .enable

end Sys2Proof.Machine

section

open Sys2Proof Sys2Proof.Machine

/-- Refutes O31: TABLE_LOAD reads the host's bytes with a read request (12_host_interface.md R390), and the statement's
end state leaves that request out of what the package has sent. -/
theorem not_queueMemoryCommands : ¬ Obligations.QueueMemoryCommands := by
  unfold Obligations.QueueMemoryCommands
  intro h
  have hstart : loadState.startable 0 loadCmd := ⟨by decide +kernel, by decide +kernel, by decide +kernel⟩
  obtain ⟨-, hload, -⟩ := h loadState 0 loadCmd hstart
  have hzero : ∀ i, 4 ≤ i → i ≤ 6 → loadCmd.word i = 0 := by decide +kernel
  have hhost : ((loadState.traceStart 0 loadCmd).translate .square 0 (loadCmd.word 1) needRead).2 = .host 0 := by
    decide +kernel
  have hxlt : ∀ cause e, ((loadState.traceStart 0 loadCmd).translate .square 0 (loadCmd.word 1) needRead).2 ≠
      .fault cause e := by simp [hhost]
  have hopcode : loadCmd.opcode = 10 := by decide +kernel
  have hctx : loadState.queueCtx 0 = 0 := by decide +kernel
  have hrange : tableLoadBad (loadCmd.word 1) (loadCmd.word 2) (loadCmd.word 3) = none := by decide +kernel
  have hup : (loadState.traceStart 0 loadCmd).rbit .hqLinkStatus .up = true := by decide +kernel
  have hend := hload zerosAnswer hopcode hctx hzero hrange hxlt hup rfl
  exact absurd (congrArg sentAfter hend) (by decide +kernel)

/-- Refutes O34: a ring of 2^14 records does not lie whole in the host aperture when its base is the aperture's last
page, and its enable is refused (13_command_queues.md R400). -/
theorem not_queueRegistersAndFetch : ¬ Obligations.QueueRegistersAndFetch := by
  unfold Obligations.QueueRegistersAndFetch
  rintro ⟨hregs, -⟩
  obtain ⟨-, hrings, -⟩ := hregs lastPageRing .host (2 ^ 63) (by decide +kernel) (by decide +kernel) (by decide +kernel)
  have hforeign : lastPageRing.cqForeign .host 0 = false := by decide +kernel
  have hon : (2 ^ 63 : Word).getLsbD 63 = true := by decide +kernel
  have hoff : lastPageRing.rbit (.hqCqCtrl 0) .enable = false := by decide +kernel
  have hready : lastPageRing.ready = true := by decide +kernel
  have hsize : lastPageRing.rf (.hqCqBase 0) .sizeLog2 = 14 := by decide +kernel
  have hplace : Master.host = .host ↔ apertureBase ≤ lastPageRing.cqVa 0 := by decide +kernel
  have henable := (hrings 0 (by decide) hforeign).1 hon hoff hready (by omega) (by omega) hplace
  exact absurd (congrArg ringOnAfter henable) (by decide +kernel)

end

/-! PROOF. The Square services of O50: interrupt routes, heartbeats, ring registers, counters and retirement. -/

namespace Sys2Proof.Machine

/-! ### CLEAR_ALL (20 R573) -/

theorem Table.get_filter {α : Type} (d : α) (t : Table α) (p : Nat → Bool) (k : Nat) :
    Table.get d (t.filter fun e => p e.1) k = if p k then Table.get d t k else d := by
  induction t with
  | nil => simp
  | cons e t ih =>
    obtain ⟨j, v⟩ := e
    by_cases hp : p j <;> by_cases hk : k = j <;> simp_all [Table.get]

/-- The address is that of a counter. -/
def counterAt (a : Nat) : Bool := ((Reg.ofAddr a).map Reg.isCounter).getD false

theorem State.clearCounters_reg (s : State) (r : Reg) :
    s.clearCounters.reg r = if counterAt r.addr then BitVec.ofNat 64 r.reset else s.reg r := by
  have hkeep := Table.get_filter (BitVec.ofNat 64 r.reset) s.regs (fun a => !counterAt a) r.addr
  cases hc : counterAt r.addr <;> rw [hc] at hkeep <;> exact hkeep

theorem findReg_clCtr (c : Nat) {n : Nat} (hn : n < 16) : findReg (0x808 + 0x10 * n) (clFamilies1 c) = some (.clCtr c n) := by
  interval_cases n <;> simp [findReg, clFamilies1]

theorem counterAt_clCtr {c n : Nat} (hc : c < 704) (hn : n < 16) : counterAt (Reg.clCtr c n).addr = true := by
  have haddr : (Reg.clCtr c n).addr = 0x1000000 + (0x4000 * c + (0x808 + 0x10 * n)) := by
    simp only [Reg.addr]
    omega
  have hdie : (0x4000 * c + (0x808 + 0x10 * n)) / 0x4000 = c := by omega
  have hoff : (0x4000 * c + (0x808 + 0x10 * n)) % 0x4000 = 0x808 + 0x10 * n := by omega
  have hlt : 0x1000000 + (0x4000 * c + (0x808 + 0x10 * n)) < 0x1000000 + 0x4000 * 704 := by omega
  rw [counterAt, haddr, Reg.ofAddr, if_pos (Nat.le_add_right _ _), if_pos hlt, Nat.add_sub_cancel_left, hdie, hoff,
    findReg_clCtr c hn]
  rfl

/-- A register search passes over families that do not reach the address. -/
theorem findReg_append_of_apart {a : Nat} {fs gs : List RegFamily}
    (h : ∀ f ∈ fs, f.base + f.stride * f.count ≤ a ∨ a < f.base) : findReg a (fs ++ gs) = findReg a gs := by
  induction fs with
  | nil => rfl
  | cons f fs ih =>
    have hf := h f List.mem_cons_self
    rw [List.cons_append, findReg, if_neg (by omega), ih fun g hg => h g (List.mem_cons_of_mem f hg)]

/-- The register families before those of the pooled counters. -/
def familiesBeforePctr : List RegFamily :=
  (regFamilies1 ++ regFamilies2 ++ regFamilies3 ++ regFamilies4).dropLast.dropLast

theorem regFamilies_eq_append : regFamilies1 ++ regFamilies2 ++ regFamilies3 ++ regFamilies4 =
    familiesBeforePctr ++ [⟨0x601000, 0x10, 256, .obsPsel⟩, ⟨0x601008, 0x10, 256, .obsPctr⟩] := by
  rw [familiesBeforePctr]
  rfl

theorem familiesBeforePctr_apart :
    ∀ f ∈ familiesBeforePctr, f.base + f.stride * f.count ≤ 0x601000 ∨ 0x602000 ≤ f.base := by
  decide +kernel

theorem ofAddr_pooled {a : Nat} (hlo : 0x601000 ≤ a) (hhi : a < 0x602000) :
    Reg.ofAddr a = findReg a [⟨0x601000, 0x10, 256, .obsPsel⟩, ⟨0x601008, 0x10, 256, .obsPctr⟩] := by
  rw [Reg.ofAddr, if_neg (by omega), regFamilies_eq_append, findReg_append_of_apart]
  intro f hf
  have := familiesBeforePctr_apart f hf
  omega

theorem counterAt_obsPctr {n : Nat} (hn : n < 256) : counterAt (Reg.obsPctr n).addr = true := by
  have haddr : (Reg.obsPctr n).addr = 0x601008 + 0x10 * n := rfl
  rw [counterAt, haddr, ofAddr_pooled (by omega) (by omega), findReg, if_neg (by dsimp only; omega), findReg,
    if_pos (by dsimp only; omega)]
  rfl

theorem counterAt_obsPsel {n : Nat} (hn : n < 256) : counterAt (Reg.obsPsel n).addr = false := by
  have haddr : (Reg.obsPsel n).addr = 0x601000 + 0x10 * n := rfl
  rw [counterAt, haddr, ofAddr_pooled (by omega) (by omega), findReg, if_pos (by dsimp only; omega)]
  rfl

/-- A write of OBS_CTR_CTL without CLEAR_ALL. -/
def State.ctrCtlSet (s : State) (v : Word) : State :=
  (s.setRf .obsCtrCtl .enable (fld v 63 1)).setRf .obsCtrCtl .freeze (fld v 62 1)

theorem getLsbD_toNat (v : Word) (i : Nat) : bit v.toNat i = v.getLsbD i := rfl

theorem State.ctrCtlWrite_eq (s : State) (v : Word) :
    s.ctrCtlWrite v = if v.getLsbD 61 = true then (s.ctrCtlSet v).clearCounters else s.ctrCtlSet v := rfl

end Sys2Proof.Machine

section

open Sys2Proof Sys2Proof.Machine

/-- Settles O50, register by register. FREEZE and CLEAR_ALL acting at once is log 115. -/
theorem squareServices : Obligations.SquareServices := by
  unfold Obligations.SquareServices
  intro s m v
  refine ⟨?glb, ?flt, ?obs, ?retire, ?watchdog, ?ready⟩
  case glb =>
    intro ho
    refine ⟨fun i hi => ⟨fun hlo => ?_, fun hhi => ?_⟩, fun hc => ?_⟩
    · simp [execRouteWrite, State.routeWrite, ho, hi, Nat.not_le.mpr hlo]
    · simp [execRouteWrite, State.routeWrite, hhi]
    · simp [execBeat, State.beatWrite, ho, hc]
  case flt =>
    intro ho
    refine ⟨fun h63 hlo hr => ?_, fun he => ?_, fun he => ?_⟩
    · simp [execRuntimeStop, State.runtimeStop, getLsbD_toNat, ho, h63, hlo, hr]
    · simp [execShadowRingWrite, State.ringWrite, ho, he]
    · simp [execErrorRingWrite, State.ringWrite, ho, he]
  case obs =>
    intro ho
    refine ⟨fun he hq hl => ?_, fun hr => ?_, fun hb => ?_, fun hb => ?_⟩
    · simp [execTraceRingWrite, State.traceRingWrite, ho, he, hq, Nat.not_lt.mpr hl]
    · simp only [exec_traceRingWrite, execTraceRingWrite, ho, if_true, State.traceRingWrite, if_pos hr]
    · simp only [exec_freeze, execFreeze, ho, if_true, State.ctrCtlWrite_eq, State.ctrCtlSet, hb, Bool.false_eq_true, if_false]
    · refine ⟨(s.ctrCtlSet v).clearCounters, ?_, fun c n hc hn => ?_, fun n hn => ?_, fun n hn => ?_⟩
      · simp only [exec_clearAll, execClearAll, ho, if_true, State.ctrCtlWrite_eq, hb]
      · rw [State.clearCounters_reg, if_pos (counterAt_clCtr hc hn)]
        rfl
      · rw [State.clearCounters_reg, if_pos (counterAt_obsPctr hn)]
        rfl
      · simp only [State.clearCounters_reg, counterAt_obsPsel hn, Bool.false_eq_true, if_false, State.ctrCtlSet]
  case retire =>
    intro ho h63 h62 hr hn
    have hin := Nat.not_le.mpr hn
    refine ⟨fun e he => ?_, fun he => ?_⟩ <;>
      simp only [exec_retirementRequest, execRetirementRequest, ho, State.retireWrite, getLsbD_toNat, h63, h62, hr, hin, he,
        Bool.not_true, Bool.or_self, Bool.false_eq_true, if_true, if_false]
  case watchdog =>
    intro he hs
    simp [execReeveWdt, he, hs]
  case ready =>
    intro hr
    refine ⟨fun hl => ?_, fun core hc => ?_, fun c ctx line l hh hf => ⟨?_, ?_⟩⟩
    · simp [execRuntimeStall, hr, hl]
    · simp [execCoreParity, hr, hc]
    · simp [execL1Evict, hr, hh, hf]
    · simp [execL1Evict, hr, hh, hf]

end

/-! PROOF. Frames that arrive (O52): the branches of a row's arrival, and of a sequenced frame, each once. -/

namespace Sys2Proof.Machine

section

variable {s t : State} {f : Frame}

/-! ### Arrival and admission (15 R460, R462) -/

/-- No row acts on a frame that is discarded: it is counted. -/
theorem State.arrive_of_discards (h : s.ready = true ∧ s.rbit .podNode .valid = true ∧ s.portUp f.port = true ∧
    s.addressed f = true) (hd : s.discards f = true) (ty : Nat) (act : State → State) :
    s.arrive f ty act = (s.wrapRf (.podPortFrames f.port) .rx 1).satRf .podXstat .rxDiscard 1 := by
  obtain ⟨hr, hv, hp, ha⟩ := h
  simp [State.arrive, hr, hv, hp, ha, hd]

/-- A row of an arriving frame. -/
def FrameRow (f : Frame) (c : Instr) : Prop :=
  c ∈ [Instr.data f, .read f, .bell f, .ack f, .hold f, .refuse f, .segmentRun f, .credit f, .ready f,
    .musterAck f, .go f, .abort f, .pulse (some f)]

/-- Every row of an arriving frame is an arrival. -/
theorem exec_eq_arrive {c : Instr} (hc : FrameRow f c) : ∃ ty act, exec c s = .next (s.arrive f ty act) := by
  simp only [FrameRow, List.mem_cons, List.not_mem_nil, or_false] at hc
  rcases hc with rfl | rfl | rfl | rfl | rfl | rfl | rfl | rfl | rfl | rfl | rfl | rfl | rfl
  · exact ⟨_, _, exec_data f s⟩
  · exact ⟨_, _, exec_read f s⟩
  · exact ⟨_, _, exec_bell f s⟩
  · exact ⟨_, _, exec_ack f s⟩
  · exact ⟨_, _, exec_hold f s⟩
  · exact ⟨_, _, exec_refuse f s⟩
  · exact ⟨_, _, exec_segmentRun f s⟩
  · exact ⟨_, _, exec_credit f s⟩
  · exact ⟨_, _, exec_ready f s⟩
  · exact ⟨_, _, exec_musterAck f s⟩
  · exact ⟨_, _, exec_go f s⟩
  · exact ⟨_, _, exec_abort f s⟩
  · exact ⟨_, _, exec_pulse (some f) s⟩

theorem exec_of_discards (h : s.ready = true ∧ s.rbit .podNode .valid = true ∧ s.portUp f.port = true ∧
    s.addressed f = true) (hd : s.discards f = true) {c : Instr} (hc : FrameRow f c) :
    exec c s = .next ((s.wrapRf (.podPortFrames f.port) .rx 1).satRf .podXstat .rxDiscard 1) := by
  obtain ⟨ty, act, hexec⟩ := exec_eq_arrive (s := s) hc
  rw [hexec, State.arrive_of_discards h hd]

theorem State.arrive_of_type (h : s.ready = true ∧ s.rbit .podNode .valid = true ∧ s.portUp f.port = true ∧
    s.addressed f = true) (hd : s.discards f = false) {ty : Nat} (ht : f.type = ty) (act : State → State) :
    s.arrive f ty act = act (s.wrapRf (.podPortFrames f.port) .rx 1) := by
  obtain ⟨hr, hv, hp, ha⟩ := h
  simp [State.arrive, hr, hv, hp, ha, hd, ht]

/-- What a sequenced frame comes to once what its sender is answered with is kept: the rest of `State.sequenced`. -/
def State.admitted (t : State) (f : Frame) (act : State → Nat → State) : State :=
  match t.jobCtx f.job with
  | none => t.unbound f
  | some ctx =>
    let p := t.peer f.src
    let d := p.above f.psn
    let owed := fun (b : Body) => b.owner == FrameOf.answer f.psn
    if d = 0 ∨ 2 ^ 31 ≤ d ∨ p.rxGot.contains f.psn then t.sendAck f.src
    else if 4096 < d then t
    else if t.pod.held.any fun h => h.peer == f.src && h.psn == f.psn then
      t.emitPlain f.port f.src tHold f.psn f.job 0 []
    else if p.backlog.any owed then t
    else act t ctx

theorem State.reaches.sequenced_eq (h : s.reaches f t) (act : State → Nat → State) :
    (s.wrapRf (.podPortFrames f.port) .rx 1).sequenced f act = t.admitted f act := by
  obtain ⟨-, -, -, -, -, rfl⟩ := h
  rfl

theorem State.admitted_of_unbound (hj : t.jobCtx f.job = none) (act : State → Nat → State) :
    t.admitted f act = t.unbound f := by
  simp [State.admitted, hj]

theorem State.admitted_of_duplicate {n : Nat} (hj : t.jobCtx f.job = some n)
    (hd : (t.peer f.src).above f.psn = 0 ∨ 2 ^ 31 ≤ (t.peer f.src).above f.psn ∨ f.psn ∈ (t.peer f.src).rxGot)
    (act : State → Nat → State) : t.admitted f act = t.sendAck f.src := by
  simp only [State.admitted, hj, List.contains_iff_mem, if_pos hd]

theorem State.admitted_of_far {n : Nat} (hj : t.jobCtx f.job = some n) (hfar : 4096 < (t.peer f.src).above f.psn)
    (hnear : (t.peer f.src).above f.psn < 2 ^ 31) (hnew : f.psn ∉ (t.peer f.src).rxGot)
    (act : State → Nat → State) : t.admitted f act = t := by
  have hfresh : ¬((t.peer f.src).above f.psn = 0 ∨ 2 ^ 31 ≤ (t.peer f.src).above f.psn ∨
      f.psn ∈ (t.peer f.src).rxGot) :=
    not_or.mpr ⟨by omega, not_or.mpr ⟨Nat.not_le.mpr hnear, hnew⟩⟩
  simp only [State.admitted, hj, List.contains_iff_mem, if_neg hfresh, if_pos hfar]

/-- READ, BELL and a DATA frame for memory are sequenced frames. -/
theorem State.reaches.exec_eq_admitted (h : s.reaches f t) {c : Instr}
    (hc : (c = .read f ∧ f.type = tRead) ∨ (c = .bell f ∧ f.type = tBell) ∨
      (c = .data f ∧ f.type = tData ∧ bit f.va 63 = false)) :
    ∃ act, exec c s = .next (t.admitted f act) := by
  rcases hc with ⟨rfl, ht⟩ | ⟨rfl, ht⟩ | ⟨rfl, ht, hva⟩
  · exact ⟨_, by rw [exec_read, execRead, State.reaches_arrive h ht, h.sequenced_eq]⟩
  · exact ⟨_, by rw [exec_bell, execBell, State.reaches_arrive h ht, h.sequenced_eq]⟩
  · exact ⟨_, by rw [exec_data, execData, State.reaches_arrive h ht, hva, if_neg Bool.false_ne_true,
      h.sequenced_eq]⟩

/-! ### Fresh frames (15 R468 to R472) -/

/-- A fresh DATA frame for memory, which answers no get, writes its bytes. -/
theorem State.fresh.execData {n : Nat} (h : s.reaches f t) (hf : t.fresh f n) (ht : f.type = tData)
    (hva : bit f.va 63 = false) (hget : t.getRun f n = none) {u : State} {x : UAccess}
    (hw : t.unitWrite n f.va (takePad 0 f.len f.payload) = (u, x)) :
    exec (.data f) s = .next (if x = .ok then u.markRx f.src f.psn else u.frameStop f n needWrite x) := by
  have hne : tData ≠ tRead := by decide
  rw [exec_data, Machine.execData, State.reaches_arrive h ht, hva, if_neg Bool.false_ne_true, State.fresh_sequenced h hf,
    State.takeFrame, if_neg (ht ▸ hne)]
  simp only [State.dataWrite, hget, hw]
  cases x <;> simp [State.frameStop]

/-- A fresh READ is answered, or stops as its access does. -/
theorem State.fresh.execRead {n : Nat} (h : s.reaches f t) (hf : t.fresh f n) (ht : f.type = tRead) :
    exec (.read f) s = .next ((t.readAnswer f n).1.frameStop f n needRead (t.readAnswer f n).2) := by
  rw [exec_read, Machine.execRead, State.reaches_arrive h ht, State.fresh_sequenced h hf, State.takeFrame, if_pos ht]

/-- A fresh run of the collective that waits for it is taken. -/
theorem State.fresh.execSegmentRun {n : Nat} (h : s.reaches f t) (hf : t.fresh f n) (ht : f.type = tData)
    (hva : f.va / 2 ^ 60 = 8) {c : Coll} {m i off : Nat} {v : CollVal} (hc : t.coll n f.engine = some c)
    (hcseq : c.cseq = f.cseq) (haux : f.aux % 2 ^ 56 = c.aux 0) (hm : t.memberOf c f.src = some m)
    (hseg : c.segOf f.off = some (i, off)) (hv : c.val f.phase i m = some v) (hst : c.stall = none) :
    exec (.segmentRun f) s = .next (t.takeRun f c v i off) := by
  rw [exec_segmentRun, Machine.execSegmentRun, State.reaches_arrive h ht, if_neg (not_not.mpr hva),
    State.fresh_sequenced h hf]
  simp only [hc, hcseq, haux, hm, hseg, hv, hst, ne_eq, not_true_eq_false, if_false, Option.isSome_none,
    Bool.false_eq_true]

/-- The credit that a CREDIT frame gives, from a rank. -/
def creditOf (f : Frame) (n rank : Nat) : Credit := ⟨n, f.engine, f.cseq, f.phase, f.off, rank⟩

/-- A fresh CREDIT is kept while no collective runs on its engine. -/
theorem State.fresh.execCredit {n : Nat} (h : s.reaches f t) (hf : t.fresh f n) (ht : f.type = tData)
    (hva : f.va / 2 ^ 60 = 9) (hc : t.coll n f.engine = none) :
    ∃ r, exec (.credit f) s = .next
      (({ t with pod := { t.pod with credits := t.pod.credits ++ [creditOf f n r] } } : State).markRx f.src f.psn) := by
  refine ⟨((List.range (t.rankOf n).2).find? fun r => t.rankNode n r == f.src).getD 0, ?_⟩
  have hcoll : ∀ l, (({ t with pod := { t.pod with credits := l } } : State).markRx f.src f.psn).coll n f.engine =
      none := by
    intro l
    obtain ⟨p, hp⟩ := State.markRx_pod { t with pod := { t.pod with credits := l } } f.src f.psn
    rw [State.coll, hp]
    exact hc
  rw [exec_credit, Machine.execCredit, State.reaches_arrive h ht, if_neg (not_not.mpr hva), State.fresh_sequenced h hf]
  simp only [hcoll]
  rfl

/-! ### ACK, HOLD and REFUSE (15 R463 to R473) -/

theorem State.plain_of_bound {act : State → State} (hj : (s.jobCtx f.job).isSome = true) : s.plain f act = act s :=
  if_pos hj

theorem State.plain_of_unbound {act : State → State} (hj : s.jobCtx f.job = none) : s.plain f act = s.unbound f := by
  simp [State.plain, hj]

theorem State.peer_of_find {n : Nat} {p : Peer} (hp : Table.find s.pod.peers n = some p) : s.peer n = p := by
  rw [State.peer, hp, Option.getD_some]

end

end Sys2Proof.Machine

section

open Sys2Proof Sys2Proof.Machine

/-- Settles O52. Which rank a CREDIT came from is the model's reading (log 66), and the answer to a READ carries the
READ's MSG_ID by the model's choice (log 31). -/
theorem podArrivals : Obligations.PodArrivals := by
  unfold Obligations.PodArrivals
  refine ⟨?discarded, ?admission, ?fresh, ?plain⟩
  case discarded =>
    intro s f hr hv hp ha hd t c hc
    exact exec_of_discards ⟨hr, hv, hp, ha⟩ hd hc
  case admission =>
    intro s t f h c hc
    obtain ⟨act, hexec⟩ := h.exec_eq_admitted hc
    refine ⟨fun hj => ?_, fun n hj => ⟨fun hdup => ?_, fun hfar hnear hnew => ?_⟩⟩
    · rw [hexec, State.admitted_of_unbound hj, State.unbound]
    · rw [hexec, State.admitted_of_duplicate hj hdup]
    · rw [hexec, State.admitted_of_far hj hfar hnear hnew]
  case fresh =>
    intro s t f n h hf
    refine ⟨?data, ?read, ?readFault, ?bell, ?run, ?credit⟩
    case data =>
      intro ht hva hget u x hw
      rw [State.fresh.execData h hf ht hva hget hw]
      cases x <;> simp [State.frameStop, portInfo]
    case read =>
      intro ht u bs hread
      rw [State.fresh.execRead h hf ht, State.readAnswer, hread, State.frameStop]
    case readFault =>
      intro ht u bs c e va hread
      rw [State.fresh.execRead h hf ht, State.readAnswer, hread, State.frameStop]
    case bell =>
      intro ht
      rw [exec_bell, execBell, State.reaches_arrive h ht, State.fresh_sequenced h hf]
    case run =>
      intro ht hva c m i off v hc hcseq haux hm hseg hv hst
      exact State.fresh.execSegmentRun h hf ht hva hc hcseq haux hm hseg hv hst
    case credit =>
      intro ht hva hc
      exact State.fresh.execCredit h hf ht hva hc
  case plain =>
    intro s f p hr hv hp ha hd
    have harr := fun ty ht act => State.arrive_of_type (ty := ty) ⟨hr, hv, hp, ha⟩ hd ht act
    refine ⟨fun hj c hc => ?_, fun hj hpeer => ⟨fun ht => ?_, fun ht => ?_, fun ht x hx hgo => ?_⟩⟩
    · rcases hc with ⟨rfl, ht⟩ | ⟨rfl, ht⟩ | ⟨rfl, ht⟩ <;>
        simp only [exec_ack, execAck, exec_hold, execHold, exec_refuse, execRefuse, harr _ ht, State.plain_of_unbound hj,
          State.unbound]
    · rw [exec_ack, execAck, harr _ ht, State.plain_of_bound hj]
    · rw [exec_hold, execHold, harr _ ht, State.plain_of_bound hj, hpeer]
    · rw [exec_refuse, execRefuse, harr _ ht, State.plain_of_bound hj]
      simp only [State.peer_of_find hpeer, hx, hgo, false_and, if_false, portInfo]

end

/-! PROOF. Messages of a muster and its limits (O54). -/

namespace Sys2Proof.Machine

/-! ### The tree (16 R497) -/

theorem mem_children {rank ranks k : Nat} : k ∈ children rank ranks ↔ k < ranks ∧ 0 < k ∧ parent k = rank := by
  simp only [children, parent, List.mem_filterMap, List.mem_range, Option.ite_none_right_eq_some, Option.some.injEq]
  constructor
  · rintro ⟨i, hi, hlt, rfl⟩
    omega
  · rintro ⟨hlt, hpos, rfl⟩
    exact ⟨(k - 1) % 16, by omega, by omega, by omega⟩

section

variable {s t u : State} {f : Frame} {n mt : Nat}

/-! ### A fresh message -/

/-- A fresh muster message of a type reaches a node, whose state is then `t`, for context `n`. -/
structure State.MusterMsg (s t : State) (f : Frame) (n mt : Nat) : Prop where
  reaches : s.reaches f t
  fresh : t.fresh f n
  type : f.type = tData
  va : f.va / 2 ^ 60 = 10
  mtype : f.mtype = mt

theorem State.MusterMsg.frame (h : s.MusterMsg t f n mt) (act : State → Nat → State) :
    s.musterFrame f mt act = if t.ctxFailed n then t.markRx f.src f.psn else act t n := by
  rw [State.musterFrame, State.reaches_arrive h.reaches h.type, State.fresh_sequenced h.reaches h.fresh]
  exact if_neg fun hne => hne.elim (· h.va) (· h.mtype)

theorem State.MusterMsg.frame_of_failed (h : s.MusterMsg t f n mt) (hfail : t.ctxFailed n = true)
    (act : State → Nat → State) : s.musterFrame f mt act = t.markRx f.src f.psn := by
  rw [h.frame, if_pos hfail]

theorem State.MusterMsg.frame_of_live (h : s.MusterMsg t f n mt) (hlive : t.ctxFailed n = false)
    (act : State → Nat → State) : s.musterFrame f mt act = act t n := by
  rw [h.frame, hlive, if_neg Bool.false_ne_true]

/-! ### READY (16 R498) -/

/-- The muster with the READY of a message kept. -/
def Muster.withReady (m : Muster) (f : Frame) : Muster := { m with ready := some (f.epoch, f.digest) }

/-- READY at a node below rank 0 that has not got one, and whose job does not run yet. -/
theorem State.MusterMsg.execReady (h : s.MusterMsg t f n mReady) (hlive : t.ctxFailed n = false)
    (hu : t.markRx f.src f.psn = u) (hrank : (u.rankOf n).1 ≠ 0) (hready : (u.muster n).ready = none)
    (hstage : (u.muster n).stage ≠ .running) :
    exec (.ready f) s = .next
      (if (u.muster n).stage = .started then (u.setMuster n ((u.muster n).withReady f)).holdReady n
       else u.setMuster n ((u.muster n).withReady f)) := by
  have hskip : (decide ((u.rankOf n).1 = 0) || (u.muster n).ready.isSome ||
      (u.muster n).stage == MusterStage.running) = false := by
    rw [hready, decide_eq_false hrank, beq_eq_false_iff_ne.mpr hstage]
    rfl
  rw [exec_ready, Machine.execReady, h.frame_of_live hlive]
  simp only [hu, hskip, Bool.false_eq_true, if_false]
  by_cases hs : (u.muster n).stage = MusterStage.started
  · rw [if_pos hs, if_pos hs]
    rfl
  · rw [if_neg hs, if_neg hs]
    rfl

/-! ### MUSTER_ACK (16 R498, R499) -/

section

variable {k : Nat}

/-- The child whose node a message came from. -/
def State.childFrom (u : State) (n : Nat) (f : Frame) : Option Nat :=
  (children (u.rankOf n).1 (u.rankOf n).2).find? fun k => u.rankNode n k == f.src

/-- The answers `a` are those of every child of rank 0, and count every other rank. -/
def State.allAcked (u : State) (n : Nat) (a : Table Nat) : Bool :=
  ((children 0 (u.rankOf n).2).all fun k => (Table.find a k).isSome) &&
    a.foldl (fun x e => x + e.2) 0 == (u.rankOf n).2 - 1

theorem State.allAcked_of_missing {a : Table Nat} (h : ∃ j ∈ children 0 (u.rankOf n).2, Table.find a j = none) :
    u.allAcked n a = false := by
  obtain ⟨j, hj, hnone⟩ := h
  rw [State.allAcked, List.all_eq_false.mpr ⟨j, hj, by simp [hnone]⟩, Bool.false_and]

theorem State.allAcked_of_all {a : Table Nat} (h : ∀ j ∈ children 0 (u.rankOf n).2, ∃ q, Table.find a j = some q)
    (hsum : a.foldl (fun x e => x + e.2) 0 = (u.rankOf n).2 - 1) : u.allAcked n a = true := by
  simp only [State.allAcked, Bool.and_eq_true, List.all_eq_true, beq_iff_eq, Option.isSome_iff_exists]
  exact ⟨h, hsum⟩

/-- Rank 0, from which the GO leaves, takes the answer of a child. -/
theorem State.MusterMsg.execMusterAck_root (h : s.MusterMsg t f n mAck) (hlive : t.ctxFailed n = false)
    (hu : t.markRx f.src f.psn = u) (hk : u.childFrom n f = some k) (hrank : (u.rankOf n).1 = 0)
    (hready : (u.muster n).ready = none) (hstage : (u.muster n).stage = .started) (he : f.epoch = (u.muster n).epoch) :
    exec (.musterAck f) s = .next
      (let a := Table.insert (u.muster n).acks k f.acked
       if f.reason ≠ reasonOk then u.musterAbort n f.reason f.rank
       else if u.allAcked n a && u.musterRefused then u.musterAbort n reasonRefused 0
       else if u.allAcked n a then
         (u.otherRanks n).foldl (fun w q => w.musterSend n q mGo reasonOk (u.muster n).epoch 0 0 [])
           (u.setMuster n { u.muster n with acks := a, stage := .go })
       else u.setMuster n { u.muster n with acks := a }) := by
  rw [State.childFrom, hrank] at hk
  rw [exec_musterAck, Machine.execMusterAck, h.frame_of_live hlive]
  simp only [hu, hrank, hk]
  rw [if_neg (by simp [hready, he]), if_pos trivial, if_neg (not_not.mpr hstage)]
  rw [State.allAcked]

/-- A node below rank 0 that holds READY takes the answer of a child. -/
theorem State.MusterMsg.execMusterAck_below (h : s.MusterMsg t f n mAck) (hlive : t.ctxFailed n = false)
    (hu : t.markRx f.src f.psn = u) (hk : u.childFrom n f = some k) (hrank : (u.rankOf n).1 ≠ 0)
    (hstage : (u.muster n).stage = .held) (hans : (u.muster n).answered = false) {d : List Byte}
    (hready : (u.muster n).ready = some (f.epoch, d)) :
    exec (.musterAck f) s = .next
      (if f.reason ≠ reasonOk then u.answer n f.reason f.rank 0
       else (u.setMuster n { u.muster n with acks := Table.insert (u.muster n).acks k f.acked }).answerOk n) := by
  rw [State.childFrom] at hk
  rw [exec_musterAck, Machine.execMusterAck, h.frame_of_live hlive]
  simp only [hu, hk]
  rw [if_neg (by simp [hready]), if_neg hrank, if_neg (by simp [hstage, hans])]

end

/-! ### GO and ABORT (16 R500, R501) -/

theorem State.MusterMsg.execGo_of_held (h : s.MusterMsg t f n mGo) (hlive : t.ctxFailed n = false)
    (hstage : (t.muster n).stage = .held) {d : List Byte} (hready : (t.muster n).ready = some (f.epoch, d)) :
    exec (.go f) s = .next (((t.markRx f.src f.psn).musterEnd n).musterStat n 1 reasonOk f.rank) := by
  rw [exec_go, Machine.execGo, h.frame_of_live hlive]
  simp only [hready, hstage, and_self, if_true]

theorem State.MusterMsg.execGo_of_not_held (h : s.MusterMsg t f n mGo) (hlive : t.ctxFailed n = false)
    (hstage : (t.muster n).stage ≠ .held) : exec (.go f) s = .next (t.refuse f) := by
  rw [exec_go, Machine.execGo, h.frame_of_live hlive]
  simp only [hstage, false_and, if_false]

theorem State.MusterMsg.execAbort (h : s.MusterMsg t f n mAbort) (hlive : t.ctxFailed n = false)
    (hu : t.markRx f.src f.psn = u) (he : (u.muster n).stage = .unmustered ∨ (u.muster n).epoch = f.epoch) :
    exec (.abort f) s = .next ((u.musterStat n 3 f.reason f.rank).ctxFail n
      (if ((u.muster n).stage = .running ∨ (u.muster n).stage = .go) ∧ f.reason = reasonJobFailed then Code.jobAborted
       else Code.musterAbort) musterInfo none) := by
  have hfresh : (u.muster n).stale f = false := by
    rcases he with he | he <;> simp [Muster.stale, he]
  rw [exec_abort, Machine.execAbort, h.frame_of_live hlive]
  simp only [hu, hfresh, Bool.false_eq_true, if_false, Bool.and_eq_true, Bool.or_eq_true, beq_iff_eq]

end

end Sys2Proof.Machine

section

open Sys2Proof Sys2Proof.Machine

/-- Settles O54, message by message. READY and MUSTER_ACK are taken as the model reads them (log 67). -/
theorem musterMessages : Obligations.MusterMessages := by
  unfold Obligations.MusterMessages
  refine ⟨?messages, ?limits, fun rank ranks k => mem_children⟩
  case messages =>
    intro s t f n hreach hfresh ht hva
    have msg : ∀ {mt}, f.mtype = mt → s.MusterMsg t f n mt := fun hm => ⟨hreach, hfresh, ht, hva, hm⟩
    refine ⟨?failed, ?pulse, ?live⟩
    case failed =>
      intro hfail c hc hm
      simp only [List.mem_cons, List.not_mem_nil, or_false] at hc
      rcases hc with rfl | rfl | rfl | rfl
      · rw [exec_ready, execReady, (msg hm).frame_of_failed hfail]
      · rw [exec_musterAck, execMusterAck, (msg hm).frame_of_failed hfail]
      · rw [exec_go, execGo, (msg hm).frame_of_failed hfail]
      · rw [exec_abort, execAbort, (msg hm).frame_of_failed hfail]
    case pulse =>
      intro hm
      rw [exec_pulse, execPulse, (msg hm).frame, ite_self]
    case live =>
      intro hlive
      generalize hu : t.markRx f.src f.psn = u
      dsimp only
      refine ⟨?ready, ?ack, ?go, ?abort⟩
      case ready =>
        intro hm hrank hready
        refine ⟨fun hstage => ?_, fun hstage => ?_⟩
        · have hwaits : (u.muster n).stage ≠ .started := ne_of_eq_of_ne hstage (by decide)
          exact ((msg hm).execReady hlive hu hrank hready (ne_of_eq_of_ne hstage (by decide))).trans
            (congrArg Host.Outcome.next (if_neg hwaits))
        · exact ((msg hm).execReady hlive hu hrank hready (ne_of_eq_of_ne hstage (by decide))).trans
            (congrArg Host.Outcome.next (if_pos hstage))
      case ack =>
        intro hm k hk
        refine ⟨fun hrank hready hstage he => ⟨fun hreason => ?_, fun hreason => ?_⟩,
          fun hrank hstage hans d hready => ⟨fun hreason => ?_, fun hreason => ?_⟩⟩
        · rw [(msg hm).execMusterAck_root hlive hu hk hrank hready hstage he, if_pos hreason]
        · have hexec := (msg hm).execMusterAck_root hlive hu hk hrank hready hstage he
          rw [if_neg (not_not.mpr hreason)] at hexec
          refine ⟨fun hmiss => ?_, fun hall hsum => ⟨fun href => ?_, fun href => ?_⟩⟩
          · rw [hexec, State.allAcked_of_missing hmiss, Bool.false_and, if_neg Bool.false_ne_true,
              if_neg Bool.false_ne_true]
          · rw [hexec, State.allAcked_of_all hall hsum, href, Bool.true_and, if_pos rfl]
          · rw [hexec, State.allAcked_of_all hall hsum, href, Bool.and_false, if_neg Bool.false_ne_true, if_pos rfl]
        · rw [(msg hm).execMusterAck_below hlive hu hk hrank hstage hans hready, if_pos hreason]
        · rw [(msg hm).execMusterAck_below hlive hu hk hrank hstage hans hready, if_neg (not_not.mpr hreason)]
      case go =>
        intro hm
        refine ⟨fun hstage ⟨d, hready⟩ => ?_, fun hstage => ?_⟩
        · rw [(msg hm).execGo_of_held hlive hstage hready, hu]
        · exact (msg hm).execGo_of_not_held hlive hstage
      case abort =>
        intro hm he
        exact (msg hm).execAbort hlive hu he
  case limits =>
    intro s n hr hlive
    refine ⟨fun hrank hstage => ?timeout, fun hstage => ?hold, fun m hm hstage hmus hctx => ?pulse⟩
    case timeout => simp [execTimeout, hr, hlive, hrank, hstage]
    case hold =>
      exact ⟨_, _, s.free + 1, by simp [execReadyHoldExpiry, hr, hlive, hstage, State.freshWord]; rfl⟩
    case pulse => simp [execPulse, hr, hm, hstage, hmus, hlive, hctx]

end

/-! PROOF. Timers, lost peers, ports, bindings and the time counter (O53). -/

namespace Sys2Proof.Machine

variable {s : State}

/-! ### Timers (15 R464, R465) -/

section

variable {n : Nat} {p : Peer} (hr : s.ready = true) (hp : Table.find s.pod.peers n = some p)

include hr hp

theorem execRtoResend_of_timed {psn : Nat} {x : PoolFrame} (hx : p.pool.find? (fun y => y.psn == psn) = some x)
    (hheld : x.held = false) (hfew : x.resends < 16) :
    execRtoResend n psn s = .next (if s.upPorts = [] then s.resend n psn
      else ((s.setPeer n { p with
        cwnd := 16, mask := p.mask.filter fun q => !x.port.toList.contains q,
        removed := p.removed ++ x.port.toList }).satRf .podXstat .timeouts 1).resend n psn) := by
  have hrun : (x.held || decide (16 ≤ x.resends)) = false := by simp [hheld, hfew]
  rw [execRtoResend, hr, Bool.not_true, if_neg Bool.false_ne_true]
  simp only [hp, hx]
  rw [hrun, if_neg Bool.false_ne_true]
  split <;> rfl

/-- A peer that may be lost is lost; the contexts that no muster joins to it fail. -/
theorem execPeerLost_of_losable (hl : p.losable = true) (hm : s.pod.musters = []) :
    execPeerLost n s = .next (s.losePeer n) := by
  simp only [execPeerLost, hp, hr, hl, hm, Bool.not_true, Bool.or_self, Bool.false_eq_true, if_false, List.foldl_nil]

end

/-! ### Bindings (15 R457, R480) -/

/-- A job that an invalid binding would take is bound already exactly where a context has it. -/
theorem State.any_bound_eq_isSome_jobCtx {n : Nat} (hb : s.bound n = false) (job : Nat) :
    ((List.range 63).any fun m => m != n && s.bound m && s.rf (.podCtxJob m) .jobId == job) = (s.jobCtx job).isSome := by
  rw [State.jobCtx, List.isSome_find?]
  refine congrArg ((List.range 63).any ·) (funext fun m => ?_)
  by_cases hm : m = n
  · simp [hm, hb]
  · rw [bne_iff_ne.mpr hm, Bool.true_and]

theorem State.bindingWrite_of_unbound {n : Nat} (hb : s.bound n = false) {v : Word} (hv : v.getLsbD 63 = true) :
    s.bindingWrite n v = if (s.jobCtx (v.toNat % 2 ^ 32)).isSome then s.setRf .podEvent .rxRefused 1
      else s.setReg (.podCtxJob n) (v &&& 0x8001FFFFFFFFFFFF) := by
  have hdup := State.any_bound_eq_isSome_jobCtx hb (fld v 0 32)
  have hjob : fld v 0 32 = v.toNat % 2 ^ 32 := by simp [fld, bits]
  rw [State.bindingWrite, hb, if_neg Bool.false_ne_true, getLsbD_toNat, hv, Bool.true_and, hdup, hjob]

theorem State.bindingWrite_of_bound {n : Nat} (hb : s.bound n = true) (v : Word) :
    s.bindingWrite n v = if v.getLsbD 63 then s else s.setReg (.podCtxJob n) (v &&& 0x8001FFFFFFFFFFFF) := by
  rw [State.bindingWrite, hb, if_pos rfl, getLsbD_toNat]

theorem execBindingWrite_of_ready (hr : s.ready = true) (m : Master) {n : Nat} (hn : n < 63) (v : Word) :
    execBindingWrite m n v s = .next (s.bindingWrite n v) := by
  simp [execBindingWrite, hr, hn]

/-! ### Time (15 R477 to R479) -/

/-- R479: the offset that an edge measures is the distance to the nearest whole second. -/
theorem execPpsEdge_of_set (hr : s.ready = true) (hp : s.rbit .podTimeCtl .ppsEn = true) (hset : s.pod.timeSet = none) :
    execPpsEdge s =
      let r : Int := (s.time % 1000000000 : Nat)
      let off := if r < 500000000 then -r else 1000000000 - r
      .next ((s.measured off).steer off) := by
  simp only [execPpsEdge, hr, hp, hset, Bool.not_true, Bool.or_self, Bool.false_eq_true, if_false]
  have hlt : ((s.time % 1000000000 : Nat) : Int) < 500000000 ↔ s.time % 1000000000 < 500000000 := by omega
  by_cases h : s.time % 1000000000 < 500000000
  · rw [if_pos h, if_pos (hlt.mpr h)]
  · rw [if_neg h, if_neg (mt hlt.mp h)]

theorem State.steer_of_near {off : Int} (h : off.natAbs ≤ 1000000) :
    s.steer off = { s with free := s.free + 1, pod := { s.pod with
      timeHold := if s.pod.timeHold = 0 then 0 else (-off).toNat,
      rate := (((Config.freeWord s.free).toNat % 1001 : Nat) : Int) - 500 } } := by
  rw [State.steer, if_neg (by omega), if_neg (by omega)]
  rfl

section

variable {port domain : Nat} (hr : s.ready = true) (hu : s.portUp port = true)
  (hd : domain = s.rf .podTimeCtl .ptpDomain)

include hr hu hd

theorem execPtpMessage_announce : execPtpMessage (.announce port domain) s = .next (s.chooseSource port) := by
  simp [execPtpMessage, hr, hu, hd]

theorem State.fromSource_of (hs : s.pod.source = some port) : s.fromSource port domain = true := by
  simp [State.fromSource, hr, hu, hd, hs]

end

theorem State.chooseSource_of_port {n : Nat} (port : Nat) (hn : Config.bmcaChoice s.free = n) (hup : s.portUp n = true)
    (hlt : n < 6) :
    s.chooseSource port = { s with free := s.free + 1, pod := { s.pod with source := some n, grandmaster := false } } := by
  have hgm : decide (5 < n) = false := decide_eq_false (by omega)
  simp only [State.chooseSource, hn, hgm, Bool.false_and, Bool.false_eq_true, if_false, if_pos (And.intro hlt hup)]

theorem State.chooseSource_of_grandmaster (port : Nat) (hn : 5 < Config.bmcaChoice s.free)
    (hp : s.rbit .podTimeCtl .ppsEn = true) (hg : s.rbit .podTimeCtl .gmEn = true) :
    s.chooseSource port = { s with free := s.free + 1, pod := { s.pod with source := none, grandmaster := true } } := by
  simp only [State.chooseSource, decide_eq_true hn, hp, hg, Bool.and_self, if_true]

theorem State.ptpSend_of_up {port : Nat} (hu : s.portUp port = true) (kind : PtpKind) (seq time : Nat) :
    s.ptpSend port kind seq time = { s with outbox := s.outbox ++
      [Out.ptp port kind (s.rf .podTimeCtl .ptpDomain) seq time (s.rf .podTimeCtl .priority1)] } := by
  rw [State.ptpSend, hu, Bool.not_true, if_neg Bool.false_ne_true]

end Sys2Proof.Machine

section

open Sys2Proof Sys2Proof.Machine

/-- Settles O53, row by row. The counter set to the larger value and held is log 71, the choice of a source log 74, a
resend with no port up log 61, the resends of a port log 126 and the conditions of PEER_LOST log 127. -/
theorem podSenders : Obligations.PodSenders := by
  unfold Obligations.PodSenders
  refine ⟨?peers, ?rest⟩
  case peers =>
    intro s n p hr hp
    refine ⟨fun hack => ?ack, fun psn x hx hheld hfew => ⟨fun hno => ?_, fun hup => ?_⟩, fun port hport => ?mask,
      fun hlose hm => ?lost⟩
    case ack => simp [execAckTimer, hr, hp, hack]
    · rw [exec_rtoResend, execRtoResend_of_timed hr hp hx hheld hfew, if_pos hno]
    · rw [exec_rtoResend, execRtoResend_of_timed hr hp hx hheld hfew, if_neg hup]
    case mask => simp [execPortMaskRestore, hr, hp, hport]
    case lost =>
      have hl : p.losable = true := by simpa [Peer.losable] using hlose
      rw [exec_peerLost, execPeerLost_of_losable hr hp hl hm, State.losePeer, State.peer_of_find hp, portInfo]
  case rest =>
    intro s hr
    refine ⟨fun port hup => ?_, fun port hport hdown => ?_, fun m n v hn hb hv => ⟨fun hj => ?_, fun hj => ?_⟩,
      fun m n v hn hb => ⟨fun hv => ?_, fun hv => ?_⟩, fun m v => ?_, fun hpps => ⟨fun sec hset => ?_, fun hset => ?_⟩,
      fun port domain hup hd => ?ptp, fun off hoff => ?_, fun off hoff => ?_, fun off hoff => ?_⟩
    · simp only [exec_portDown, execPortDown, hr, hup, Bool.not_true, Bool.or_self, Bool.false_eq_true, if_false]
    · simp only [exec_portUp, execPortUp, hr, hdown, Nat.not_le.mpr hport, Bool.not_true, decide_false, Bool.or_self,
        Bool.false_eq_true, if_false]
    · rw [exec_bindingWrite, execBindingWrite_of_ready hr m hn, State.bindingWrite_of_unbound hb hv, hj,
        if_neg (by simp)]
    · rw [exec_bindingWrite, execBindingWrite_of_ready hr m hn, State.bindingWrite_of_unbound hb hv, hj, if_pos rfl]
    · rw [exec_bindingWrite, execBindingWrite_of_ready hr m hn, State.bindingWrite_of_bound hb, hv, if_pos rfl]
    · rw [exec_bindingWrite, execBindingWrite_of_ready hr m hn, State.bindingWrite_of_bound hb, hv,
        if_neg Bool.false_ne_true]
    · rw [exec_timeSet, execTimeSet, hr, Bool.not_true, if_neg Bool.false_ne_true]
    · simp only [exec_ppsEdge, execPpsEdge, hr, hpps, hset, Bool.not_true, Bool.or_self, Bool.false_eq_true, if_false]
    · rw [exec_ppsEdge, execPpsEdge_of_set hr hpps hset]
    case ptp =>
      refine ⟨fun n hn hnup hlt => ?_, fun hn hpps hgm => ?_, fun hsrc => ?source, fun hgm seq => ?_⟩
      · rw [exec_ptpMessage, execPtpMessage_announce hr hup hd, State.chooseSource_of_port port hn hnup hlt]
      · rw [exec_ptpMessage, execPtpMessage_announce hr hup hd, State.chooseSource_of_grandmaster port hn hpps hgm]
      case source =>
        have hfrom := State.fromSource_of hr hup hd hsrc
        refine ⟨fun seq two origin => ?_, fun e origin he hport hnone => ?_, fun e o he hport hone => ?_,
          fun e t1 t3 n r he hport h1 h3 => ?_⟩
        · simp only [exec_ptpMessage, execPtpMessage, hfrom, Bool.not_true, Bool.false_eq_true, if_false,
            State.setExchange]
        · simp [execPtpMessage, hfrom, he, hport, hnone, State.setExchange]
        · rw [hd] at hfrom
          simp only [exec_ptpMessage, execPtpMessage, hfrom, he, hport, hone, bne_self_eq_false, Option.isNone_some,
            Bool.not_true, Bool.or_self, Bool.false_eq_true, if_false]
          rw [State.ptpSend_of_up (s := s.ptpNext.1) hup]
          rfl
        · obtain ⟨ep, eseq, e1, e2, e3⟩ := e
          cases h1
          cases h3
          cases hport
          simp only [exec_ptpMessage, execPtpMessage, hfrom, he, bne_self_eq_false, Bool.not_true, Bool.or_self,
            Bool.false_eq_true, if_false, State.setExchange]
      · simp only [exec_ptpMessage, execPtpMessage, hr, hgm, hd, bne_self_eq_false, Bool.not_true, Bool.or_self,
          Bool.false_eq_true, if_false, State.ptpSend_of_up hup]
    · rw [State.steer, if_pos hoff]
    · rw [State.steer, if_neg (by omega), if_pos hoff]
    · exact ⟨_, by omega, _, State.steer_of_near hoff⟩

end

/-! PROOF. Power control, temperatures and the supplies (O47). -/

namespace Sys2Proof.Machine

variable {s : State}

/-! ### Ticks (17 R507 to R512) -/

/-- The mean of a tick's samples. -/
def State.tickMean (s : State) : Nat := s.power.samples.foldl (· + ·) 0 / 100

/-- The windows' values after a tick. -/
def State.tickPower (s : State) : Power :=
  ⟨[], (s.tickMean :: s.power.history).take 10000, if s.power.history = [] then s.tickMean else s.power.first⟩

theorem execPowerTick_of_full (hp : s.powerOn = true) (hn : s.power.samples.length = 100) (vin : Nat) :
    execPowerTick vin s =
      let n := s.rf .pwrWindow .windowMs
      let cap := s.rf .pwrCapWatts .cap
      let total := s.tickPower.sum n
      let rem := s.rf .pwrHint .remainUs
      let r := if s.rbit .pwrHint .active then s.rf .pwrHint .powerW * min (rem / 1000) n else 0
      let q := bubbleCount (total + r) n cap
      let s1 : State := { s with power := s.tickPower }
      let s2 := (((s1.setRf .pwrStatus .q q).setRf .pwrStatus .pTick s.tickMean).setRf .pwrStatus .pAvg (total / n)).setRf
        .pwrStatus .pRes (r / n)
      let s3 := (s2.wrapRf .pwrEnergy .mj s.tickMean).setRf .pwrHint .remainUs (rem - 1000)
      .next ((if q = 192 ∧ n * cap < total then (s3.setRf .pwrEvent .capUnmet 1).satRf .pwrEvent .capUnmetTicks 1
        else s3).telemetry vin) := by
  rw [execPowerTick, hp, hn, if_neg (by decide)]
  rfl

/-! ### Supplies (17 R519; 21 R584) -/

theorem State.latchTrip_of_vaux (h : s.board.vaux = true) (i : Nat) : s.latchTrip i = s.setBit .sbTrip i := if_pos h

theorem State.railsOff_vaux : s.railsOff.board.vaux = s.board.vaux := rfl

/-- Where a filter leaves of the registers those of some addresses, the others have their reset value. -/
theorem State.reg_of_filtered {t : State} {p : Nat → Bool} (h : t.regs = s.regs.filter fun e => p e.1) (r : Reg) :
    t.reg r = if p r.addr then s.reg r else BitVec.ofNat 64 r.reset := by
  rw [State.reg, h, Table.get_filter, State.reg]

end Sys2Proof.Machine

section

open Sys2Proof Sys2Proof.Machine

/-- Settles O47, row by row. The mean rounded down, the exact A_W + R and the order of a hint's end are log 104; logs
106 and 107 hold the trips and the sideband's telemetry. -/
theorem powerAndSupplies : Obligations.PowerAndSupplies := by
  unfold Obligations.PowerAndSupplies
  intro s
  refine ⟨?control, ?trips, ?vauxLoss, rfl⟩
  case control =>
    intro hp
    refine ⟨fun w hlen => ?sample, ?forced, fun vin hlen => ?tick, fun hact hrem => ?hint, fun a b c d e => ?temp⟩
    case sample =>
      refine ⟨fun hw => ?_, fun hw => ?_⟩
      · simp [execPowerSample, hp, hlen, Nat.not_lt.mpr hw]
      · simp [execPowerSample, hp, hlen, hw]
    case forced => rw [exec_forcedPeriodEnd, execForcedPeriodEnd, hp, if_pos rfl]
    case tick => exact execPowerTick_of_full hp hlen vin
    case hint => simp [execHintEnd, hp, hact, hrem]
    case temp =>
      have hrange : List.range 5 = [0, 1, 2, 3, 4] := by decide
      simp [execTempRead, hp, hrange]
  case trips =>
    intro hrails hvaux
    refine ⟨fun die t hdie ht => ?therm, fun hvin htrip above => ?vin, fun hpg => ?drop⟩
    case therm =>
      simp only [exec_thermtrip, execThermtrip, hrails, Nat.not_le.mpr hdie, Int.not_le.mpr ht, decide_false,
        Bool.not_true, Bool.or_self, Bool.false_eq_true, if_false, hvaux, if_true, celsiusBits,
        State.latchTrip_of_vaux (State.railsOff_vaux.trans hvaux)]
    case vin =>
      have hkeep : (s.board.tripped && above) = s.board.tripped := by rw [htrip, Bool.false_and]
      simp only [exec_vin48OutOfRange, execVin48OutOfRange, hvin, hrails, hkeep, Bool.not_true, Bool.false_eq_true,
        if_false, if_true]
      rw [State.latchTrip_of_vaux]
      exact hvaux
    case drop =>
      simp only [exec_pgDrop, execPgDrop, hpg, hrails, Bool.not_true, Bool.false_eq_true, if_false, if_true]
      rw [State.latchTrip_of_vaux]
      exact hvaux
  case vauxLoss =>
    refine ⟨_, rfl, rfl, ?_, rfl, rfl, rfl, ?_⟩
    · exact (State.reg_of_filtered (p := fun a => decide (a < sidebandBase)) rfl .sbTrip).trans (if_neg (by decide))
    · exact (State.reg_of_filtered (p := fun a => decide (a < sidebandBase)) rfl .bootStatus).trans (if_pos (by decide))

end

/-! PROOF. The boot stages (O48). -/

namespace Sys2Proof.Machine

variable {s : State}

/-! ### Stages -/

theorem State.inStage_of (he : s.endpoint = true) (hf : s.fatal = false) {n : Nat} (hs : s.stage = n) :
    s.inStage n = true := by
  simp [State.inStage, he, hf, hs]

theorem State.stage_setRf_stage (n : Nat) (hn : n < 16) : (s.setRf .bootStatus .stage n).stage = n :=
  (State.rf_setRf_self s .stage n).trans (Nat.mod_eq_of_lt hn)

/-! ### LINKS (01 R44) -/

/-- The links of which a slice fails training. -/
def badLinks (fails : List (Nat × Nat × Nat)) : List Nat :=
  (List.range 8).filter fun l => fails.any fun x => x.1 == l && decide (x.2.1 < 2) && decide (x.2.2 < linkSlices l)

/-- A link for each bit: those that are trained. -/
def goodLinks (bad : List Nat) : Nat := ((List.range 8).filter fun l => !bad.contains l).foldl (fun a l => a + 2 ^ l) 0

theorem badLinks_single {link dir slice : Nat} (hl : link < 8) (hd : dir < 2) (hs : slice < linkSlices link) :
    badLinks [(link, dir, slice)] = [link] := by
  have hpred : ∀ l, ([(link, dir, slice)].any fun x : Nat × Nat × Nat =>
      x.1 == l && decide (x.2.1 < 2) && decide (x.2.2 < linkSlices l)) = (link == l) := by
    intro l
    by_cases h : link = l
    · subst h
      rw [List.any_cons, List.any_nil, Bool.or_false, decide_eq_true hd, decide_eq_true hs, Bool.and_true, Bool.and_true]
    · rw [List.any_cons, List.any_nil, Bool.or_false, beq_eq_false_iff_ne.mpr h, Bool.false_and, Bool.false_and]
  rw [badLinks, funext hpred]
  interval_cases link <;> rfl

theorem goodLinks_single {link : Nat} (hl : link < 8) : goodLinks [link] = 255 - 2 ^ link := by
  interval_cases link <;> rfl

theorem execLinks_of_stage (hs : s.inStage 4 = true) (fails : List (Nat × Nat × Nat)) :
    execLinks fails s =
      let s1 := ({ s with d2d := [], stops := [] } : State).setRf .glbD2dStatus .trained (goodLinks (badLinks fails))
      if badLinks fails = [] then .next (s1.setRf .bootStatus .stage 5)
      else .next (((((badLinks fails).foldl State.fuseLink s1).setRf .bootStatus .health 2).packageFatal
        Code.d2dWireFail ((badLinks fails).headD 0)).halt 7) := by
  rw [execLinks, hs, Bool.not_true, if_neg Bool.false_ne_true]
  rfl

/-! ### MEMORY (11 R371, R372) -/

/-- What training shows of each stack. -/
def State.showTraining (s : State) (trained : BitVec 20) : State :=
  (List.range 20).foldl (fun s n =>
    (s.setRf (.glbMemStat n) .trained (bval (trained.getLsbD n))).setRf (.glbMemStat n) .failed
      (bval (!trained.getLsbD n))) s

theorem State.showTraining_allOnes : s.showTraining (BitVec.allOnes 20) =
    (List.range 20).foldl (fun t n => (t.setRf (.glbMemStat n) .trained 1).setRf (.glbMemStat n) .failed 0) s := by
  refine foldl_congr _ _ fun n hn t => ?_
  rw [BitVec.getLsbD_allOnes, decide_eq_true (List.mem_range.mp hn)]
  rfl

theorem execMemory_of_stage (hs : s.inStage 6 = true) (trained : BitVec 20) :
    execMemory trained s = if trained ≠ BitVec.allOnes 20 then
      .next ((({ s.showTraining trained with fuses := { (s.showTraining trained).fuses with
        failedStacks := s.fuses.failedStacks ||| (2 ^ 20 - 1 - trained.toNat) } } : State).setRf .bootStatus .health 2).halt
        9)
      else .next ((if s.boot.keepMem then s.showTraining trained
        else ({ s.showTraining trained with mem := ⟨[], []⟩ } : State).setRf .glbMemPlace .localK (s.cfgNat 1 1)).setRf
        .bootStatus .stage 7) := by
  rw [execMemory, hs, Bool.not_true, if_neg Bool.false_ne_true]
  rfl

/-! ### SERVICES (18 R532, R595) -/

section

variable (n : Nat) (r : List Byte) (strict : Bool)

@[simp] theorem State.createCtx_mem : (s.createCtx n r strict).mem = s.mem := by simp [State.createCtx]
@[simp] theorem State.createCtx_fuses : (s.createCtx n r strict).fuses = s.fuses := by simp [State.createCtx]
@[simp] theorem State.createCtx_boot : (s.createCtx n r strict).boot = s.boot := by simp [State.createCtx]
@[simp] theorem State.createCtx_queues : (s.createCtx n r strict).queues = s.queues := by simp [State.createCtx]
@[simp] theorem State.createCtx_launches : (s.createCtx n r strict).launches = s.launches := by simp [State.createCtx]

@[simp] theorem State.find_createCtx : Table.find (s.createCtx n r strict).ctxs n = some (ctxOf r strict) := by
  simp [State.createCtx]

end

/-- The state of SERVICES once the measurements are taken and context 0 is made. -/
def State.served (s : State) : State :=
  let ports := (List.range 6).map fun p => s.cfgNat (2 + p) 1
  let s1 := { s with boot := { s.boot with
    mode := false, ports := ports, subsys := s.cfgNat 8 4, measurements := s.measure
    progKeys := (List.range 4).map fun k => s.sramBytes (s.sramNat 0x18 4 + 0x10 + 32 * k) 32 } }
  let s2 := (ports.zip (List.range 6)).foldl (fun s p => s.setRf (.podPortStatus p.2) .mode p.1) s1
  (s2.setRf .podStateBase .base (podStateAddr / 2 ^ 21)).createCtx 0 s.ctxZeroRecord false

theorem execServices_of_stage (hs : s.inStage 7 = true) (hw : s.pcie.otherWidth = false) :
    execServices s = .next (if s.ctxZeroOk then s.served.commitSvn.setRf .bootStatus .stage stReady else s.halt 10) := by
  rw [execServices, hs, hw, Bool.not_true, Bool.or_self, if_neg Bool.false_ne_true]
  cases s.ctxZeroOk <;> rfl

/-- The modes of the ports show in their registers alone. -/
theorem State.showModes_regs_only (modes : List (Nat × Nat)) (s : State) :
    ∃ regs, modes.foldl (fun s p => s.setRf (.podPortStatus p.2) .mode p.1) s = { s with regs := regs } :=
  foldl_regs_only _ (fun _ _ => ⟨_, rfl⟩) modes s

/-- What SERVICES leaves: memory, the fuses and the boot SRAM; boot mode ends. -/
theorem State.served_keeps : s.served.mem = s.mem ∧ s.served.fuses = s.fuses ∧ s.served.boot.sram = s.boot.sram ∧
    s.served.boot.mode = false := by
  simp only [State.served, State.createCtx_mem, State.createCtx_fuses, State.createCtx_boot, State.setRf_mem,
    State.setRf_fuses, State.setRf_boot]
  obtain ⟨regs, h⟩ := State.showModes_regs_only _ _
  rw [h]
  exact ⟨rfl, rfl, rfl, rfl⟩

theorem State.find_served : (Table.find s.served.ctxs 0).isSome = true := by
  rw [State.served, State.find_createCtx, Option.isSome_some]

/-- FW_MIN after SERVICES, of a state whose boot SRAM and fuses are those of `s` (18 R529). -/
theorem State.commitSvn_fwMin {t : State} (hf : t.fuses = s.fuses) (hb : t.boot.sram = s.boot.sram) :
    t.commitSvn.fuses.fwMin =
      if s.sramNat 6 2 % 2 = 1 ∧ s.fuses.fwMin < s.sramNat 8 4 then s.sramNat 8 4 else s.fuses.fwMin := by
  have hsram : ∀ off n, t.sramNat off n = s.sramNat off n := fun off n => by
    rw [State.sramNat, State.sramBytes, hb, State.sramNat, State.sramBytes]
  have hbit : bit (s.sramNat 6 2) 0 = decide (s.sramNat 6 2 % 2 = 1) := Nat.testBit_zero _
  have hcond : (bit (s.sramNat 6 2) 0 && decide (s.fuses.fwMin < s.sramNat 8 4)) = true ↔
      s.sramNat 6 2 % 2 = 1 ∧ s.fuses.fwMin < s.sramNat 8 4 := by
    rw [hbit, Bool.and_eq_true, decide_eq_true_iff, decide_eq_true_iff]
  rw [State.commitSvn, hsram, hsram, hf]
  by_cases h : s.sramNat 6 2 % 2 = 1 ∧ s.fuses.fwMin < s.sramNat 8 4
  · rw [if_pos h, if_pos (hcond.mpr h), State.setRf_fuses]
  · rw [if_neg h, if_neg (mt hcond.mp h), hf]

theorem State.commitSvn_keeps : s.commitSvn.mem = s.mem ∧ s.commitSvn.boot = s.boot ∧ s.commitSvn.ctxs = s.ctxs := by
  rw [State.commitSvn]
  split
  · exact ⟨State.setRf_mem .., State.setRf_boot .., State.setRf_ctxs ..⟩
  · exact ⟨rfl, rfl, rfl⟩

end Sys2Proof.Machine

section

open Sys2Proof Sys2Proof.Machine

/-- Settles O48, stage by stage. That TRAINED shows after a keep-memory MEMORY stage too is log 113. -/
theorem bootStages : Obligations.BootStages := by
  unfold Obligations.BootStages
  intro s he hf
  have stage : ∀ {n}, s.stage = n → s.inStage n = true := fun hs => State.inStage_of he hf hs
  refine ⟨fun m v ho h63 hs => ?verify, fun hs => ?rom, fun hs => ?verifyTime, fun hlo hhi => ?overrun, fun hs => ?clocks,
    fun hs => ?links, fun hs fails => ?clusters, fun hs => ?memory, fun hs hw => ?width, fun hs hw => ?services⟩
  case verify => simp [execVerify, State.goWrite, getLsbD_toNat, State.startVerify, stVerify, ho, h63, hs]
  case rom => rw [exec_romTime, execRomTime, if_pos (stage hs)]
  case verifyTime => rw [exec_verifyTime, execVerifyTime, stVerify, if_pos (stage hs)]
  case overrun => simp [execBootStageOverrun, he, hlo, hhi, hf]
  case clocks =>
    refine ⟨?_, ?_⟩
    · simp only [exec_clocks, execClocks, stage hs, Bool.not_true, Bool.false_eq_true, if_false]
    · simp only [exec_clocks, execClocks, stage hs, Bool.not_true, Bool.not_false, Bool.false_eq_true, if_false, if_true]
  case links =>
    refine ⟨?_, fun link dir slice hl hd hsl => ?_⟩
    · exact execLinks_of_stage (stage hs) []
    · rw [exec_links, execLinks_of_stage (stage hs), badLinks_single hl hd hsl, goodLinks_single hl,
        if_neg (List.cons_ne_nil _ _)]
      rfl
  case clusters =>
    refine ⟨fun hdue hh => ?_, fun hdue => ?_⟩
    · simp only [exec_clusters, execClusters, stage hs, Bool.not_true, Bool.false_eq_true, if_false]
      rw [if_neg (by simp [hdue, hh])]
    · simp only [exec_clusters, execClusters, stage hs, Bool.not_true, Bool.false_eq_true, if_false]
      rw [if_pos (by simpa using hdue)]
  case memory =>
    refine ⟨fun hk => ?_, fun hk => ?_, fun trained ht => ?_⟩
    · rw [exec_memory, execMemory_of_stage (stage hs), if_neg (not_not.mpr rfl), hk, if_neg Bool.false_ne_true,
        State.showTraining_allOnes]
    · rw [exec_memory, execMemory_of_stage (stage hs), if_neg (not_not.mpr rfl), hk, if_pos rfl,
        State.showTraining_allOnes]
    · rw [exec_memory, execMemory_of_stage (stage hs), if_pos ht]
      exact ⟨_, rfl, rfl, State.rf_setRf_self _ _ _⟩
  case width => rw [exec_services, execServices, hw, Bool.or_true, if_pos rfl]
  case services =>
    refine ⟨fun hbad => ?_, fun hok => ?_⟩
    · rw [exec_services, execServices_of_stage (stage hs) hw, hbad, if_neg Bool.false_ne_true]
    · obtain ⟨hmem, hfuses, hsram, hmode⟩ := s.served_keeps
      obtain ⟨hmem', hboot', hctxs'⟩ := s.served.commitSvn_keeps
      refine ⟨s.served.commitSvn.setRf .bootStatus .stage stReady, ?_, State.stage_setRf_stage 8 (by decide), ?_, ?_, ?_, ?_⟩
      · rw [exec_services, execServices_of_stage (stage hs) hw, hok, if_pos rfl]
      · rw [State.setRf_boot, hboot', hmode]
      · rw [State.setRf_mem, hmem', hmem]
      · rw [State.setRf_ctxs, hctxs', State.find_served]
      · rw [State.setRf_fuses, State.commitSvn_fwMin hfuses hsram]

end

/-! PROOF. Resets (O49). -/

namespace Sys2Proof.Machine

variable {s : State}

/-! ### Registers that a reset shows -/

theorem State.showSpares_regs_only (s : State) : ∃ regs, s.showSpares = { s with regs := regs } := by
  rw [State.showSpares]
  exact foldl_regs_only _ (fun _ _ => ⟨_, rfl⟩) _ s

theorem State.showFuses_regs_only (s : State) : ∃ regs, s.showFuses = { s with regs := regs } := by
  obtain ⟨regs, h⟩ := State.showSpares_regs_only
    (((s.setRf .glbD2dStatus .failed s.fuses.failedLinks).setRf .bootSvn .fwMin s.fuses.fwMin).setRf .bootSvn .revoked
      s.fuses.revoked)
  exact ⟨regs, by rw [State.showFuses, h, State.setRf, State.setRf, State.setRf, State.setReg, State.setReg, State.setReg]⟩

theorem State.reg_showSpares {r : Reg} (h : ∀ d < 4, r.addr ≠ (Reg.glbSpareCd d).addr) :
    s.showSpares.reg r = s.reg r :=
  List.foldlRecOn (motive := fun t : State => t.reg r = s.reg r) _ _ rfl fun t ht d hd =>
    (t.reg_setReg_ne _ _ _ (h d (List.mem_range.mp hd))).trans ht

theorem State.reg_showFuses_bootStatus : s.showFuses.reg .bootStatus = s.reg .bootStatus := by
  rw [State.showFuses, State.reg_showSpares (by decide), State.reg_setRf_of_ne _ _ _ (by decide),
    State.reg_setRf_of_ne _ _ _ (by decide), State.reg_setRf_of_ne _ _ _ (by decide)]

theorem State.rf_showFuses_failed : s.showFuses.rf .glbD2dStatus .failed = s.fuses.failedLinks % 256 := by
  rw [State.showFuses, State.rf, State.reg_showSpares (by decide), State.reg_setRf_of_ne _ _ _ (by decide),
    State.reg_setRf_of_ne _ _ _ (by decide)]
  exact State.rf_setRf_self _ _ _

/-- LAST_RESET is no part of STAGE. -/
theorem State.stage_setRf_lastReset (n : Nat) : (s.setRf .bootStatus .lastReset n).stage = s.stage :=
  State.rf_setRf_of_apart s .lastReset n (.inr (by decide))

/-! ### Cold resets (18 R522) -/

/-- The state of a cold reset before the fuses and LAST_RESET show. -/
def State.coldCleared (s : State) : State :=
  { s.loseWork with
    regs := s.regs.filter fun e => decide (sidebandBase ≤ e.1)
    acCount := 0, time := 0, timeFrac := 0, pcie := .empty, boot := .fresh }

theorem State.coldReset_eq (kind : Nat) : s.coldReset kind = s.coldCleared.showFuses.setRf .bootStatus .lastReset kind :=
  rfl

theorem State.coldReset_stage (kind : Nat) : (s.coldReset kind).stage = 0 := by
  have hreg : s.coldCleared.reg .bootStatus = 0 :=
    (State.reg_of_filtered (p := fun a => decide (sidebandBase ≤ a)) rfl .bootStatus).trans (if_neg (by decide))
  rw [State.coldReset_eq, State.stage_setRf_lastReset, State.stage, State.rf, State.reg_showFuses_bootStatus, hreg, fld_zero]

theorem State.coldReset_failed (kind : Nat) : (s.coldReset kind).rf .glbD2dStatus .failed = s.fuses.failedLinks % 256 := by
  rw [State.coldReset_eq, State.rf_setRf_of_ne _ _ _ _ (by decide), State.rf_showFuses_failed]
  rfl

/-- Beside the registers, a cold reset leaves the fuses and the board and nothing of the work. -/
theorem State.coldReset_keeps (kind : Nat) : (s.coldReset kind).fuses = s.fuses ∧ (s.coldReset kind).board = s.board ∧
    (s.coldReset kind).clusters = [] ∧ (s.coldReset kind).ctxs = [] ∧ (s.coldReset kind).queues = [] ∧
    (s.coldReset kind).boot.mode = true := by
  obtain ⟨regs, h⟩ := s.coldCleared.showFuses_regs_only
  simp only [State.coldReset_eq, State.setRf_fuses, State.setRf_board, State.setRf_clusters, State.setRf_ctxs,
    State.setRf_queues, State.setRf_boot, h]
  exact ⟨rfl, rfl, rfl, rfl, rfl, rfl⟩

/-! ### Keep-memory reset (18 R525) -/

/-- The state of a keep-memory reset before the fuses and LAST_RESET show. -/
def State.keepMemCleared (s : State) : State :=
  let s1 := s.failAll.cleanCaches.loseWork
  { s1 with
    regs := s1.regs.filter fun e => keptByKeepMem e.1
    acCount := 0
    pcie := { s1.pcie with apReads := [], written := [] }
    boot := { Boot.fresh with sram := s.boot.sram, keepMem := true } }

theorem State.keepMemReset_eq :
    s.keepMemReset = (s.keepMemCleared.showFuses.setRf .bootStatus .lastReset 2).startVerify := rfl

theorem State.rf_startVerify (r : Reg) (f : RF) : s.startVerify.rf r f = (s.setRf .bootStatus .stage 2).rf r f := by
  simp only [State.startVerify, stVerify, State.rf, State.reg]

theorem State.keepMemReset_stage : s.keepMemReset.stage = 2 := by
  rw [State.keepMemReset_eq, State.stage, State.rf_startVerify]
  exact State.stage_setRf_stage 2 (by decide)

theorem State.keepMemReset_lastReset : s.keepMemReset.rf .bootStatus .lastReset = 2 := by
  rw [State.keepMemReset_eq, State.rf_startVerify, State.rf_setRf_of_apart _ _ _ (.inl (by decide))]
  exact State.rf_setRf_self _ _ _

/-- A keep-memory reset leaves nothing of the work, and the coherence fabric idle. -/
theorem State.keepMemReset_clears : s.keepMemReset.boot.keepMem = true ∧ s.keepMemReset.coh = .empty ∧
    s.keepMemReset.ctxs = [] ∧ s.keepMemReset.clusters = [] ∧ s.keepMemReset.queues = [] := by
  obtain ⟨regs, h⟩ := s.keepMemCleared.showFuses_regs_only
  simp only [State.keepMemReset_eq, State.startVerify, State.setRf_boot, State.setRf_coh, State.setRf_ctxs,
    State.setRf_clusters, State.setRf_queues, h]
  exact ⟨rfl, rfl, rfl, rfl, rfl⟩

/-! ### Function-level reset (18 R523, R524) -/

theorem State.keepPorts_regs_only (s old : State) : ∃ regs, s.keepPorts old = { s with regs := regs } := by
  rw [State.keepPorts]
  refine foldl_regs_only _ (fun t p => ?_) (List.range 6) s
  rw [State.setRf, State.setRf]
  exact State.setReg_regs_only _ _ _ _ (State.setReg_regs_only _ _ _ _ ⟨t.regs, rfl⟩)

theorem State.reg_createCtx_zero (r : List Byte) (strict : Bool) :
    (s.createCtx 0 r strict).reg .bootStatus = s.reg .bootStatus := by
  have hshadow : ∀ t : State, (t.setRf (.fltShadowCtl 0) .nLog2 (recNat r 5 1)).reg .bootStatus = t.reg .bootStatus :=
    fun t => t.reg_setRf_of_ne _ _ (by decide)
  have hset : ∀ (t : State) (q : Reg), Reg.bootStatus.addr ≠ q.addr → (t.setReg q 0).reg .bootStatus = t.reg .bootStatus :=
    fun t q h => t.reg_setReg_ne _ _ _ h
  have hregs : (s.createCtx 0 r strict).regs = ((((s.setReg (.fltCtxState 0) 0).setReg (.fltCtxAddr 0) 0).setReg
      (.fltShadowCnt 0) 0).setRf (.fltShadowCtl 0) .nLog2 (recNat r 5 1)).regs := by simp [State.createCtx]
  rw [State.reg, hregs, ← State.reg, hshadow, hset _ _ (by decide), hset _ _ (by decide), hset _ _ (by decide)]

/-- A function-level reset shows LAST_RESET 3 and leaves no queue and no launch. -/
theorem State.functionLevelReset_shows : s.functionLevelReset.rf .bootStatus .lastReset = 3 ∧
    s.functionLevelReset.queues = [] ∧ s.functionLevelReset.launches = [] := by
  rw [State.functionLevelReset]
  dsimp only
  refine ⟨State.rf_setRf_self _ _ _, ?_, ?_⟩
  · rw [State.setRf_queues]
    obtain ⟨regs, h⟩ := State.keepPorts_regs_only _ _
    rw [h, State.setRf_queues]
  · rw [State.setRf_launches]
    obtain ⟨regs, h⟩ := State.keepPorts_regs_only _ _
    rw [h, State.setRf_launches]

theorem State.not_fatal_of_ready (h : s.ready = true) : s.fatal = false := by
  simp only [State.ready, Bool.and_eq_true, Bool.not_eq_true'] at h
  exact h.2

theorem State.ready_of_stage_ne (h : s.stage ≠ 8) : s.ready = false := by
  have hstage : (s.rf .bootStatus .stage == stReady) = false := beq_eq_false_iff_ne.mpr h
  rw [State.ready, hstage, Bool.false_and, Bool.false_and]

end Sys2Proof.Machine

section

open Sys2Proof Sys2Proof.Machine

/-- Settles O49, reset by reset. COLD counted in ROM alone and ahead of KEEP_MEM is log 108, context 0 made again by a
function-level reset log 110, the wait for PWRGOOD log 114, the board reference log 142. -/
theorem resets : Obligations.Resets := by
  unfold Obligations.Resets
  intro s
  refine ⟨fun hpg => ⟨fun hv hi ht => ?_, fun hi => ?_⟩, fun hp hr => ?perst, fun w ho hsz hoff hbit => ?cold,
    fun m v ho h62 h63 => ?keepMem, ?keepMemReset, fun kind hk => ?coldReset, fun hp => ?release, fun hw => ?vin,
    fun hw hpg hv ht => ?vinWaiting, fun hr => ?flr, fun hf => ?flrFatal, fun hf hk hs => ?flrKeepMem⟩
  · simp only [exec_powerOnReset, execPowerOnReset, State.powerOnStart, hpg, hv, hi, ht, Bool.not_true, Bool.not_false,
      Bool.and_self, Bool.false_eq_true, if_true, if_false]
  · simp only [exec_powerOnReset, execPowerOnReset, State.powerOnStart, hpg, hi, Bool.not_false, Bool.and_false,
      Bool.false_and, Bool.false_eq_true, if_false]
  case perst => simp only [exec_cold, execCold, hp, hr, Bool.false_eq_true, if_false, if_true]
  case cold =>
    have hwrite : execCold (some w) s = .next s.coldWrite := by
      simp [execCold, ho, hsz, hoff, getLsbD_toNat, hbit]
    refine ⟨fun hs => ?_, fun hs => ?_⟩
    · rw [exec_cold, hwrite, State.coldWrite, if_neg hs]
    · rw [exec_cold, hwrite, State.coldWrite, if_pos hs, State.refuseReset]
  case keepMem =>
    have hwrite : execKeepMem m v s = .next s.keepMemWrite := by
      simp only [execKeepMem, State.resetWrite, getLsbD_toNat, ho, h62, h63, Bool.and_self, Bool.false_eq_true, if_true,
        if_false]
    refine ⟨fun hs hl hf hh => ?_, fun hs => ?_⟩
    · rw [exec_keepMem, hwrite, State.keepMemWrite, if_pos (by simp [hs, hl, hf, hh, stReady])]
    · rw [exec_keepMem, hwrite, State.keepMemWrite, if_neg fun h => hs h.1, State.refuseReset]
  case keepMemReset =>
    exact ⟨_, rfl, State.keepMemReset_stage, State.keepMemReset_lastReset, State.keepMemReset_clears⟩
  case coldReset =>
    obtain ⟨hfuses, hboard, hclusters, hctxs, hqueues, hmode⟩ := s.coldReset_keeps kind
    have hlast : (s.coldReset kind).rf .bootStatus .lastReset = kind :=
      (State.rf_setRf_self _ _ _).trans (Nat.mod_eq_of_lt hk)
    exact ⟨s.coldReset_stage kind, hlast, hfuses, hboard, hclusters, hctxs, hqueues, hmode, s.coldReset_failed kind⟩
  case release => rw [exec_perstRelease, execPerstRelease, if_pos hp]
  case vin => rw [exec_vin48InRange, execVin48InRange, hw, if_neg Bool.false_ne_true]
  case vinWaiting =>
    simp only [exec_vin48InRange, execVin48InRange, State.powerOnStart, hw, hv, hpg, ht, Bool.not_false, Bool.and_self,
      if_true]
  case flr =>
    obtain ⟨hlast, hqueues, hlaunches⟩ := s.functionLevelReset_shows
    refine ⟨s.functionLevelReset.createCtx 0 s.ctxZeroRecord false, ?_, ?_, ?_, ?_, ?_⟩
    · rw [exec_functionLevelReset, execFunctionLevelReset, State.not_fatal_of_ready hr, if_neg Bool.false_ne_true,
        if_pos hr]
    · rw [State.rf, State.reg_createCtx_zero]
      exact hlast
    · rw [State.createCtx_queues, hqueues]
    · rw [State.createCtx_launches, hlaunches]
    · rw [State.find_createCtx, Option.isSome_some]
  case flrFatal => rw [exec_functionLevelReset, execFunctionLevelReset, if_pos hf]
  case flrKeepMem =>
    have hruns : s.keepMemRuns = true := by
      have hne : s.stage ≠ stReady ∧ s.stage ≠ stHalted := ⟨by rw [stReady]; omega, by rw [stHalted]; omega⟩
      rw [State.keepMemRuns, hk, decide_eq_true hne, Bool.and_self]
    rw [exec_functionLevelReset, execFunctionLevelReset, hf, if_neg Bool.false_ne_true,
      State.ready_of_stage_ne (by omega), if_neg Bool.false_ne_true, hruns, Bool.not_true, Bool.and_false,
      if_neg Bool.false_ne_true]

end

/-! PROOF. The state that reset leaves (O58); the trace collector, the sideband and the test access port (O55). -/

namespace Sys2Proof.Machine

variable {s : State}

/-! ### Reset -/

/-- Reset lists no register: each holds the value of its table. -/
theorem reg_reset (r : Reg) : State.reset.reg r = BitVec.ofNat 64 r.reset := rfl

theorem rf_reset (r : Reg) (f : RF) :
    State.reset.rf r f = fld (BitVec.ofNat 64 r.reset) (r.field f).lo (r.field f).w := by
  rw [State.rf, reg_reset]

/-! ### The collector (20 R568, R569) -/

section

variable {src : TraceSrc} {r : BitVec 256} {rest : List (BitVec 256)} (hr : s.ready = true)
  (hnext : s.traceNext = some (traceFrom src).key) (hq : s.traceQueue (traceFrom src).key = r :: rest)

include hr hnext hq

/-- The source whose turn it is has a record. -/
theorem execTraceAdmit_of_turn : execTraceAdmit src s =
    if s.rbit .obsTraceCtl .mode && decide (s.traceSize ≤ s.traceUsed) then .next s
    else .next (s.traceTake (traceFrom src) r rest) := by
  simp only [execTraceAdmit, hr, hnext, hq, bne_self_eq_false, Bool.not_true, Bool.or_self, Bool.false_eq_true, if_false]

end

/-! ### The sideband (21 R587, R588) -/

theorem State.takeAddress_of_none (hv : s.board.vaux = true) (hd : s.sideband.dynamic = none) (a : BitVec 7) :
    s.takeAddress a = { s with sideband := { s.sideband with dynamic := some a } } := by
  simp only [State.takeAddress, hv, hd, Option.isNone_none, Bool.and_self, if_true]

theorem State.takeAddress_of_some (hd : s.sideband.dynamic ≠ none) (a : BitVec 7) : s.takeAddress a = s := by
  rw [State.takeAddress, Option.isNone_eq_false_iff.mpr (Option.isSome_iff_ne_none.mpr hd), Bool.and_false,
    if_neg Bool.false_ne_true]

/-! ### The test access port (20 R575 to R578) -/

theorem takePad_length {α : Type} (d : α) (l : List α) : takePad d l.length l = l := by
  induction l with
  | nil => rfl
  | cons a l ih => rw [List.length_cons, takePad, ih]

/-- The five bypass registers shift as one path. -/
theorem State.bypassShift_eq (h : s.tap.bypass.length = 5) (bits : List Bool) : s.bypassShift bits =
    { s with tap := { s.tap with bypass := (s.tap.bypass ++ bits).drop bits.length }
             outbox := s.outbox ++ [.tdo ((s.tap.bypass ++ bits).take bits.length)] } := by
  have hpath : takePad false 5 s.tap.bypass = s.tap.bypass := h ▸ takePad_length false s.tap.bypass
  rw [State.bypassShift, hpath, State.tdo]

end Sys2Proof.Machine

section

open Sys2Proof Sys2Proof.Machine

/-- Settles O58: every part is read off the reset state. The registers that boot or the supply sets read 0 by log 3,
and memory lists nothing by log 14. -/
theorem resetState : Obligations.ResetState := by
  unfold Obligations.ResetState
  have hzero : ∀ r f, r.reset = 0 → State.reset.rf r f = 0 := fun r f h => by rw [rf_reset, h]; exact fld_zero _ _
  have hfatal : State.reset.fatal = false := by rw [State.fatal, State.rbit, hzero _ _ rfl]; rfl
  refine ⟨rfl, hzero _ _ rfl, hzero _ _ rfl, hzero _ _ rfl, hfatal, fun b => ⟨rfl, rfl⟩, fun f => rfl, rfl, rfl, rfl, rfl,
    rfl, rfl, rfl, ?cap, ?window, rfl, rfl, rfl, rfl, rfl, rfl, rfl, reg_reset, rfl, fun a => rfl⟩
  case cap => decide
  case window => decide

/-- Settles O55, command by command. Bit 5 of GETSTATUS's second byte is log 41, the bypass path, EXTEST and IDCODE are
log 116, parity and the dynamic address log 117. -/
theorem traceSidebandAndTest : Obligations.TraceSidebandAndTest := by
  unfold Obligations.TraceSidebandAndTest
  refine ⟨?trace, fun s hv => ⟨?transfer, ?write, ?trip, fun a => ⟨fun hd => ?take, fun hd => ?keep⟩, ?rstdaa, ?getstatus,
    fun ht pins bs hlen => ?port, fun hlen bs => ?path⟩⟩
  case trace =>
    intro s src r rest
    dsimp only
    intro hr hnext hq
    refine ⟨fun hfull hm => ?_, fun hfull hm => ?_, fun hroom u hu => ?_⟩
    · rw [exec_traceAdmit, execTraceAdmit_of_turn hr hnext hq, hm, decide_eq_true hfull, Bool.and_self, if_pos rfl]
    · rw [exec_traceAdmit, execTraceAdmit_of_turn hr hnext hq, hm, Bool.false_and, if_neg Bool.false_ne_true,
        State.traceTake]
      dsimp only
      rw [if_pos hfull]
    · rw [exec_traceAdmit, execTraceAdmit_of_turn hr hnext hq, decide_eq_false (Nat.not_le.mpr hroom), Bool.and_false,
        if_neg Bool.false_ne_true, State.traceTake]
      dsimp only
      rw [if_neg (Nat.not_le.mpr hroom), hu]
  case transfer =>
    intro off b
    refine ⟨fun hnone => ?_, fun r hr => ?_⟩
    · have hzeros : leBytes 4 (0 : Word).toNat = [0, 0, 0, 0] := by decide
      simp only [exec_sbTransfer, execSbTransfer, hv, hnone, Option.map_none, Option.getD_none, hzeros, State.sbSend,
        Bool.not_true, Bool.false_eq_true, if_false]
    · simp only [exec_sbTransfer, execSbTransfer, hv, hr, Option.map_some, Option.getD_some, State.sbSend, Bool.not_true,
        Bool.false_eq_true, if_false]
  case write =>
    intro off v
    refine ⟨?_, fun hoff => ?_⟩
    · simp only [exec_sbTransfer, execSbTransfer, hv, Bool.not_true, Bool.not_false, Bool.false_eq_true, if_false, if_true]
    · simp only [exec_sbTransfer, execSbTransfer, hv, hoff, Bool.not_true, Bool.false_eq_true, if_false]
  case trip =>
    intro v
    refine ⟨?_, ?_⟩
    · simp only [exec_sbTransfer, execSbTransfer, hv, State.tripClear, Bool.not_true, Bool.false_eq_true, if_false, if_true]
    · rw [exec_tripClear, execTripClear, if_pos hv, State.tripClear]
  case take =>
    exact ⟨congrArg Host.Outcome.next (State.takeAddress_of_none hv hd a),
      congrArg Host.Outcome.next (State.takeAddress_of_none hv hd a)⟩
  case keep =>
    exact ⟨congrArg Host.Outcome.next (State.takeAddress_of_some hd a),
      congrArg Host.Outcome.next (State.takeAddress_of_some hd a)⟩
  case rstdaa => rw [exec_rstdaa, execRstdaa, if_pos hv]
  case getstatus => rw [exec_getstatus, execGetstatus, if_pos hv, State.sbSend]
  case port =>
    refine ⟨?_, ?_, fun tap htap => ?_⟩
    · simp only [exec_samplePreload, execSamplePreload, hv, ht, State.endExtest, State.tdo, Bool.not_true,
        Bool.false_eq_true, if_false]
    · simp only [exec_extest, execExtest, hv, ht, Bool.not_true, Bool.false_eq_true, if_false]
    · simp only [exec_idcode, execIdcode, ht, decide_eq_true htap, State.endExtest, State.tdo, idcode, Bool.and_self,
        if_true]
  case path =>
    dsimp only
    have hshift := State.bypassShift_eq hlen bs
    refine ⟨fun ht => ?_, fun ht => ⟨?_, ?_, fun pins => ?_⟩⟩
    · rw [exec_bypass, execBypass, if_pos hv, if_pos ht, State.bypassShift_eq (s := s.endExtest) hlen]
      rfl
    · rw [exec_bypass, execBypass, if_pos hv, ht, if_neg Bool.false_ne_true, hshift]
    · rw [exec_extest, execExtest, hv, ht, Bool.not_true, Bool.not_false, if_neg Bool.false_ne_true, if_pos rfl, hshift]
    · rw [exec_samplePreload, execSamplePreload, hv, ht, Bool.not_true, Bool.not_false, if_neg Bool.false_ne_true,
        if_pos rfl, hshift]

end

/-! PROOF. The words of cluster instructions: the statement of 06_instruction_set.md R179 and R191 (Tables 6.1 to 6.8). -/

namespace Sys2Proof
theorem encodeRope_of_instrV {op : Nat} {i : Issue} {f : VFmt} {c : Instr} (h : instrV op i f = some c) :
    encodeRope c = some (i, f.word (BitVec.ofNat 8 op)) := by
  unfold instrV at h
  split at h <;> cases h <;> rfl

theorem encodeRope_of_instrI {op : Nat} {i : Issue} {f : IFmt} {c : Instr} (h : instrI op i f = some c) :
    encodeRope c = some (i, f.word (BitVec.ofNat 8 op)) := by
  unfold instrI at h
  split at h <;> cases h <;> rfl

theorem encodeRope_of_instrM {op : Nat} {i : Issue} {f : MFmt} {c : Instr} (h : instrM op i f = some c) :
    encodeRope c = some (i, f.word (BitVec.ofNat 8 op)) := by
  unfold instrM at h
  split at h <;> cases h <;> rfl

theorem encodeRope_of_instrC {op : Nat} {i : Issue} {f : CFmt} {c : Instr} (h : instrC op i f = some c) :
    encodeRope c = some (i, f.word (BitVec.ofNat 8 op)) := by
  unfold instrC at h
  split at h <;> cases h <;> rfl

theorem encodeRope_of_decodeRope {i : Issue} {w : Word} {c : Instr} (h : decodeRope i w = some c) :
    encodeRope c = some (i, w) := by
  unfold decodeRope at h
  split at h
  case isTrue hv => rw [encodeRope_of_instrV h, BitVec.ofNat_toNat, BitVec.setWidth_eq, VFmt.word_ofWord w hv]
  case isFalse hv =>
  split at h
  case isTrue hi => rw [encodeRope_of_instrI h, BitVec.ofNat_toNat, BitVec.setWidth_eq, IFmt.word_ofWord w hi]
  case isFalse hi =>
  split at h
  case isTrue hm => rw [encodeRope_of_instrM h, BitVec.ofNat_toNat, BitVec.setWidth_eq, MFmt.word_ofWord w hm]
  case isFalse hm =>
  have hc : wordFmt w = 3#2 := by
    revert hv hi hm
    generalize wordFmt w = x
    revert x
    decide
  rw [encodeRope_of_instrC h, BitVec.ofNat_toNat, BitVec.setWidth_eq, CFmt.word_ofWord w hc]

theorem decodeRope_of_encodeRope {c : Instr} {i : Issue} {w : Word} (h : encodeRope c = some (i, w)) :
    decodeRope i w = some c := by
  cases c
  case uadd | usub | umul | umulhu | uand | uor | uxor | ushl | ushr | usar | umin | umax | ucmp | utov | vtou
    | ptou | utop | sread | vlaneid | vadd | vsub | vmul | vmulh | vand | vor | vxor | vshl | vshr | vsar |
    vmin | vmax | vsel | vcmp | vmov | vpopc | vfadd | vfsub | vfmul | vfma | vfmin | vfmax | vfcmp | vfdiv |
    vfsqrt | vfrcp | vfrsq | vfexp2 | vflog2 | vcvt | vshfl | vred | pand | por | pxor | pandn | twait |
    taccOpen | tmma | tstore | taccLdp | tcomb | taccRel | haulCopy | haulGather | haulScatter | haulRed |
    haulPut | haulGet | bellSig | bellWait | bellRead | bellXchg =>
    cases h
    exact Laws.Encoding.vfmt rfl
  case umovi | umovhi | uaddi | uandi | uori | ushli | ushri | vmovi | vaddi | cairn =>
    cases h
    exact Laws.Encoding.ifmt rfl
  case ld | st | atom | red | tallyAdd | tallyCvt | tallyFlags | spinwait | glock | gunlock | fence =>
    cases h
    exact Laws.Encoding.mfmt rfl
  case nop | bra | call | ret | exit | bar =>
    cases h
    exact Laws.Encoding.cfmt rfl
  all_goals cases h

theorem decodeRope_iff (c : Instr) (i : Issue) (w : Word) : decodeRope i w = some c ↔ encodeRope c = some (i, w) :=
  ⟨encodeRope_of_decodeRope, decodeRope_of_encodeRope⟩

end Sys2Proof

section
open Sys2Proof

/-- Settles O59: each format's word and fields determine each other, and each opcode of Table 6.8 names one
instruction. -/
theorem ropeEncoding : Obligations.RopeEncoding := by
  unfold Obligations.RopeEncoding
  refine ⟨decodeRope_iff, fun i w => ?_⟩
  rw [Option.eq_none_iff_forall_ne_some]
  exact forall_congr' fun c => not_congr (decodeRope_iff c i w)

end

/-! PROOF. Every step keeps device memory in canonical form (R283, R371): one lemma for each operation of the state,
in the order of the model, that says whose memory it leaves in that form. -/

namespace Sys2Proof.Machine

variable {s : State}

/-- Device memory is in canonical form. -/
def State.Canon (s : State) : Prop := s.mem.wf = true

@[simp] theorem State.canon_iff : s.mem.wf = true ↔ s.Canon := Iff.rfl

@[simp] theorem State.canon_mk {pending free acCount time timeFrac errSeq regs mem clusters grants launches nextLaunch ctxs
    queues xlt coh hbm cores pcie pod d2d stops board fuses boot power doe obs sideband tap outbox} :
    (State.mk pending free acCount time timeFrac errSeq regs mem clusters grants launches nextLaunch ctxs queues xlt coh
      hbm cores pcie pod d2d stops board fuses boot power doe obs sideband tap outbox).Canon ↔ mem.wf = true := Iff.rfl

/-- Whatever next state an outcome holds, its memory is in canonical form. -/
def nextCanon (o : Host.Outcome State Fault Refusal) : Prop := ∀ t, o = .next t → t.Canon

@[simp] theorem nextCanon_next : nextCanon (.next s) ↔ s.Canon := by simp [nextCanon]
@[simp] theorem nextCanon_fault {f : Fault} : nextCanon (.fault f) := by simp [nextCanon]
@[simp] theorem nextCanon_refused {f : Refusal} : nextCanon (.refused f) := by simp [nextCanon]

@[simp] theorem State.ite_canon {c : Prop} [Decidable c] {t : State} (hs : s.Canon) (ht : t.Canon) :
    (if c then s else t).Canon := by
  split <;> assumption

theorem State.foldl_canon {α : Type} {f : State → α → State} {l : List α} (h : s.Canon)
    (hf : ∀ s a, s.Canon → (f s a).Canon) : (l.foldl f s).Canon :=
  foldl_keeps (P := State.Canon) hf l s h

/-- A pair whose state's memory is in canonical form. -/
theorem State.canon_of_fst {β : Type} {x : State × β} {t : State} {b : β} (h : x.1.Canon) (e : x = (t, b)) : t.Canon := by
  subst e
  exact h

theorem State.foldl_fst_canon {α β : Type} {f : State × β → α → State × β} {l : List α} {x : State × β}
    (h : x.1.Canon) (hf : ∀ x a, x.1.Canon → (f x a).1.Canon) : (l.foldl f x).1.Canon :=
  foldl_keeps (P := fun x : State × β => x.1.Canon) hf l x h

theorem Mem.wf_of_poison {m : Mem} (p : List Nat) : Mem.wf { m with poison := p } = m.wf := rfl

theorem Mem.setSector_wf {m : Mem} {k x : Nat} {poisoned : Bool} (h : m.wf = true) :
    (m.setSector k x poisoned).wf = true := by
  unfold Mem.setSector
  dsimp only
  rw [Mem.wf_of_poison]
  exact Mem.writeBytes_wf _ _ _ h

/-- The state of a session has its memory in canonical form. -/
def Sess.Canon (x : Sess) : Prop := x.st.Canon

@[simp] theorem Sess.canon_iff {x : Sess} : x.st.Canon ↔ x.Canon := Iff.rfl

@[simp] theorem Sess.canon_mk {st c ctx party host log seen ln xl recentR recentW reads writes acts written later stop} :
    (Sess.mk st c ctx party host log seen ln xl recentR recentW reads writes acts written later stop).Canon ↔ st.Canon :=
  Iff.rfl

theorem Sess.foldl_canon {α : Type} {f : Sess → α → Sess} {l : List α} {x : Sess} (h : x.Canon)
    (hf : ∀ x a, x.Canon → (f x a).Canon) : (l.foldl f x).Canon :=
  foldl_keeps (P := Sess.Canon) hf l x h

theorem Sess.foldl_fst_canon {α β : Type} {f : Sess × β → α → Sess × β} {l : List α} {x : Sess × β}
    (h : x.1.Canon) (hf : ∀ x a, x.1.Canon → (f x a).1.Canon) : (l.foldl f x).1.Canon :=
  foldl_keeps (P := fun x : Sess × β => x.1.Canon) hf l x h

theorem State.ite_fst_canon {β : Type} {c : Prop} [Decidable c] {x y : State × β} (hx : x.1.Canon) (hy : y.1.Canon) :
    (if c then x else y).1.Canon := by
  split <;> assumption

theorem Sess.ite_fst_canon {β : Type} {c : Prop} [Decidable c] {x y : Sess × β} (hx : x.1.Canon) (hy : y.1.Canon) :
    (if c then x else y).1.Canon := by
  split <;> assumption

theorem nextCanon_ite {c : Prop} [Decidable c] {x y : Host.Outcome State Fault Refusal} (hx : nextCanon x)
    (hy : nextCanon y) : nextCanon (if c then x else y) := by
  split <;> assumption

/-! ### The plainest operations over State -/

@[simp] theorem State.setReg_canon {r : Reg} {v : Word} : (State.setReg s r v).Canon ↔ s.Canon := by
  rw [State.Canon, State.setReg_mem, State.canon_iff]

@[simp] theorem State.setRf_canon {r : Reg} {f : RF} {n : Nat} : (State.setRf s r f n).Canon ↔ s.Canon := by
  rw [State.Canon, State.setRf_mem, State.canon_iff]

@[simp] theorem State.satRf_canon {r : Reg} {f : RF} {n : Nat} : (State.satRf s r f n).Canon ↔ s.Canon := by
  rw [State.Canon, State.satRf_mem, State.canon_iff]

@[simp] theorem State.wrapRf_canon {r : Reg} {f : RF} {n : Nat} : (State.wrapRf s r f n).Canon ↔ s.Canon := by
  rw [State.Canon, State.wrapRf_mem, State.canon_iff]

@[simp] theorem State.setBit_canon {r : Reg} {i : Nat} : (State.setBit s r i).Canon ↔ s.Canon := by
  rw [State.Canon, State.setBit_mem, State.canon_iff]

@[simp] theorem State.bump_canon {ctr ovf : Reg} {ovfBit n : Nat} : (State.bump s ctr ovf ovfBit n).Canon ↔ s.Canon := by
  rw [State.Canon, State.bump_mem, State.canon_iff]

@[simp] theorem State.countCl_canon {c ev ctx n : Nat} : (State.countCl s c ev ctx n).Canon ↔ s.Canon := by
  rw [State.Canon, State.countCl_mem, State.canon_iff]

@[simp] theorem State.countPkg_canon {ev inst ctx n : Nat} : (State.countPkg s ev inst ctx n).Canon ↔ s.Canon := by
  rw [State.Canon, State.countPkg_mem, State.canon_iff]

@[simp] theorem State.setCluster_canon {c : Nat} {k : Cluster} : (State.setCluster s c k).Canon ↔ s.Canon := by
  rw [State.Canon, State.setCluster_mem, State.canon_iff]

@[simp] theorem State.mapClusters_canon {f : Nat → Cluster → Cluster} : (State.mapClusters s f).Canon ↔ s.Canon := by
  rw [State.Canon, State.mapClusters_mem, State.canon_iff]

@[simp] theorem State.setRope_canon {c slot : Nat} {r : Rope} : (State.setRope s c slot r).Canon ↔ s.Canon := by
  rw [State.Canon, State.setRope_mem, State.canon_iff]

@[simp] theorem State.setParty_canon {c n : Nat} {p : Party} : (State.setParty s c n p).Canon ↔ s.Canon := by
  rw [State.Canon, State.setParty_mem, State.canon_iff]

/-! ### What lies beneath a line of device memory -/

@[simp] theorem State.memLast_canon {st kind symbol a : Nat} (h : s.Canon) : (State.memLast s st kind symbol a).Canon
    :=
  (Fab.refl _).memLast.2 h

@[simp] theorem State.rowAccess_canon {st a : Nat} : (State.rowAccess s st a).Canon ↔ s.Canon := by
  rw [State.Canon, State.rowAccess_mem, State.canon_iff]

@[simp] theorem State.hbmBurst_canon {k : Nat} : (State.hbmBurst s k).Canon ↔ s.Canon := by
  rw [State.Canon, State.hbmBurst_mem, State.canon_iff]

@[simp] theorem State.hbmStore_canon {k : Nat} : (State.hbmStore s k).Canon ↔ s.Canon := by
  rw [State.Canon, State.hbmStore_mem, State.canon_iff]

@[simp] theorem State.poisonRead_canon {k : Nat} : (State.poisonRead s k).Canon ↔ s.Canon := by
  rw [State.Canon, State.poisonRead_mem, State.canon_iff]

@[simp] theorem State.setSide_canon {line : Nat} {l : SideLine} : (State.setSide s line l).Canon ↔ s.Canon := by
  rw [State.Canon, State.setSide_mem, State.canon_iff]

@[simp] theorem State.sideTake_canon {line : Nat} {secs : BitVec 4} : (State.sideTake s line secs).Canon ↔ s.Canon := by
  rw [State.Canon, State.sideTake_mem, State.canon_iff]

@[simp] theorem State.sideRead_canon {line : Nat} {secs : BitVec 4} : (State.sideRead s line secs).Canon ↔ s.Canon := by
  rw [State.Canon, State.sideRead_mem, State.canon_iff]

@[simp] theorem State.sideFill_canon {line : Nat} : (State.sideFill s line).Canon ↔ s.Canon := by
  rw [State.Canon, State.sideFill_mem, State.canon_iff]

theorem State.sideStore_canon {line : Nat} {secs part : BitVec 4} {f : Mem → Mem} (h : s.Canon)
    (hf : ∀ m : Mem, m.wf = true → (f m).wf = true) : (s.sideStore line secs part f).Canon :=
  ((Fab.refl s).sideStore hf).2 h

@[simp] theorem State.memWrite_canon {line : Nat} {d : Line} {mask : BitVec 128} (h : s.Canon) : (State.memWrite s
    line d mask).Canon :=
  (Fab.refl _).memWrite.2 h

@[simp] theorem State.memTake_canon {line : Nat} {d : Line} {p : BitVec 4} (h : s.Canon) : (State.memTake s line d
    p).Canon :=
  (Fab.refl _).memTake.2 h

@[simp] theorem State.sideDrop_canon {k : Nat} (h : s.Canon) : (State.sideDrop s k).Canon := by
  unfold State.sideDrop
  dsimp only
  split
  · exact h
  · split
    · simp [h]
    · exact Mem.setSector_wf h

@[simp] theorem State.sideClean_canon {k : Nat} (h : s.Canon) : (State.sideClean s k).Canon := by
  simp [State.sideClean, h]

@[simp] theorem State.setAgent_canon {a : Nat} {g : CAgent} : (State.setAgent s a g).Canon ↔ s.Canon := by
  rw [State.Canon, State.setAgent_mem, State.canon_iff]

@[simp] theorem State.mapCoh_canon {f : Coh → Coh} : (State.mapCoh s f).Canon ↔ s.Canon := by
  rw [State.Canon, State.mapCoh_mem, State.canon_iff]

@[simp] theorem State.cohSend_canon {m : CMsg} (h : s.Canon) : (State.cohSend s m).Canon :=
  (Fab.refl _).cohSend.2 h

theorem State.cohTake_canon {s t : State} {p : CMsg → Bool} {m : CMsg} (h : s.Canon)
    (ht : s.cohTake p = some (m, t)) : t.Canon := by
  obtain ⟨x, _, hx⟩ := Option.map_eq_some_iff.mp ht
  cases hx
  simp [h]

@[simp] theorem State.setCohReq_canon {a line : Nat} {q : CReq} (h : s.Canon) : (State.setCohReq s a line q).Canon :=
  (Fab.refl _).setCohReq.2 h

@[simp] theorem State.dropCohReq_canon {a line : Nat} (h : s.Canon) : (State.dropCohReq s a line).Canon :=
  (Fab.refl _).dropCohReq.2 h

@[simp] theorem State.unreserve_canon {a line : Nat} {but : Option Nat} (h : s.Canon) : (State.unreserve s a line
    but).Canon :=
  (Fab.refl _).unreserve.2 h

@[simp] theorem State.setLine_canon {a line : Nat} {l : CLine} (h : s.Canon) : (State.setLine s a line l).Canon :=
  (Fab.refl _).setLine.2 h

@[simp] theorem State.dropLine_canon {a line : Nat} (h : s.Canon) : (State.dropLine s a line).Canon :=
  (Fab.refl _).dropLine.2 h

@[simp] theorem State.setWb_canon {a line : Nat} {w : WbBuf} (h : s.Canon) : (State.setWb s a line w).Canon :=
  (Fab.refl _).setWb.2 h

@[simp] theorem State.dropWb_canon {a line : Nat} (h : s.Canon) : (State.dropWb s a line).Canon :=
  (Fab.refl _).dropWb.2 h

@[simp] theorem State.setTrans_canon {line : Nat} {t : Trans} : (State.setTrans s line t).Canon ↔ s.Canon := by
  rw [State.Canon, State.setTrans_mem, State.canon_iff]

@[simp] theorem State.endTrans_canon {line : Nat} (h : s.Canon) : (State.endTrans s line).Canon :=
  (Fab.refl _).endTrans.2 h

@[simp] theorem State.touchWay_canon {a line way : Nat} {low : Bool} (h : s.Canon) : (State.touchWay s a line way
    low).Canon :=
  (Fab.refl _).touchWay.2 h

@[simp] theorem State.setDir_canon {line : Nat} {st : DirState} {owner : Nat} {presence : List Nat} (h : s.Canon) :
    (State.setDir s line st owner presence).Canon :=
  (Fab.refl _).setDir.2 h

@[simp] theorem State.freeDir_canon {line : Nat} (h : s.Canon) : (State.freeDir s line).Canon :=
  (Fab.refl _).freeDir.2 h

@[simp] theorem State.setShared_canon {line : Nat} {presence : List Nat} (h : s.Canon) : (State.setShared s line
    presence).Canon :=
  (Fab.refl _).setShared.2 h

@[simp] theorem State.setCore_canon {k : Nat} {c : Core} (h : s.Canon) : (State.setCore s k c).Canon :=
  (Fab.refl _).setCore.2 h

@[simp] theorem State.lineWrite_canon {a line : Nat} {l : CLine} {d : Line} {mask : BitVec 128} {writer : Option Nat}
    (h : s.Canon) : (State.lineWrite s a line l d mask writer).Canon :=
  (Fab.refl _).lineWrite.2 h

@[simp] theorem State.coreGets_canon {k v : Nat} {rsv : Option Nat} (h : s.Canon) : (State.coreGets s k v rsv).Canon
    :=
  (Fab.refl _).coreGets.2 h

@[simp] theorem State.coreLoad_canon {k line : Nat} {l : CLine} {off n : Nat} {rsv : Option Nat} (h : s.Canon) :
    (State.coreLoad s k line l off n rsv).Canon :=
  (Fab.refl _).coreLoad.2 h

@[simp] theorem State.readUse_canon {line : Nat} {l : CLine} {u : LineUse} (h : s.Canon) : (State.readUse s line l
    u).Canon :=
  (Fab.refl _).readUse.2 h

@[simp] theorem State.writeUse_canon {a line : Nat} {l : CLine} {u : LineUse} {d : Line} {mask : BitVec 128} (h :
    s.Canon) : (State.writeUse s a line l u d mask).Canon :=
  (Fab.refl _).writeUse.2 h

@[simp] theorem State.snoopAnswer_canon {a line kind : Nat} {dest : SnpDest} {d : Option (Line × BitVec 4 × Bool)} (h
    : s.Canon) : (State.snoopAnswer s a line kind dest d).Canon :=
  (Fab.refl _).snoopAnswer.2 h

@[simp] theorem State.setCopy_canon {a line : Nat} {wb : Bool} {st : Option LineState} (h : s.Canon) : (State.setCopy
    s a line wb st).Canon :=
  (Fab.refl _).setCopy.2 h

@[simp] theorem State.takeSnpShr_canon {a line : Nat} {dest : SnpDest} (h : s.Canon) : (State.takeSnpShr s a line
    dest).Canon :=
  (Fab.refl _).takeSnpShr.2 h

@[simp] theorem State.takeSnpInv_canon {a line : Nat} {dest : SnpDest} (h : s.Canon) : (State.takeSnpInv s a line
    dest).Canon :=
  (Fab.refl _).takeSnpInv.2 h

@[simp] theorem State.takeSnpCur_canon {a line : Nat} (h : s.Canon) : (State.takeSnpCur s a line).Canon :=
  (Fab.refl _).takeSnpCur.2 h

@[simp] theorem State.homeData_canon {a line : Nat} {grant : Option LineState} (h : s.Canon) : (State.homeData s a
    line grant).Canon :=
  (Fab.refl _).homeData.2 h

@[simp] theorem State.homeAtomic_canon {a line addr : Nat} {op : HomeAtomic} (h : s.Canon) : (State.homeAtomic s a
    line addr op).Canon :=
  (Fab.refl _).homeAtomic.2 h

@[simp] theorem State.finishTrans_canon {line : Nat} {t : Trans} (h : s.Canon) : (State.finishTrans s line t).Canon :=
  (Fab.refl _).finishTrans.2 h

@[simp] theorem State.checkTrans_canon {line : Nat} (h : s.Canon) : (State.checkTrans s line).Canon :=
  (Fab.refl _).checkTrans.2 h

@[simp] theorem State.takeSnpRsp_canon {a line kind : Nat} {sent : Bool} {t : Trans} (h : s.Canon) : (State.takeSnpRsp
    s a line kind sent t).Canon :=
  (Fab.refl _).takeSnpRsp.2 h

@[simp] theorem State.homeGets_canon {line : Nat} {d : Line} {p : BitVec 4} (h : s.Canon) : (State.homeGets s line d
    p).Canon :=
  (Fab.refl _).homeGets.2 h

@[simp] theorem State.install_canon {a line : Nat} (h : s.Canon) : (State.install s a line).Canon :=
  (Fab.refl _).install.2 h

@[simp] theorem State.takeData_canon {a line : Nat} {d : Line} {p : BitVec 4} {dirty : Bool} {grant : Option
    LineState} (h : s.Canon) : (State.takeData s a line d p dirty grant).Canon :=
  (Fab.refl _).takeData.2 h

@[simp] theorem State.takeCmp_canon {a line : Nat} {grant : Option LineState} (h : s.Canon) : (State.takeCmp s a line
    grant).Canon :=
  (Fab.refl _).takeCmp.2 h

@[simp] theorem State.takeNack_canon {a line : Nat} (h : s.Canon) : (State.takeNack s a line).Canon :=
  (Fab.refl _).takeNack.2 h

@[simp] theorem State.deliver_canon {m : CMsg} (h : s.Canon) : (State.deliver s m).Canon :=
  (Fab.refl _).deliver.2 h

@[simp] theorem State.drain_canon {line n : Nat} {s : State} (h : s.Canon) :
    (State.drain line n s).Canon := ((Fab.refl s).drain n).2 h

@[simp] theorem State.lineEnded_canon {line : Nat} (h : s.Canon) : (State.lineEnded s line).Canon :=
  (Fab.refl _).lineEnded.2 h

/-! ### The named operations over coherent memory, frame ownership, translation and the outside that every meaning is
written with -/

@[simp] theorem State.cohWrite_canon {line : Nat} {d : Line} {mask : BitVec 128} (h : s.Canon) : (State.cohWrite s
    line d mask).Canon :=
  (Fab.refl _).cohWrite.2 h

@[simp] theorem State.cohPoison_canon {line : Nat} {which : BitVec 4} (h : s.Canon) : (State.cohPoison s line
    which).Canon :=
  (Fab.refl _).cohPoison.2 h

@[simp] theorem State.homeFetch_canon {ctx line : Nat} : (State.homeFetch s ctx line).1.Canon ↔ s.Canon := by
  rw [State.Canon, State.homeFetch_mem, State.canon_iff]

@[simp] theorem State.homeWrite_canon {ctx line : Nat} {d : Line} {mask : BitVec 128} (h : s.Canon) : (State.homeWrite
    s ctx line d mask).1.Canon :=
  (Fab.refl _).homeWrite.2 h

@[simp] theorem State.walkReads_canon {ctx va : Nat} (h : s.Canon) : (State.walkReads s ctx va).Canon := by
  unfold State.walkReads
  dsimp only
  split
  · exact h
  · refine State.foldl_canon h fun t i ht => ?_
    split <;> simp [ht]

@[simp] theorem State.setRcache_canon {id : RcId} {k : RangeCache} (h : s.Canon) : (State.setRcache s id k).Canon := by
  unfold State.setRcache
  split <;> simp [h]

@[simp] theorem State.countMiss_canon {s : State} {ctx : Nat} {id : RcId} (h : s.Canon) :
    (s.countMiss ctx id).Canon := by
  cases id <;> simp [State.countMiss, h]

@[simp] theorem State.translate_canon {id : RcId} {ctx va : Nat} {n : Need} (h : s.Canon) : (State.translate s id ctx
    va n).1.Canon := by
  unfold State.translate
  grind [State.Canon, State.walkReads_canon, State.countMiss_canon, State.setRcache_canon]

@[simp] theorem State.freshWord_canon (h : s.Canon) : (State.freshWord s).1.Canon := by
  simp [State.freshWord, h]

@[simp] theorem State.freshBit_canon (h : s.Canon) : (State.freshBit s).1.Canon := by
  simp [State.freshBit, h]

@[simp] theorem State.hostWrite_canon {addr : Nat} {bs : List (Option Byte)} (h : s.Canon) : (State.hostWrite s addr
    bs).Canon := by
  simp [State.hostWrite, h]

@[simp] theorem State.hostRead_canon {addr len : Nat} {control : Bool} (h : s.Canon) : (State.hostRead s addr len
    control).Canon := by
  simp [State.hostRead, h]

@[simp] theorem State.msix_canon {vec : Nat} (h : s.Canon) : (State.msix s vec).Canon := by
  simp [State.msix, h]

theorem State.squareWrite_canon {s : State} {ctx va : Nat} {bs : List Byte} (h : s.Canon) :
    ∀ t, s.squareWrite ctx va bs = some t → t.Canon := by
  unfold State.squareWrite
  refine foldl_keeps (P := fun o : Option State => ∀ t, o = some t → t.Canon) (fun o p ho => ?_) _ _ (by simp [h])
  grind [State.Canon, State.translate_canon, State.hostWrite_canon, State.homeWrite_canon]

/-! ### Frames of the pod transport and their delivery -/

@[simp] theorem State.setPeer_canon {n : Nat} {p : Peer} : (State.setPeer s n p).Canon ↔ s.Canon := by
  rw [State.Canon, State.setPeer_mem, State.canon_iff]

@[simp] theorem State.emitFrame_canon {port peer : Nat} {hdr payload : List Byte} (h : s.Canon) : (State.emitFrame s
    port peer hdr payload).Canon := by
  simp [State.emitFrame, h]

@[simp] theorem State.emitBody_canon {port peer psn flags : Nat} {b : Body} (h : s.Canon) : (State.emitBody s port
    peer psn flags b).Canon := by
  unfold State.emitBody
  split <;> simp [h]

@[simp] theorem State.emitPlain_canon {port peer type psn job stamp : Nat} {payload : List Byte} (h : s.Canon) :
    (State.emitPlain s port peer type psn job stamp payload).Canon := by
  simp [State.emitPlain, h]

@[simp] theorem State.sendAck_canon {n : Nat} (h : s.Canon) : (State.sendAck s n).Canon := by
  simp [State.sendAck, h]

@[simp] theorem State.markRx_canon {n psn : Nat} (h : s.Canon) : (State.markRx s n psn).Canon :=
    State.ite_canon (State.sendAck_canon (State.setPeer_canon.mpr h)) (State.setPeer_canon.mpr h)

@[simp] theorem State.podFlush_canon {k n : Nat} {s : State} (h : s.Canon) : (s.podFlush k n).Canon := by
  induction k generalizing s with
  | zero => exact h
  | succ k ih =>
    unfold State.podFlush
    grind [State.Canon, State.setPeer_canon, State.emitBody_canon, State.markRx_canon]

@[simp] theorem State.flushPeer_canon {n : Nat} (h : s.Canon) : (State.flushPeer s n).Canon := by
  simp [State.flushPeer, h]

@[simp] theorem State.flushAll_canon (h : s.Canon) : (State.flushAll s).Canon :=
  State.foldl_canon h fun _ _ => State.flushPeer_canon

@[simp] theorem State.podSend_canon {n : Nat} {b : Body} (h : s.Canon) : (State.podSend s n b).Canon := by
  simp [State.podSend, h]

@[simp] theorem State.resend_canon {n psn : Nat} (h : s.Canon) : (State.resend s n psn).Canon := by
  unfold State.resend
  grind [State.Canon, State.setPeer_canon, State.countPkg_canon, State.satRf_canon, State.emitBody_canon]

@[simp] theorem State.takeMsg_canon (h : s.Canon) : (State.takeMsg s).1.Canon := by
  simp [State.takeMsg, h]

@[simp] theorem State.setMuster_canon {ctx : Nat} {m : Muster} : (State.setMuster s ctx m).Canon ↔ s.Canon := by
  rw [State.Canon, State.setMuster_mem, State.canon_iff]

@[simp] theorem State.musterSend_canon {ctx rank mtype reason epoch named acked : Nat} {digest : List Byte} (h :
    s.Canon) : (State.musterSend s ctx rank mtype reason epoch named acked digest).Canon := by
  simp [State.musterSend, h]

@[simp] theorem State.sendAborts_canon {ctx reason named : Nat} (h : s.Canon) : (State.sendAborts s ctx reason
    named).Canon :=
  State.foldl_canon h fun _ _ => State.musterSend_canon

@[simp] theorem State.abortJob_canon {ctx : Nat} (h : s.Canon) : (State.abortJob s ctx).Canon := by
  simp [State.abortJob, h]

@[simp] theorem State.showColl_canon (h : s.Canon) : (State.showColl s).Canon :=
  State.foldl_canon h fun _ _ ht => by simp [ht]

@[simp] theorem State.dropCollectives_canon {ctx : Nat} (h : s.Canon) : (State.dropCollectives s ctx).Canon :=
    State.showColl_canon (State.foldl_canon h fun _ _ => State.emitPlain_canon)

/-! ### Faults and errors -/

@[simp] theorem State.ringPut_canon {ring ptr : Reg} {bytes : List Byte} (h : s.Canon) : (State.ringPut s ring ptr
    bytes).1.Canon := by
  unfold State.ringPut
  extract_lets size prod
  split
  · simp [h]
  · split
    next => simp [h]
    next heq => exact State.wrapRf_canon.mpr (State.squareWrite_canon h _ heq)

@[simp] theorem State.errRecord_canon {i : ErrInfo} {code cls ctx : Nat} (h : s.Canon) : (State.errRecord s i code cls
    ctx).1.Canon := by
  unfold State.errRecord
  split
  · exact h
  · exact State.ite_canon (State.msix_canon (State.ringPut_canon h)) (State.ringPut_canon h)

@[simp] theorem State.countConsumed_canon (h : s.Canon) : (State.countConsumed s).Canon := by
  simp [State.countConsumed, h]

@[simp] theorem State.apertureFail_canon {i : ErrInfo} {ctx addr : Nat} (h : s.Canon) : (State.apertureFail s i ctx
    addr).Canon := by
  simp [State.apertureFail, h]

@[simp] theorem State.setQueue_canon {n : Nat} {q : Queue} : (State.setQueue s n q).Canon ↔ s.Canon := by
  rw [State.Canon, State.setQueue_mem, State.canon_iff]

@[simp] theorem State.showWait_canon {n : Nat} (h : s.Canon) : (State.showWait s n).Canon := by
  simp [State.showWait, h]

@[simp] theorem State.failQueues_canon {ctx code : Nat} (h : s.Canon) : (State.failQueues s ctx code).Canon := by
  refine State.foldl_canon h fun t n ht => ?_
  split
  · exact State.showWait_canon (by simp [ht])
  · exact ht

@[simp] theorem State.dropXlt_canon {ctx : Nat} (h : s.Canon) : (State.dropXlt s ctx).Canon := by
  simp [State.dropXlt, h]

@[simp] theorem State.cleanCtx_canon {c ctx : Nat} (h : s.Canon) : (State.cleanCtx s c ctx).Canon := by
  unfold State.cleanCtx
  dsimp only
  refine State.countCl_canon.mpr (State.foldl_canon (State.setCluster_canon.mpr h) fun t l ht => ?_)
  split
  next heq => exact State.canon_of_fst (State.homeWrite_canon ht) heq
  next => exact State.satRf_canon.mpr ht

@[simp] theorem State.endCtxWork_canon {s0 : State} {ctx : Nat} (h : s0.Canon) : (State.endCtxWork s0 ctx).Canon := by
  have hclean : (s0.clusters.foldl (fun s e =>
      if e.2.parties.any fun p => p.2.par.ctx == ctx then s.cleanCtx e.1 ctx else s) s0).Canon := by
    refine State.foldl_canon h fun t e ht => ?_
    split
    · exact State.cleanCtx_canon ht
    · exact ht
  unfold State.endCtxWork
  exact State.dropXlt_canon (State.dropCollectives_canon (by simpa using hclean))

@[simp] theorem State.ctxFail_canon {ctx code : Nat} {i : ErrInfo} {known : Option Nat} (h : s.Canon) : (State.ctxFail
    s ctx code i known).Canon := by
  unfold State.ctxFail
  grind [State.Canon, State.satRf_canon, State.errRecord_canon, State.setReg_canon, State.failQueues_canon,
    State.wrapRf_canon, State.abortJob_canon, State.endCtxWork_canon]

@[simp] theorem State.ropeFault_canon {c slot ctx : Nat} {pc : Word} {code addr addrKind : Nat} (h : s.Canon) :
    (State.ropeFault s c slot ctx pc code addr addrKind).Canon := by
  simp [State.ropeFault, h]

@[simp] theorem State.engineFault_canon {c unit ctx code addr addrKind : Nat} (h : s.Canon) : (State.engineFault s c
    unit ctx code addr addrKind).Canon := by
  simp [State.engineFault, h]

@[simp] theorem State.retirePending_canon (h : s.Canon) : (State.retirePending s).Canon := by
  simp [State.retirePending, h]

@[simp] theorem State.showSpares_canon (h : s.Canon) : (State.showSpares s).Canon :=
  State.foldl_canon h fun _ _ ht => by simp [ht]

@[simp] theorem State.writeEntryTries_canon {n d entry : Nat} {s : State} (h : s.Canon) :
    (s.writeEntryTries n d entry).Canon := by
  induction n generalizing s with
  | zero => simp [State.writeEntryTries, h]
  | succ n ih =>
    unfold State.writeEntryTries
    grind [State.Canon, State.setRf_canon, State.showSpares_canon]

@[simp] theorem State.writeEntry_canon {d phys reason : Nat} (h : s.Canon) : (State.writeEntry s d phys reason).Canon
    := by
  simp [State.writeEntry, h]

@[simp] theorem State.clusterFail_canon {c code : Nat} {also : List Nat} (h : s.Canon) : (State.clusterFail s c code
    also).Canon := by
  unfold State.clusterFail
  split
  · exact h
  · refine State.foldl_canon (State.writeEntry_canon (State.retirePending_canon ?_)) fun _ _ => State.ctxFail_canon
    simpa using State.errRecord_canon h

@[simp] theorem State.clusterCe_canon {c : Nat} (h : s.Canon) : (State.clusterCe s c).Canon := by
  simp [State.clusterCe, h]

@[simp] theorem State.ctxLost_canon {ctx code : Nat} (h : s.Canon) : (State.ctxLost s ctx code).Canon := by
  simp [State.ctxLost, h]

@[simp] theorem State.packageFatal_canon {code whereCode : Nat} (h : s.Canon) : (State.packageFatal s code
    whereCode).Canon := by
  unfold State.packageFatal
  split
  · exact h
  · exact State.foldl_canon (State.msix_canon (by simp [h])) fun _ _ => State.ctxLost_canon

theorem State.admitFault_canon {s t : State} {x : HeldFault} (h : s.Canon) (ht : s.admitFault x = some t) :
    t.Canon := by
  unfold State.admitFault at ht
  grind [State.Canon, State.setReg_canon]

@[simp] theorem State.xltFault_canon {h₀ : HeldFault} (h : s.Canon) : (State.xltFault s h₀).Canon := by
  unfold State.xltFault
  split
  next heq => exact State.admitFault_canon h heq
  next =>
    split
    · exact h
    · exact State.satRf_canon.mpr h

@[simp] theorem State.resumeAgents_canon {ctx block : Nat} (h : s.Canon) : (State.resumeAgents s ctx block).Canon := by
  simp [State.resumeAgents, h]

/-! ### Trace records and how a source produces one -/

@[simp] theorem State.setTraceQueue_canon {key : Nat} {l : List (BitVec 256)} : (State.setTraceQueue s key l).Canon ↔
    s.Canon := by
  rw [State.Canon, State.setTraceQueue_mem, State.canon_iff]

@[simp] theorem State.traceSeq_canon {key ctx : Nat} (h : s.Canon) : (State.traceSeq s key ctx).1.Canon := by
  simp [State.traceSeq, h]

@[simp] theorem State.tracePut_canon {f : TraceFrom} {unit ctx kind marker payload : Nat} (h : s.Canon) :
    (State.tracePut s f unit ctx kind marker payload).Canon := by
  simp [State.tracePut, h]

@[simp] theorem State.traceDrop_canon {key ctx : Nat} (h : s.Canon) : (State.traceDrop s key ctx).Canon := by
  simp [State.traceDrop, h]

@[simp] theorem State.traceLost_canon {f : TraceFrom} {unit : Nat} (h : s.Canon) : (State.traceLost s f unit).Canon := by
  simp [State.traceLost, h]

theorem State.trace_canon {s t : State} {f : TraceFrom} {unit ctx kind marker payload : Nat} (h : s.Canon)
    (ht : s.trace f unit ctx kind marker payload = some t) : t.Canon := by
  unfold State.trace at ht
  grind [State.Canon, State.traceLost_canon, State.tracePut_canon, State.traceSeq_canon, State.traceDrop_canon]

@[simp] theorem State.traceNow_canon {f : TraceFrom} {unit ctx kind marker payload : Nat} (h : s.Canon) :
    (State.traceNow s f unit ctx kind marker payload).Canon := by
  unfold State.traceNow
  cases ht : s.trace f unit ctx kind marker payload with
  | none => exact h
  | some t => exact State.trace_canon h ht

@[simp] theorem State.traceRopes_canon {c : Nat} {slots : List Nat} {ctx kind marker payload : Nat} (h : s.Canon) :
    (State.traceRopes s c slots ctx kind marker payload).Canon :=
  State.foldl_canon h fun _ _ => State.traceNow_canon

/-! ### Operand forms of cluster instructions -/

@[simp] theorem State.putRope_canon {k : IssueCtx} {r : Rope} (h : s.Canon) : (State.putRope s k r).Canon := by
  simp [State.putRope, h]

@[simp] theorem State.finish_canon {k : IssueCtx} {r : Rope} : (State.finish s k r).Canon ↔ s.Canon := by
  rw [State.Canon, State.finish_mem, State.canon_iff]

@[simp] theorem State.fail_canon {k : IssueCtx} {code : Nat} (h : s.Canon) : (State.fail s k code).Canon := by
  simp [State.fail, h]

@[simp] theorem State.failAt_canon {k : IssueCtx} {code addr kind : Nat} (h : s.Canon) : (State.failAt s k code addr
    kind).Canon := by
  simp [State.failAt, h]

theorem issueWait_canon {i : Issue} {g : Guard} {ck : Checks} {s : State} {body : State → IssueCtx → State × Bool}
    (h : s.Canon) (hbody : ∀ s k, s.Canon → (body s k).1.Canon) :
    nextCanon (issueWait i g ck s body) := by
  unfold issueWait
  split
  · simp [h]
  · split
    · simp [h]
    · dsimp only
      repeat' split
      all_goals simp [h, hbody]

theorem issue_canon {i : Issue} {g : Guard} {ck : Checks} {s : State} {body : State → IssueCtx → State}
    (h : s.Canon) (hbody : ∀ s k, s.Canon → (body s k).Canon) :
    nextCanon (issue i g ck s body) := issueWait_canon h hbody

theorem issueMem_canon {i : Issue} {g : Guard} {ck : Checks} {s : State} {body : State → IssueCtx → State}
    (h : s.Canon) (hbody : ∀ s k, s.Canon → (body s k).Canon) :
    nextCanon (issueMem i g ck s body) := issueWait_canon h hbody

/-! ### The cluster L1, local store and host aperture as a rope's or an engine's accesses meet them -/

@[simp] theorem State.frameFault_canon {ctx line : Nat} (h : s.Canon) : (State.frameFault s ctx line).Canon := by
  simp [State.frameFault, h]

@[simp] theorem State.l1Clean_canon {c : Nat} {l : L1Line} (h : s.Canon) : (State.l1Clean s c l).Canon := by
  unfold State.l1Clean
  grind [State.Canon, State.setCluster_canon, State.homeWrite_canon, State.frameFault_canon]

@[simp] theorem State.l1CleanAll_canon {c ctx : Nat} (h : s.Canon) : (State.l1CleanAll s c ctx).Canon := by
  unfold State.l1CleanAll
  exact State.countCl_canon.mpr (State.foldl_canon h fun _ _ => State.l1Clean_canon)

@[simp] theorem State.l1InvAll_canon {c : Nat} (h : s.Canon) : (State.l1InvAll s c).Canon := by
  simp [State.l1InvAll, h]

@[simp] theorem State.releaseAt_canon {c ctx scope : Nat} (h : s.Canon) : (State.releaseAt s c ctx scope).Canon := by
  simp [State.releaseAt, h]

@[simp] theorem State.acquireAt_canon {c ctx scope : Nat} (h : s.Canon) : (State.acquireAt s c ctx scope).Canon := by
  unfold State.acquireAt
  split <;> simp [h]

@[simp] theorem State.l1Read_canon {c ctx line pa : Nat} {alloc : Bool} (h : s.Canon) : (State.l1Read s c ctx line pa
    alloc).1.Canon := by
  unfold State.l1Read
  grind [State.Canon, State.homeFetch_canon, State.countCl_canon, State.setCluster_canon]

@[simp] theorem State.l1Write_canon {c ctx line pa : Nat} {d : Line} {mask : BitVec 128} {alloc : Bool} (h : s.Canon)
    : (State.l1Write s c ctx line pa d mask alloc).Canon := by
  unfold State.l1Write
  grind [State.Canon, State.setCluster_canon, State.homeWrite_canon, State.frameFault_canon]

@[simp] theorem State.l1Push_canon {c ctx line : Nat} (h : s.Canon) : (State.l1Push s c ctx line).Canon := by
  unfold State.l1Push
  split <;> simp [h]

@[simp] theorem State.engineRead_canon {c ctx line pa : Nat} (h : s.Canon) : (State.engineRead s c ctx line
    pa).1.Canon := by
  unfold State.engineRead
  split <;> simp [h]

@[simp] theorem State.engineWrite_canon {c ctx line pa : Nat} {d : Line} {mask : BitVec 128} (h : s.Canon) :
    (State.engineWrite s c ctx line pa d mask).1.Canon := by
  simp [State.engineWrite, h]

@[simp] theorem State.xlatAll_canon {id : RcId} {ctx : Nat} {n : Need} {addrs : List Nat} (h : s.Canon) :
    (State.xlatAll s id ctx n addrs).1.Canon := by
  refine State.foldl_fst_canon h fun r a hr => ?_
  have ht := State.translate_canon (id := id) (ctx := ctx) (va := a) (n := n) hr
  grind [State.Canon]

/-! ### Vector integer instructions -/

@[simp] theorem vectorBin_canon {i : Issue} {f : VFmt} {op : Nat → Nat → Nat → Nat} (h : s.Canon) : nextCanon
    (vectorBin i f op s) := by
  unfold vectorBin
  grind [State.Canon, issue_canon, State.finish_canon]

@[simp] theorem execVadd_canon {i : Issue} {f : VFmt} (h : s.Canon) : nextCanon (execVadd i f s) := by
  simp [execVadd, h]

@[simp] theorem execVsub_canon {i : Issue} {f : VFmt} (h : s.Canon) : nextCanon (execVsub i f s) := by
  simp [execVsub, h]

@[simp] theorem execVmul_canon {i : Issue} {f : VFmt} (h : s.Canon) : nextCanon (execVmul i f s) := by
  simp [execVmul, h]

@[simp] theorem execVmulh_canon {i : Issue} {f : VFmt} (h : s.Canon) : nextCanon (execVmulh i f s) := by
  simp [execVmulh, h]

@[simp] theorem execVand_canon {i : Issue} {f : VFmt} (h : s.Canon) : nextCanon (execVand i f s) := by
  simp [execVand, h]

@[simp] theorem execVor_canon {i : Issue} {f : VFmt} (h : s.Canon) : nextCanon (execVor i f s) := by
  simp [execVor, h]

@[simp] theorem execVxor_canon {i : Issue} {f : VFmt} (h : s.Canon) : nextCanon (execVxor i f s) := by
  simp [execVxor, h]

@[simp] theorem execVshl_canon {i : Issue} {f : VFmt} (h : s.Canon) : nextCanon (execVshl i f s) := by
  simp [execVshl, h]

@[simp] theorem execVshr_canon {i : Issue} {f : VFmt} (h : s.Canon) : nextCanon (execVshr i f s) := by
  simp [execVshr, h]

@[simp] theorem execVsar_canon {i : Issue} {f : VFmt} (h : s.Canon) : nextCanon (execVsar i f s) := by
  simp [execVsar, h]

@[simp] theorem execVmin_canon {i : Issue} {f : VFmt} (h : s.Canon) : nextCanon (execVmin i f s) := by
  simp [execVmin, h]

@[simp] theorem execVmax_canon {i : Issue} {f : VFmt} (h : s.Canon) : nextCanon (execVmax i f s) := by
  simp [execVmax, h]

@[simp] theorem execVsel_canon {i : Issue} {f : VFmt} (h : s.Canon) : nextCanon (execVsel i f s) := by
  unfold execVsel
  grind [State.Canon, issue_canon, State.finish_canon]

@[simp] theorem execVcmp_canon {i : Issue} {f : VFmt} (h : s.Canon) : nextCanon (execVcmp i f s) := by
  unfold execVcmp
  grind [State.Canon, issue_canon, State.finish_canon]

@[simp] theorem vectorUn_canon {i : Issue} {f : VFmt} {op : Nat → Nat} (h : s.Canon) : nextCanon (vectorUn i f op s)
    := by
  unfold vectorUn
  grind [State.Canon, issue_canon, State.finish_canon]

@[simp] theorem execVmov_canon {i : Issue} {f : VFmt} (h : s.Canon) : nextCanon (execVmov i f s) := by
  simp [execVmov, h]

@[simp] theorem execVpopc_canon {i : Issue} {f : VFmt} (h : s.Canon) : nextCanon (execVpopc i f s) := by
  simp [execVpopc, h]

@[simp] theorem execVmovi_canon {i : Issue} {f : IFmt} (h : s.Canon) : nextCanon (execVmovi i f s) := by
  unfold execVmovi
  grind [State.Canon, issue_canon, State.finish_canon]

@[simp] theorem execVaddi_canon {i : Issue} {f : IFmt} (h : s.Canon) : nextCanon (execVaddi i f s) := by
  unfold execVaddi
  grind [State.Canon, issue_canon, State.finish_canon]

/-! ### Vector floating-point instructions, conversion, shuffle and reduction -/

@[simp] theorem floatOp_canon {i : Issue} {f : VFmt} {hi modMask : Nat} {two three : Bool} {op : Nat → Nat → Nat → Nat
    → Nat → Nat} (h : s.Canon) : nextCanon (floatOp i f hi modMask two three op s) := by
  unfold floatOp
  grind [State.Canon, issue_canon, State.finish_canon]

@[simp] theorem execVfadd_canon {i : Issue} {f : VFmt} (h : s.Canon) : nextCanon (execVfadd i f s) := by
  simp [execVfadd, h]

@[simp] theorem execVfsub_canon {i : Issue} {f : VFmt} (h : s.Canon) : nextCanon (execVfsub i f s) := by
  simp [execVfsub, h]

@[simp] theorem execVfmul_canon {i : Issue} {f : VFmt} (h : s.Canon) : nextCanon (execVfmul i f s) := by
  simp [execVfmul, h]

@[simp] theorem execVfma_canon {i : Issue} {f : VFmt} (h : s.Canon) : nextCanon (execVfma i f s) := by
  simp [execVfma, h]

@[simp] theorem execVfmin_canon {i : Issue} {f : VFmt} (h : s.Canon) : nextCanon (execVfmin i f s) := by
  simp [execVfmin, h]

@[simp] theorem execVfmax_canon {i : Issue} {f : VFmt} (h : s.Canon) : nextCanon (execVfmax i f s) := by
  simp [execVfmax, h]

@[simp] theorem execVfcmp_canon {i : Issue} {f : VFmt} (h : s.Canon) : nextCanon (execVfcmp i f s) := by
  unfold execVfcmp
  grind [State.Canon, issue_canon, State.finish_canon]

@[simp] theorem execVfdiv_canon {i : Issue} {f : VFmt} (h : s.Canon) : nextCanon (execVfdiv i f s) := by
  simp [execVfdiv, h]

@[simp] theorem execVfsqrt_canon {i : Issue} {f : VFmt} (h : s.Canon) : nextCanon (execVfsqrt i f s) := by
  simp [execVfsqrt, h]

@[simp] theorem execVfrcp_canon {i : Issue} {f : VFmt} (h : s.Canon) : nextCanon (execVfrcp i f s) := by
  simp [execVfrcp, h]

@[simp] theorem execVfrsq_canon {i : Issue} {f : VFmt} (h : s.Canon) : nextCanon (execVfrsq i f s) := by
  simp [execVfrsq, h]

@[simp] theorem execVfexp2_canon {i : Issue} {f : VFmt} (h : s.Canon) : nextCanon (execVfexp2 i f s) := by
  simp [execVfexp2, h]

@[simp] theorem execVflog2_canon {i : Issue} {f : VFmt} (h : s.Canon) : nextCanon (execVflog2 i f s) := by
  simp [execVflog2, h]

@[simp] theorem execVcvt_canon {i : Issue} {f : VFmt} (h : s.Canon) : nextCanon (execVcvt i f s) := by
  unfold execVcvt
  grind [State.Canon, issue_canon, State.finish_canon]

@[simp] theorem execVshfl_canon {i : Issue} {f : VFmt} (h : s.Canon) : nextCanon (execVshfl i f s) := by
  unfold execVshfl
  grind [State.Canon, issue_canon, State.finish_canon]

@[simp] theorem execVred_canon {i : Issue} {f : VFmt} (h : s.Canon) : nextCanon (execVred i f s) := by
  unfold execVred
  grind [State.Canon, issue_canon, State.finish_canon]

/-! ### Memory instructions of a rope -/

@[simp] theorem State.countSectors_canon {k : IssueCtx} {accs : List (Nat × Nat)} {n : Nat} (h : s.Canon) :
    (State.countSectors s k accs n).Canon := by
  simp [State.countSectors, h]

@[simp] theorem State.stallRope_canon {k : IssueCtx} {cause entry va : Nat} {n : Need} (h : s.Canon) :
    (State.stallRope s k cause entry va n).Canon := by
  unfold State.stallRope
  dsimp only
  split <;> simp [h]

@[simp] theorem State.ropeXlat_canon {k : IssueCtx} {need : Need} {accs : List (Nat × Nat)} {n : Nat} (h : s.Canon) :
    (State.ropeXlat s k need accs n).1.Canon := by
  unfold State.ropeXlat
  grind [State.Canon, State.failAt_canon, State.xlatAll_canon, State.stallRope_canon]

@[simp] theorem State.ropeLines_canon {k : IssueCtx} {home alloc : Bool} {host : Option HostAnswer} {ls : List (Nat ×
    Xlat)} (h : s.Canon) : (State.ropeLines s k home alloc host ls).1.Canon := by
  refine State.foldl_fst_canon h fun r x hr => ?_
  grind [State.Canon, State.l1Push_canon, State.homeFetch_canon, State.l1Read_canon, State.frameFault_canon]

@[simp] theorem State.ropePoison_canon {k : IssueCtx} {va : Nat} (h : s.Canon) : (State.ropePoison s k va).Canon := by
  simp [State.ropePoison, h]

@[simp] theorem State.ropeRead_canon {k : IssueCtx} {need : Need} {home alloc : Bool} {host : Option HostAnswer} {accs
    : List (Nat × Nat)} {n : Nat} (h : s.Canon) : (State.ropeRead s k need home alloc host accs n).1.Canon := by
  unfold State.ropeRead
  grind [State.Canon, State.ropeXlat_canon, State.ropeLines_canon, State.ropePoison_canon]

@[simp] theorem State.ropeWriteLines_canon {k : IssueCtx} {home alloc : Bool} {ls : List (Nat × Xlat)} {ws : Table
    (Line × BitVec 128)} (h : s.Canon) : (State.ropeWriteLines s k home alloc ls ws).Canon := by
  refine State.foldl_canon h fun t w ht => ?_
  grind [State.Canon, State.l1Push_canon, State.homeWrite_canon, State.frameFault_canon, State.l1Write_canon, State.hostWrite_canon]

@[simp] theorem State.readSectors_canon {l : List Nat} (h : s.Canon) : (State.readSectors s l).Canon :=
  State.foldl_canon h fun _ _ => State.hostRead_canon

@[simp] theorem State.waitAperture_canon {k : IssueCtx} {cvt : Bool} {f : MFmt} {sectors : List Nat} (h : s.Canon) :
    (State.waitAperture s k cvt f sectors).Canon := by
  simp [State.waitAperture, h]

@[simp] theorem State.countDown_canon {k : IssueCtx} {host : Option HostAnswer} {sectors : List Nat} (h : s.Canon) :
    (State.countDown s k host sectors).Canon :=
  State.foldl_canon h fun _ _ => State.apertureFail_canon

@[simp] theorem State.ropeLoadVals_canon {k : IssueCtx} {cvt : Bool} {f : MFmt} {host : Option HostAnswer} {accs :
    List (Nat × Nat)} {n : Nat} (h : s.Canon) : (State.ropeLoadVals s k cvt f host accs n).1.Canon := by
  unfold State.ropeLoadVals
  grind [State.Canon, State.ropeXlat_canon, State.waitAperture_canon, State.ropeLines_canon, State.countDown_canon,
    State.ropePoison_canon]

@[simp] theorem State.ropeLd_canon {k : IssueCtx} {f : MFmt} {host : Option HostAnswer} (h : s.Canon) : (State.ropeLd
    s k f host).Canon := by
  unfold State.ropeLd
  grind [State.Canon, State.finish_canon, State.countSectors_canon, State.fail_canon, State.ropeLoadVals_canon]

@[simp] theorem execLd_canon {i : Issue} {f : MFmt} (h : s.Canon) : nextCanon (execLd i f s) := by
  unfold execLd
  grind [State.Canon, issueMem_canon, State.ropeLd_canon]

@[simp] theorem execSt_canon {i : Issue} {f : MFmt} (h : s.Canon) : nextCanon (execSt i f s) := by
  unfold execSt
  grind [State.Canon, issueMem_canon, State.finish_canon, State.fail_canon, State.countSectors_canon,
    State.setParty_canon, State.ropeXlat_canon, State.ropeWriteLines_canon]

theorem State.ropeRmw_canon {s : State} {k : IssueCtx} {f : MFmt} {accs : List (Nat × Nat)} {n : Nat} {home : Bool}
    {upd : (Nat → Nat) → Table Nat × List (Nat × Nat)} {fin : State → List (Nat × Nat) → State}
    (h : s.Canon) (hfin : ∀ s l, s.Canon → (fin s l).Canon) :
    (s.ropeRmw k f accs n home upd fin).Canon := by
  unfold State.ropeRmw
  split
  · split
    · exact State.fail_canon h
    · exact hfin _ _ (by simp [h])
  · have hr := State.ropeRead_canon (k := k) (need := needAtomic) (home := home) (alloc := f.ch == 0) (host := none)
      (accs := accs) (n := n) h
    split
    next heq => rwa [heq] at hr
    next heq =>
      rw [heq] at hr
      exact hfin _ _ (by simp [hr])

@[simp] theorem atomOp_canon {i : Issue} {f : MFmt} {ret : Bool} (h : s.Canon) : nextCanon (atomOp i f ret s) := by
  unfold atomOp
  grind [State.Canon, issueMem_canon, State.finish_canon, State.fail_canon, State.ropeRmw_canon]

@[simp] theorem execAtom_canon {i : Issue} {f : MFmt} (h : s.Canon) : nextCanon (execAtom i f s) := by
  simp [execAtom, h]

@[simp] theorem execRed_canon {i : Issue} {f : MFmt} (h : s.Canon) : nextCanon (execRed i f s) := by
  simp [execRed, h]

@[simp] theorem execTallyAdd_canon {i : Issue} {f : MFmt} (h : s.Canon) : nextCanon (execTallyAdd i f s) := by
  unfold execTallyAdd
  grind [State.Canon, issueMem_canon, State.finish_canon, State.fail_canon, State.ropeRmw_canon, State.setParty_canon]

@[simp] theorem State.ropeTallyCvt_canon {k : IssueCtx} {f : MFmt} {host : Option HostAnswer} (h : s.Canon) :
    (State.ropeTallyCvt s k f host).Canon := by
  unfold State.ropeTallyCvt
  grind [State.Canon, State.finish_canon, State.countSectors_canon, State.fail_canon, State.ropeLoadVals_canon]

@[simp] theorem execTallyCvt_canon {i : Issue} {f : MFmt} (h : s.Canon) : nextCanon (execTallyCvt i f s) := by
  unfold execTallyCvt
  grind [State.Canon, issueMem_canon, State.ropeTallyCvt_canon]

@[simp] theorem execTallyFlags_canon {i : Issue} {f : MFmt} (h : s.Canon) : nextCanon (execTallyFlags i f s) := by
  unfold execTallyFlags
  grind [State.Canon, issue_canon, State.setParty_canon, State.finish_canon]

@[simp] theorem State.spin_canon {k : IssueCtx} {f : MFmt} {rest : Mask} {host : Option HostAnswer} (h : s.Canon) :
    (State.spin s k f rest host).Canon := by
  unfold State.spin
  grind [State.Canon, State.countSectors_canon, State.finish_canon, State.putRope_canon, State.fail_canon,
    State.ropeXlat_canon, State.acquireAt_canon, State.readSectors_canon, State.ropeLines_canon,
    State.countDown_canon, State.ropePoison_canon]

@[simp] theorem execSpinwait_canon {i : Issue} {f : MFmt} (h : s.Canon) : nextCanon (execSpinwait i f s) := by
  unfold execSpinwait
  grind [State.Canon, issueMem_canon, State.spin_canon]

@[simp] theorem execSpinwaitReread_canon {c slot : Nat} {host : HostAnswer} (h : s.Canon) : nextCanon
    (execSpinwaitReread c slot host s) := by
  unfold execSpinwaitReread
  repeat' split
  all_goals simp [h]

@[simp] theorem State.lockPass_canon {k : IssueCtx} {f : MFmt} {r : Rope} {e : Mask} (h : s.Canon) : (State.lockPass s
    k f r e).Canon := by
  unfold State.lockPass
  grind [State.Canon, State.ropeRmw_canon, State.putRope_canon, State.finish_canon]

@[simp] theorem execGlock_canon {i : Issue} {f : MFmt} (h : s.Canon) : nextCanon (execGlock i f s) := by
  unfold execGlock
  grind [State.Canon, issueMem_canon, State.fail_canon, State.lockPass_canon, State.putRope_canon]

@[simp] theorem execGlockPass_canon {c slot : Nat} (h : s.Canon) : nextCanon (execGlockPass c slot s) := by
  unfold execGlockPass
  repeat' split
  all_goals simp [h]

@[simp] theorem execGunlock_canon {i : Issue} {f : MFmt} (h : s.Canon) : nextCanon (execGunlock i f s) := by
  unfold execGunlock
  grind [State.Canon, issueMem_canon, State.finish_canon, State.fail_canon, State.countSectors_canon,
    State.setParty_canon, State.ropeRead_canon, State.ropeWriteLines_canon]

@[simp] theorem State.countWide_canon {k : IssueCtx} {scope : Nat} (h : s.Canon) : (State.countWide s k scope).Canon
    := by
  simp [State.countWide, h]

@[simp] theorem execFence_canon {i : Issue} {f : MFmt} (h : s.Canon) : nextCanon (execFence i f s) := by
  unfold execFence
  grind [State.Canon, issue_canon, State.finish_canon, State.countWide_canon, State.releaseAt_canon,
    State.acquireAt_canon]

/-! ### The bell unit, the fields and ends of fetched commands, and the bell instructions -/

@[simp] theorem State.setCmd_canon {n idx : Nat} {st : CmdState} (h : s.Canon) : (State.setCmd s n idx st).Canon := by
  simp [State.setCmd, h]

@[simp] theorem State.endCmd_canon {n idx status result detail : Nat} (h : s.Canon) : (State.endCmd s n idx status
    result detail).Canon := by
  unfold State.endCmd
  split <;> simp [h]

@[simp] theorem State.lastBell_canon {b : Nat} (h : s.Canon) : (State.lastBell s b).Canon := by
  simp [State.lastBell, h]

@[simp] theorem State.bellRefuse_canon {c slot ctx : Nat} {pc : Word} {b : Nat} (h : s.Canon) : (State.bellRefuse s c
    slot ctx pc b).Canon := by
  simp [State.bellRefuse, h]

@[simp] theorem State.wakeRope_canon {c slot : Nat} {r : Rope} {scope : Nat} (h : s.Canon) : (State.wakeRope s c slot
    r scope).Canon := by
  simp [State.wakeRope, h]

@[simp] theorem State.bellWake_canon {b : Nat} (h : s.Canon) : (State.bellWake s b).Canon := by
  refine State.foldl_canon (State.foldl_canon h fun t e ht => ?_) fun t e ht => State.foldl_canon ht fun u c hu => ?_
  · split <;> simp [ht]
  · repeat' split
    all_goals simp [hu]

@[simp] theorem State.bellAdd_canon {b : Nat} {inc : Word} {ctx : Nat} (h : s.Canon) : (State.bellAdd s b inc
    ctx).Canon := by
  simp [State.bellAdd, h]

@[simp] theorem State.bellRemote_canon {b : Nat} {inc : Word} (h : s.Canon) : (State.bellRemote s b inc).Canon := by
  simp [State.bellRemote, h]

@[simp] theorem State.bellHostSignal_canon {m : Master} {b : Nat} {inc : Word} (h : s.Canon) : (State.bellHostSignal s
    m b inc).Canon := by
  simp [State.bellHostSignal, h]

@[simp] theorem State.bellOwnerWrite_canon {b : Nat} {v : Word} (h : s.Canon) : (State.bellOwnerWrite s b v).Canon := by
  refine State.foldl_canon (State.foldl_canon (by simp [h]) fun t e ht => ?_) fun t e ht =>
    State.foldl_canon ht fun u c hu => ?_
  · repeat' split
    all_goals simp [ht]
  · repeat' split
    all_goals simp [hu]

@[simp] theorem execBellSig_canon {i : Issue} {f : VFmt} (h : s.Canon) : nextCanon (execBellSig i f s) := by
  unfold execBellSig
  grind [State.Canon, issue_canon, State.fail_canon, State.releaseAt_canon, State.countWide_canon,
    State.bellRefuse_canon, State.bellAdd_canon, State.finish_canon]

@[simp] theorem execBellWait_canon {i : Issue} {f : VFmt} (h : s.Canon) : nextCanon (execBellWait i f s) := by
  unfold execBellWait
  grind [State.Canon, issue_canon, State.countWide_canon, State.fail_canon, State.bellRefuse_canon,
    State.countPkg_canon, State.acquireAt_canon, State.finish_canon, State.putRope_canon]

@[simp] theorem execBellRead_canon {i : Issue} {f : VFmt} (h : s.Canon) : nextCanon (execBellRead i f s) := by
  unfold execBellRead
  grind [State.Canon, issue_canon, State.fail_canon, State.bellRefuse_canon, State.finish_canon, State.countPkg_canon]

@[simp] theorem execBellXchg_canon {i : Issue} {f : VFmt} (h : s.Canon) : nextCanon (execBellXchg i f s) := by
  unfold execBellXchg
  grind [State.Canon, issue_canon, State.fail_canon, State.bellRefuse_canon, State.finish_canon, State.countPkg_canon,
    State.bellWake_canon, State.setReg_canon]

@[simp] theorem execRegisterSignal_canon {m : Master} {b : Nat} {v : Word} (h : s.Canon) : nextCanon
    (execRegisterSignal m b v s) := by
  unfold execRegisterSignal
  split <;> simp [h]

@[simp] theorem execOwnerWrite_canon {m : Master} {b : Nat} {v : Word} (h : s.Canon) : nextCanon (execOwnerWrite m b v
    s) := by
  unfold execOwnerWrite
  split <;> simp [h]

/-! ### Control and token instructions, divergence and the end of ropes, livelock, and parties -/

@[simp] theorem execNop_canon {i : Issue} {f : CFmt} (h : s.Canon) : nextCanon (execNop i f s) := by
  unfold execNop
  grind [State.Canon, issue_canon, State.finish_canon]

@[simp] theorem execBra_canon {i : Issue} {f : CFmt} (h : s.Canon) : nextCanon (execBra i f s) := by
  unfold execBra
  grind [State.Canon, issue_canon, State.putRope_canon, State.fail_canon]

@[simp] theorem execCall_canon {i : Issue} {f : CFmt} (h : s.Canon) : nextCanon (execCall i f s) := by
  unfold execCall
  grind [State.Canon, issue_canon, State.fail_canon, State.putRope_canon]

@[simp] theorem execRet_canon {i : Issue} {f : CFmt} (h : s.Canon) : nextCanon (execRet i f s) := by
  unfold execRet
  grind [State.Canon, issue_canon, State.fail_canon, State.putRope_canon]

@[simp] theorem execExit_canon {i : Issue} {f : CFmt} (h : s.Canon) : nextCanon (execExit i f s) := by
  unfold execExit
  grind [State.Canon, issue_canon, State.putRope_canon, State.setCluster_canon]

@[simp] theorem execBar_canon {i : Issue} {f : CFmt} (h : s.Canon) : nextCanon (execBar i f s) := by
  unfold execBar
  grind [State.Canon, issue_canon, State.fail_canon, State.putRope_canon, State.setCluster_canon]

@[simp] theorem execTwait_canon {i : Issue} {f : VFmt} (h : s.Canon) : nextCanon (execTwait i f s) := by
  unfold execTwait
  grind [State.Canon, issue_canon, State.finish_canon, State.putRope_canon]

@[simp] theorem State.wakeTokens_canon {c party : Nat} (h : s.Canon) : (State.wakeTokens s c party).Canon := by
  unfold State.wakeTokens
  split
  · exact h
  · exact State.foldl_canon h fun _ _ => State.wakeRope_canon

@[simp] theorem State.signalToken_canon {c party t : Nat} (h : s.Canon) : (State.signalToken s c party t).Canon := by
  unfold State.signalToken
  split <;> simp [h]

@[simp] theorem execRopeLivelock_canon {c slot : Nat} (h : s.Canon) : nextCanon (execRopeLivelock c slot s) := by
  unfold execRopeLivelock
  repeat' split
  all_goals simp [h]

@[simp] theorem State.takeSplit_canon {c ctx split : Nat} (h : s.Canon) : (State.takeSplit s c ctx split).Canon := by
  unfold State.takeSplit
  split <;> simp [h]

@[simp] theorem execPartyLaunch_canon {c : Nat} (h : s.Canon) : nextCanon (execPartyLaunch c s) := by
  unfold execPartyLaunch
  split
  · exact nextCanon_next.mpr h
  · split
    · exact nextCanon_next.mpr h
    · split
      · exact nextCanon_next.mpr (State.setCluster_canon.mpr h)
      · extract_lets k slots s0 s1 k1 n p ropes s2
        have hs1 : s1.Canon := State.acquireAt_canon (State.takeSplit_canon (by simp [s0, h]))
        repeat' split
        · exact nextCanon_next.mpr h
        · exact nextCanon_next.mpr hs1
        · exact nextCanon_next.mpr (State.traceRopes_canon (State.setCluster_canon.mpr hs1))

@[simp] theorem State.partyGone_canon {c l : Nat} (h : s.Canon) : (State.partyGone s c l).Canon := by
  unfold State.partyGone
  grind [State.Canon, State.releaseAt_canon, State.endCmd_canon]

@[simp] theorem execPartyEnd_canon {c n : Nat} (h : s.Canon) : nextCanon (execPartyEnd c n s) := by
  unfold execPartyEnd
  dsimp only
  repeat' split
  all_goals simp [h]

/-! ### The pod transport as a receiver and a sender -/

@[simp] theorem State.unitWrite_canon {ctx va : Nat} {bs : List Byte} {need : Need} (h : s.Canon) : (State.unitWrite s
    ctx va bs need).1.Canon := by
  unfold State.unitWrite
  have hx := State.xlatAll_canon (id := .square) (ctx := ctx) (n := need)
    (addrs := (splitLines (bs.length / 128 + 2) va bs).map fun l => max va (128 * l.1)) h
  dsimp only
  split
  next heq => rwa [heq] at hx
  next heq =>
    rw [heq] at hx
    refine State.foldl_fst_canon hx fun r l hr => ?_
    grind [State.Canon, State.homeWrite_canon, State.hostWrite_canon]

@[simp] theorem State.freeLine_canon (h : s.Canon) : (State.freeLine s).1.Canon :=
  State.foldl_fst_canon h fun _ _ => State.freshWord_canon

@[simp] theorem State.unitRead_canon {ctx va n : Nat} {need : Need} (h : s.Canon) : (State.unitRead s ctx va n
    need).1.Canon := by
  unfold State.unitRead
  dsimp only
  split
  next heq => exact State.canon_of_fst (State.xlatAll_canon h) heq
  next heq =>
    refine State.foldl_fst_canon (State.canon_of_fst (State.xlatAll_canon h) heq) fun r a hr => ?_
    grind [State.Canon, State.homeFetch_canon, State.hostRead_canon, State.freshBit_canon, State.freeLine_canon, State.apertureFail_canon]

theorem State.arrive_canon {s : State} {f : Frame} {type : Nat} {act : State → State} (h : s.Canon)
    (hact : ∀ s, s.Canon → (act s).Canon) : (s.arrive f type act).Canon := by
  unfold State.arrive
  dsimp only
  repeat' split
  · exact h
  · simp [h]
  · exact hact _ (by simp [h])
  · exact h

@[simp] theorem State.refuse_canon {f : Frame} (h : s.Canon) : (State.refuse s f).Canon := by
  simp [State.refuse, h]

@[simp] theorem State.unbound_canon {f : Frame} (h : s.Canon) : (State.unbound s f).Canon := by
  simp [State.unbound, h]

theorem State.plain_canon {s : State} {f : Frame} {act : State → State} (h : s.Canon)
    (hact : ∀ s, s.Canon → (act s).Canon) : (s.plain f act).Canon := by
  unfold State.plain
  split
  · exact hact _ h
  · exact State.unbound_canon h

theorem State.sequenced_canon {s : State} {f : Frame} {act : State → Nat → State} (h : s.Canon)
    (hact : ∀ s n, s.Canon → (act s n).Canon) : (s.sequenced f act).Canon := by
  unfold State.sequenced
  dsimp only
  repeat' split
  all_goals simp [h, hact]

@[simp] theorem State.holdFrame_canon {f : Frame} {ctx cause entry va : Nat} {n : Need} (h : s.Canon) :
    (State.holdFrame s f ctx cause entry va n).Canon :=
  State.emitPlain_canon (State.xltFault_canon h)

@[simp] theorem State.dataWrite_canon {f : Frame} {ctx : Nat} (h : s.Canon) : (State.dataWrite s f ctx).1.Canon := by
  unfold State.dataWrite
  dsimp only
  split
  · have hw := State.unitWrite_canon (ctx := ctx) (va := f.va) (bs := takePad 0 f.len f.payload) (need := needWrite) h
    split
    · exact State.markRx_canon hw
    · exact hw
  next g _ =>
    repeat' split
    · exact State.markRx_canon (by simp [h])
    · exact State.markRx_canon h
    · exact State.markRx_canon (State.unitWrite_canon (State.foldl_canon h fun _ _ => State.l1Push_canon))
    · exact State.unitWrite_canon (State.foldl_canon h fun _ _ => State.l1Push_canon)

@[simp] theorem State.readAnswer_canon {f : Frame} {ctx : Nat} (h : s.Canon) : (State.readAnswer s f ctx).1.Canon := by
  unfold State.readAnswer
  grind [State.Canon, State.unitRead_canon, State.podSend_canon]

@[simp] theorem State.frameStop_canon {f : Frame} {ctx : Nat} {n : Need} {x : UAccess} (h : s.Canon) :
    (State.frameStop s f ctx n x).Canon := by
  unfold State.frameStop
  grind [State.Canon, State.holdFrame_canon, State.ctxFail_canon, State.refuse_canon, State.countConsumed_canon]

@[simp] theorem State.takeFrame_canon {f : Frame} {ctx : Nat} (h : s.Canon) : (State.takeFrame s f ctx).Canon := by
  unfold State.takeFrame
  split <;> simp [h]

@[simp] theorem execData_canon {f : Frame} (h : s.Canon) : nextCanon (execData f s) := by
  refine nextCanon_next.mpr (State.arrive_canon h fun t ht => ?_)
  repeat' split
  · exact h
  · simp [ht]
  · exact State.sequenced_canon ht fun _ _ => State.takeFrame_canon

@[simp] theorem execRead_canon {f : Frame} (h : s.Canon) : nextCanon (execRead f s) :=
    nextCanon_next.mpr (State.arrive_canon h fun _ ht => State.sequenced_canon ht fun _ _ => State.takeFrame_canon)

@[simp] theorem execBell_canon {f : Frame} (h : s.Canon) : nextCanon (execBell f s) := by
  refine nextCanon_next.mpr (State.arrive_canon h fun _ ht => State.sequenced_canon ht fun u _ hu => State.markRx_canon ?_)
  split <;> simp [hu]

@[simp] theorem State.refuseHeld_canon {ctx block : Nat} (h : s.Canon) : (State.refuseHeld s ctx block).Canon :=
  State.foldl_canon h fun _ _ => State.refuse_canon

@[simp] theorem State.retryFrames_canon {ctx block : Nat} (h : s.Canon) : (State.retryFrames s ctx block).Canon :=
  State.foldl_canon h fun _ _ => State.takeFrame_canon

@[simp] theorem State.sendBells_canon (h : s.Canon) : (State.sendBells s).Canon := by
  refine State.foldl_canon h fun t b ht => ?_
  dsimp only
  split
  · exact ht
  · exact State.podSend_canon ht

@[simp] theorem State.takeAck_canon {f : Frame} (h : s.Canon) : (State.takeAck s f).Canon := by
  unfold State.takeAck
  dsimp only
  split
  · exact h
  · exact State.flushAll_canon (State.sendBells_canon (State.foldl_canon (by simp [h]) fun _ _ => State.resend_canon))

@[simp] theorem execHold_canon {f : Frame} (h : s.Canon) : nextCanon (execHold f s) := by
  refine nextCanon_next.mpr (State.arrive_canon h fun _ ht => State.plain_canon ht fun u hu => ?_)
  split <;> simp [hu]

@[simp] theorem execAckTimer_canon {peer : Nat} (h : s.Canon) : nextCanon (execAckTimer peer s) := by
  unfold execAckTimer
  repeat' split
  all_goals simp [h]

@[simp] theorem execRtoResend_canon {peer psn : Nat} (h : s.Canon) : nextCanon (execRtoResend peer psn s) := by
  unfold execRtoResend
  repeat' split
  all_goals simp [h]

@[simp] theorem execPortMaskRestore_canon {peer port : Nat} (h : s.Canon) : nextCanon (execPortMaskRestore peer port
    s) := by
  unfold execPortMaskRestore
  repeat' split
  all_goals simp [h]

@[simp] theorem execPortUp_canon {port : Nat} (h : s.Canon) : nextCanon (execPortUp port s) := by
  unfold execPortUp
  split
  · exact nextCanon_next.mpr h
  · refine nextCanon_next.mpr (State.flushAll_canon (State.foldl_canon (by simp [h]) fun t e ht =>
      State.foldl_canon ht fun u x hu => ?_))
    split <;> simp [hu]

@[simp] theorem execPortDown_canon {port : Nat} (h : s.Canon) : nextCanon (execPortDown port s) := by
  unfold execPortDown
  split
  · exact nextCanon_next.mpr h
  · refine nextCanon_next.mpr (State.foldl_canon (by simp [h]) fun t e ht => State.foldl_canon ht fun u x hu => ?_)
    split <;> simp [hu]

@[simp] theorem State.bindingWrite_canon {n : Nat} {v : Word} (h : s.Canon) : (State.bindingWrite s n v).Canon := by
  simp [State.bindingWrite, h]

@[simp] theorem execBindingWrite_canon {_m : Master} {n : Nat} {v : Word} (h : s.Canon) : nextCanon (execBindingWrite
    _m n v s) := by
  unfold execBindingWrite
  split <;> simp [h]

@[simp] theorem State.steer_canon {off : Int} (h : s.Canon) : (State.steer s off).Canon := by
  unfold State.steer
  split <;> simp [h]

@[simp] theorem State.measured_canon {off : Int} (h : s.Canon) : (State.measured s off).Canon := by
  simp [State.measured, h]

@[simp] theorem State.ptpSend_canon {port : Nat} {kind : PtpKind} {seq time : Nat} (h : s.Canon) : (State.ptpSend s
    port kind seq time).Canon := by
  simp [State.ptpSend, h]

@[simp] theorem State.ptpNext_canon (h : s.Canon) : (State.ptpNext s).1.Canon := by
  simp [State.ptpNext, h]

@[simp] theorem State.chooseSource_canon {port : Nat} (h : s.Canon) : (State.chooseSource s port).Canon := by
  simp [State.chooseSource, h]

@[simp] theorem State.setExchange_canon {e : Option PtpExchange} (h : s.Canon) : (State.setExchange s e).Canon := by
  simp [State.setExchange, h]

@[simp] theorem execPtpMessage_canon {m : PtpMsg} (h : s.Canon) : nextCanon (execPtpMessage m s) := by
  cases m <;> unfold execPtpMessage <;> dsimp only <;> repeat' split
  all_goals grind [nextCanon_next, State.chooseSource_canon, State.setExchange_canon, State.ptpNext_canon,
    State.ptpSend_canon, State.measured_canon, State.steer_canon]

@[simp] theorem execPpsEdge_canon (h : s.Canon) : nextCanon (execPpsEdge s) := by
  unfold execPpsEdge
  repeat' split
  · exact nextCanon_next.mpr h
  · exact nextCanon_next.mpr h
  · exact nextCanon_next.mpr (State.steer_canon (State.measured_canon h))

@[simp] theorem execTimeSet_canon {_m : Master} {v : Word} (h : s.Canon) : nextCanon (execTimeSet _m v s) := by
  unfold execTimeSet
  split <;> simp [h]

/-! ### Collectives -/

@[simp] theorem State.setColl_canon {c : Coll} (h : s.Canon) : (State.setColl s c).Canon := by
  simp [State.setColl, h]

@[simp] theorem State.collStop_canon {c : Coll} {n : Need} {x : UAccess} (h : s.Canon) : (State.collStop s c n
    x).Canon := by
  unfold State.collStop
  split <;> simp [h]

@[simp] theorem State.sendValue_canon {c : Coll} {phase seg flags dest : Nat} {bs : List Byte} (h : s.Canon) :
    (State.sendValue s c phase seg flags dest bs).Canon :=
  State.foldl_canon (State.takeMsg_canon h) fun _ _ => State.podSend_canon

@[simp] theorem State.sendCredit_canon {c : Coll} {phase seg dest : Nat} (h : s.Canon) : (State.sendCredit s c phase
    seg dest).Canon := by
  simp [State.sendCredit, h]

@[simp] theorem State.waitCredit_canon {c : Coll} {phase seg dest : Nat} (h : s.Canon) : (State.waitCredit s c phase
    seg dest).1.Canon := by
  unfold State.waitCredit
  split <;> simp [h]

@[simp] theorem State.land_canon {c : Coll} {g : Seg} {xs : List Nat} (h : s.Canon) : (State.land s c g xs).1.Canon := by
  unfold State.land
  split <;> simp [h]

@[simp] theorem State.collUp_canon {c : Coll} {seed i : Nat} (h : s.Canon) : (State.collUp s c seed i).1.Canon := by
  unfold State.collUp
  extract_lets g cl dest phase held must w r v c1 w2 own c2
  have hr : r.1.Canon := by
    unfold r
    split
    · exact h
    · exact State.unitRead_canon h
  have hw : w2.1.Canon := State.land_canon hr
  repeat' split
  · exact h
  · exact State.waitCredit_canon h
  · exact State.sendValue_canon hr
  · exact hw
  · exact hw
  · exact State.collStop_canon hw
  · exact State.collStop_canon hr

@[simp] theorem State.collDown_canon {c : Coll} {i : Nat} (h : s.Canon) : (State.collDown s c i).1.Canon := by
  unfold State.collDown
  dsimp only
  repeat' split
  · exact h
  · exact h
  · exact h
  · refine State.foldl_fst_canon h fun r k hr => ?_
    repeat' split
    · exact hr
    · exact State.waitCredit_canon hr
    · exact State.sendValue_canon hr

@[simp] theorem State.collSeg_canon {c : Coll} {seed i : Nat} (h : s.Canon) : (State.collSeg s c seed i).1.Canon := by
  unfold State.collSeg
  dsimp only
  repeat' split
  · exact h
  · exact State.collUp_canon h
  · exact State.wrapRf_canon.mpr <| State.collDown_canon (State.collUp_canon h)
  · exact State.collDown_canon (State.collUp_canon h)

@[simp] theorem State.collGrant_canon {c : Coll} (h : s.Canon) : (State.collGrant s c).1.Canon := by
  refine State.foldl_fst_canon h fun r i hr => ?_
  split
  · exact hr
  · refine State.foldl_fst_canon hr fun r x hr => ?_
    dsimp only
    repeat' split
    · exact hr
    · exact State.sendCredit_canon hr
    · exact hr
    · exact State.sendCredit_canon hr

@[simp] theorem State.collClear_canon {c : Coll} (h : s.Canon) : (State.collClear s c).1.Canon := by
  refine State.foldl_fst_canon h fun r n hr => ?_
  split
  · exact State.unitWrite_canon hr
  · exact hr

@[simp] theorem State.collFinish_canon {c : Coll} (h : s.Canon) : (State.collFinish s c).Canon := by
  unfold State.collFinish
  grind [State.Canon, State.setColl_canon, State.collClear_canon, State.showColl_canon, State.endCmd_canon,
    State.bellAdd_canon, State.lastBell_canon, State.collStop_canon]

@[simp] theorem State.collRun_canon {ctx e : Nat} (h : s.Canon) : (State.collRun s ctx e).Canon := by
  unfold State.collRun
  split
  next c cx _ _ =>
    have hr : ((List.range c.segs.length).foldl (fun (r : State × Coll × Bool) i =>
        if r.2.2 then r.1.collSeg r.2.1 cx.seed i else r) (s, c, true)).1.Canon := by
      refine State.foldl_fst_canon h fun r i hr => ?_
      split
      · exact State.collSeg_canon hr
      · exact hr
    dsimp only
    repeat' split
    · exact h
    · exact State.setColl_canon hr
    · exact hr
    · exact State.collFinish_canon (State.collGrant_canon hr)
  next => exact h

@[simp] theorem State.collRunAll_canon (h : s.Canon) : (State.collRunAll s).Canon :=
  State.foldl_canon h fun _ _ => State.collRun_canon

@[simp] theorem State.collStart_canon {n ctx : Nat} {cx : Ctx} {k : Cmd} (h : s.Canon) : (State.collStart s n ctx cx
    k).1.Canon := by
  unfold State.collStart
  grind [State.Canon, State.endCmd_canon, State.collRun_canon, State.showColl_canon, State.setCmd_canon]

@[simp] theorem State.collMismatch_canon {c : Coll} {node : Nat} (h : s.Canon) : (State.collMismatch s c node).Canon
    := by
  simp [State.collMismatch, h]

@[simp] theorem State.takeRun_canon {f : Frame} {c : Coll} {v : CollVal} {i off : Nat} (h : s.Canon) : (State.takeRun
    s f c v i off).Canon := by
  unfold State.takeRun
  grind [State.Canon, State.unitWrite_canon, State.collRun_canon, State.markRx_canon, State.setColl_canon,
    State.collStop_canon]

@[simp] theorem execSegmentRun_canon {f : Frame} (h : s.Canon) : nextCanon (execSegmentRun f s) := by
  refine nextCanon_next.mpr (State.arrive_canon h fun t ht => ?_)
  split
  · exact h
  · refine State.sequenced_canon ht fun u ctx hu => ?_
    repeat' split
    all_goals simp [hu]

@[simp] theorem execCredit_canon {f : Frame} (h : s.Canon) : nextCanon (execCredit f s) := by
  refine nextCanon_next.mpr (State.arrive_canon h fun t ht => ?_)
  refine State.ite_canon h (State.sequenced_canon ht fun u ctx hu => ?_)
  extract_lets +onlyGivenNames rank k
  generalize hs : State.markRx _ f.src f.psn = v
  have hv : v.Canon := hs ▸ State.markRx_canon (State.canon_mk.mpr hu)
  extract_lets +onlyGivenNames w
  repeat' split
  · exact hv
  · exact hv
  · exact State.collMismatch_canon hv
  · exact State.collRun_canon hv

/-! ### Muster -/

@[simp] theorem State.musterStat_canon {ctx outcome reason rank : Nat} (h : s.Canon) : (State.musterStat s ctx outcome
    reason rank).Canon := by
  simp [State.musterStat, h]

@[simp] theorem State.musterAbort_canon {ctx reason rank : Nat} (h : s.Canon) : (State.musterAbort s ctx reason
    rank).Canon := by
  unfold State.musterAbort
  grind [State.Canon, State.ctxFail_canon, State.musterStat_canon, State.sendAborts_canon]

@[simp] theorem State.musterEnd_canon {ctx : Nat} (h : s.Canon) : (State.musterEnd s ctx).Canon := by
  unfold State.musterEnd
  grind [State.Canon, State.setMuster_canon, State.endCmd_canon]

@[simp] theorem State.sendReady_canon {ctx epoch : Nat} {digest : List Byte} (h : s.Canon) : (State.sendReady s ctx
    epoch digest).Canon :=
  State.foldl_canon h fun _ _ => State.musterSend_canon

@[simp] theorem State.answer_canon {ctx reason named acked : Nat} (h : s.Canon) : (State.answer s ctx reason named
    acked).Canon := by
  simp [State.answer, h]

@[simp] theorem State.answerOk_canon {ctx : Nat} (h : s.Canon) : (State.answerOk s ctx).Canon := by
  unfold State.answerOk
  split <;> simp [h]

@[simp] theorem State.holdReady_canon {ctx : Nat} (h : s.Canon) : (State.holdReady s ctx).Canon := by
  unfold State.holdReady
  grind [State.Canon, State.sendReady_canon, State.setMuster_canon, State.answer_canon, State.answerOk_canon]

@[simp] theorem State.musterStart_canon {n ctx : Nat} {k : Cmd} {digest : List Byte} (h : s.Canon) :
    (State.musterStart s n ctx k digest).Canon := by
  unfold State.musterStart
  dsimp only
  repeat' split
  · exact State.musterAbort_canon (State.setCmd_canon (by simp [h]))
  · exact State.sendReady_canon (State.setCmd_canon (by simp [h]))
  · exact State.holdReady_canon (State.setCmd_canon (by simp [h]))

theorem State.musterFrame_canon {s : State} {f : Frame} {mtype : Nat} {act : State → Nat → State} (h : s.Canon)
    (hact : ∀ s n, s.Canon → (act s n).Canon) : (s.musterFrame f mtype act).Canon := by
  refine State.arrive_canon h fun t ht => ?_
  split
  · exact h
  · refine State.sequenced_canon ht fun u n hu => ?_
    split
    · exact State.markRx_canon hu
    · exact hact _ _ hu

@[simp] theorem execReady_canon {f : Frame} (h : s.Canon) : nextCanon (execReady f s) := by
  refine nextCanon_next.mpr (State.musterFrame_canon h fun t ctx ht => ?_)
  dsimp only
  repeat' split
  all_goals simp [ht]

@[simp] theorem execMusterAck_canon {f : Frame} (h : s.Canon) : nextCanon (execMusterAck f s) := by
  refine nextCanon_next.mpr (State.musterFrame_canon h fun t ctx ht => ?_)
  extract_lets +onlyGivenNames s1 m r
  have hs1 : s1.Canon := State.markRx_canon ht
  clear_value s1
  split
  · exact hs1
  · refine State.ite_canon hs1 (State.ite_canon ?_ ?_)
    · refine State.ite_canon hs1 (State.ite_canon (State.musterAbort_canon hs1) ?_)
      refine State.ite_canon (State.musterAbort_canon hs1) (State.ite_canon ?_ (State.setMuster_canon.mpr hs1))
      exact State.foldl_canon (State.setMuster_canon.mpr hs1) fun _ _ => State.musterSend_canon
    · refine State.ite_canon hs1 (State.ite_canon (State.answer_canon hs1) ?_)
      exact State.answerOk_canon (State.setMuster_canon.mpr hs1)

@[simp] theorem execGo_canon {f : Frame} (h : s.Canon) : nextCanon (execGo f s) := by
  refine nextCanon_next.mpr (State.musterFrame_canon h fun t ctx ht => State.ite_canon ?_ (State.refuse_canon ht))
  exact State.musterStat_canon (State.musterEnd_canon (State.markRx_canon ht))

@[simp] theorem execAbort_canon {f : Frame} (h : s.Canon) : nextCanon (execAbort f s) := by
  refine nextCanon_next.mpr (State.musterFrame_canon h fun t ctx ht => State.ite_canon (State.markRx_canon ht) ?_)
  exact State.ctxFail_canon (State.musterStat_canon (State.markRx_canon ht))

@[simp] theorem execTimeout_canon {ctx : Nat} (h : s.Canon) : nextCanon (execTimeout ctx s) := by
  unfold execTimeout
  split <;> simp [h]

@[simp] theorem execReadyHoldExpiry_canon {ctx : Nat} (h : s.Canon) : nextCanon (execReadyHoldExpiry ctx s) := by
  unfold execReadyHoldExpiry
  split
  · exact nextCanon_next.mpr h
  · exact nextCanon_next.mpr (State.ctxFail_canon (State.musterStat_canon (State.freshWord_canon h)))

@[simp] theorem execPulse_canon {f : Option Frame} (h : s.Canon) : nextCanon (execPulse f s) := by
  unfold execPulse
  repeat' split
  · exact nextCanon_next.mpr (State.musterFrame_canon h fun _ _ => State.markRx_canon)
  · exact nextCanon_next.mpr h
  · refine nextCanon_next.mpr (State.foldl_canon h fun t e ht => ?_)
    dsimp only
    split
    · exact State.foldl_canon ht fun _ _ => State.musterSend_canon
    · exact ht

@[simp] theorem State.goDone_canon (h : s.Canon) : (State.goDone s).Canon := by
  refine State.foldl_canon h fun t e ht => ?_
  split <;> simp [ht]

@[simp] theorem execAck_canon {f : Frame} (h : s.Canon) : nextCanon (execAck f s) := by
  refine nextCanon_next.mpr (State.arrive_canon h fun _ ht => State.plain_canon ht fun u hu => ?_)
  exact State.goDone_canon (State.collRunAll_canon (State.takeAck_canon hu))

@[simp] theorem execRefuse_canon {f : Frame} (h : s.Canon) : nextCanon (execRefuse f s) := by
  refine nextCanon_next.mpr (State.arrive_canon h fun _ ht => State.plain_canon ht fun u hu => ?_)
  split
  · exact hu
  · refine State.ctxFail_canon (State.ite_canon ?_ hu)
    exact State.musterStat_canon (State.sendAborts_canon hu)

@[simp] theorem State.losePeer_canon {n : Nat} (h : s.Canon) : (State.losePeer s n).Canon :=
  State.foldl_canon (by simp [h]) fun _ _ => State.ctxFail_canon

@[simp] theorem execPeerLost_canon {peer : Nat} (h : s.Canon) : nextCanon (execPeerLost peer s) := by
  unfold execPeerLost
  repeat' split
  · exact nextCanon_next.mpr h
  · exact nextCanon_next.mpr h
  · refine nextCanon_next.mpr (State.losePeer_canon (State.foldl_canon h fun t e ht => ?_))
    split
    · exact State.musterStat_canon (State.sendAborts_canon ht)
    · exact ht

/-! ### The translation unit's commands -/

@[simp] theorem State.rcUpset_canon {id : RcId} {ctx va : Nat} {e : Ecc} (h : s.Canon) : (State.rcUpset s id ctx va
    e).Canon := by
  unfold State.rcUpset
  grind [State.Canon, State.satRf_canon, State.setRcache_canon]

@[simp] theorem State.stallAgent_canon {a : XltAgent} {x : Nat × Nat} (h : s.Canon) : (State.stallAgent s a x).Canon
    := by
  unfold State.stallAgent
  grind [State.Canon, State.setRope_canon, State.setCluster_canon, State.setQueue_canon]

@[simp] theorem execWalk_canon {a : XltAgent} {ctx va need : Nat} {upset : Ecc} (h : s.Canon) : nextCanon (execWalk a
    ctx va need upset s) := by
  unfold execWalk
  split
  · exact nextCanon_next.mpr h
  · have hw := State.translate_canon (id := a.cache) (ctx := ctx) (va := va) (n := needOf need)
      (State.rcUpset_canon (id := a.cache) (ctx := ctx) (va := va) (e := upset) h)
    split
    next heq => exact nextCanon_next.mpr (State.stallAgent_canon (State.xltFault_canon (State.canon_of_fst hw heq)))
    next heq => exact nextCanon_next.mpr (State.canon_of_fst hw heq)

@[simp] theorem State.startInv_canon {ctx : Nat} {all : Bool} {start len : Nat} {cmd : Option (Nat × Nat)} (h :
    s.Canon) : (State.startInv s ctx all start len cmd).Canon := by
  simp [State.startInv, h]

@[simp] theorem State.invWrite_canon {v : Word} (h : s.Canon) : (State.invWrite s v).Canon := by
  unfold State.invWrite
  split <;> simp [h]

@[simp] theorem execInvalidation_canon {m : Master} {v : Word} (h : s.Canon) : nextCanon (execInvalidation m v s) := by
  unfold execInvalidation
  split <;> simp [h]

@[simp] theorem State.drainL1_canon {c : Nat} {i : Invalidation} (h : s.Canon) : (State.drainL1 s c i).Canon := by
  unfold State.drainL1
  dsimp only
  exact State.setCluster_canon.mpr (State.countCl_canon.mpr (State.foldl_canon h fun _ _ => State.l1Clean_canon))

@[simp] theorem execDrain_canon {id : RcId} (h : s.Canon) : nextCanon (execDrain id s) := by
  unfold execDrain
  split
  · exact nextCanon_next.mpr h
  · refine nextCanon_ite (nextCanon_next.mpr h) ?_
    extract_lets +onlyGivenNames k s1 s2 acked
    have hs2 : s2.Canon := by
      unfold s2
      split
      · exact State.drainL1_canon (State.setRcache_canon h)
      · exact State.setRcache_canon h
    clear_value s2
    refine nextCanon_ite (nextCanon_next.mpr (State.canon_mk.mpr hs2)) ?_
    extract_lets +onlyGivenNames x s3
    have hs3 : s3.Canon := State.wrapRf_canon.mpr (State.setRf_canon.mpr (State.canon_mk.mpr hs2))
    clear_value s3
    split
    · exact nextCanon_next.mpr (State.endCmd_canon hs3)
    · exact nextCanon_next.mpr hs3

@[simp] theorem State.ownWrite_canon {v : Word} (h : s.Canon) : (State.ownWrite s v).Canon := by
  simp [State.ownWrite, h]

@[simp] theorem execApplyOwner_canon {m : Master} {v : Word} (h : s.Canon) : nextCanon (execApplyOwner m v s) := by
  unfold execApplyOwner
  split <;> simp [h]

@[simp] theorem execApplyOwnerDone_canon (h : s.Canon) : nextCanon (execApplyOwnerDone s) := by
  unfold execApplyOwnerDone
  repeat' split
  all_goals simp [h]

@[simp] theorem State.resolve_canon {slot : Nat} {fatal : Bool} (h : s.Canon) : (State.resolve s slot fatal).Canon := by
  unfold State.resolve
  grind [State.Canon, State.ctxFail_canon, State.refuseHeld_canon, State.collRunAll_canon, State.retryFrames_canon,
    State.resumeAgents_canon]

@[simp] theorem execRetry_canon {_m : Master} {v : Word} (h : s.Canon) : nextCanon (execRetry _m v s) := by
  unfold execRetry
  split <;> simp [h]

@[simp] theorem execFatal_canon {_m : Master} {v : Word} (h : s.Canon) : nextCanon (execFatal _m v s) := by
  unfold execFatal
  split <;> simp [h]

@[simp] theorem State.portNext_canon {a : XltAgent} (h : s.Canon) : (State.portNext s a).Canon := by
  unfold State.portNext
  grind [State.Canon, State.retryFrames_canon]

@[simp] theorem execHeldFaultAdmit_canon (h : s.Canon) : nextCanon (execHeldFaultAdmit s) := by
  unfold execHeldFaultAdmit
  repeat' split
  · exact nextCanon_next.mpr h
  · exact nextCanon_next.mpr h
  · exact nextCanon_next.mpr h
  next heq => exact nextCanon_next.mpr (State.portNext_canon (State.canon_mk.mpr (State.admitFault_canon h heq)))

/-! ### Submission queues and completion rings -/

@[simp] theorem State.qdrop_canon {m : Master} {kind n : Nat} {ring : Bool} (h : s.Canon) : (State.qdrop s m kind n
    ring).Canon := by
  simp [State.qdrop, h]

@[simp] theorem State.sqBaseWrite_canon {m : Master} {n : Nat} {v : Word} (h : s.Canon) : (State.sqBaseWrite s m n
    v).Canon := by
  simp [State.sqBaseWrite, h]

@[simp] theorem State.destroyDone_canon (h : s.Canon) : (State.destroyDone s).Canon := by
  refine State.foldl_canon h fun t e ht => State.foldl_canon ht fun u c hu => ?_
  dsimp only
  split
  · exact State.endCmd_canon hu
  · exact hu

@[simp] theorem State.drained_canon {n : Nat} (h : s.Canon) : (State.drained s n).Canon := by
  simp [State.drained, h]

@[simp] theorem State.sqDisable_canon {n : Nat} {gone : Bool} (h : s.Canon) : (State.sqDisable s n gone).Canon := by
  unfold State.sqDisable
  refine State.drained_canon (State.showWait_canon ?_)
  simp [h]

@[simp] theorem State.sqCtrlWrite_canon {m : Master} {n : Nat} {v : Word} (h : s.Canon) : (State.sqCtrlWrite s m n
    v).Canon := by
  unfold State.sqCtrlWrite
  grind [State.Canon, State.qdrop_canon, State.setRf_canon, State.setReg_canon, State.setQueue_canon,
    State.sqDisable_canon]

@[simp] theorem State.sqStatusWrite_canon {m : Master} {n : Nat} {v : Word} (h : s.Canon) : (State.sqStatusWrite s m n
    v).Canon := by
  simp [State.sqStatusWrite, h]

@[simp] theorem State.cqBaseWrite_canon {m : Master} {n : Nat} {v : Word} (h : s.Canon) : (State.cqBaseWrite s m n
    v).Canon := by
  simp [State.cqBaseWrite, h]

@[simp] theorem State.cqFields_canon {n : Nat} {v : Word} (h : s.Canon) : (State.cqFields s n v).Canon := by
  simp [State.cqFields, h]

@[simp] theorem State.cqCtrlWrite_canon {m : Master} {n : Nat} {v : Word} (h : s.Canon) : (State.cqCtrlWrite s m n
    v).Canon := by
  unfold State.cqCtrlWrite
  grind [State.Canon, State.qdrop_canon, State.setRf_canon, State.cqFields_canon, State.setReg_canon]

@[simp] theorem State.cqHeadWrite_canon {m : Master} {n : Nat} {v : Word} (h : s.Canon) : (State.cqHeadWrite s m n
    v).Canon := by
  unfold State.cqHeadWrite
  dsimp only
  repeat' split
  · exact State.qdrop_canon h
  · exact State.qdrop_canon h
  · simp [h]

@[simp] theorem State.doorbell_canon {m : Master} {v : Word} (h : s.Canon) : (State.doorbell s m v).Canon := by
  unfold State.doorbell
  dsimp only
  repeat' split
  · exact State.qdrop_canon h
  · exact h
  · simp [h]
  · exact State.qdrop_canon h

@[simp] theorem execDoorbell_canon {m : Master} {v : Word} (h : s.Canon) : nextCanon (execDoorbell m v s) := by
  unfold execDoorbell
  split <;> simp [h]

@[simp] theorem execQueueEnable_canon {m : Master} {n : Nat} {v : Word} (h : s.Canon) : nextCanon (execQueueEnable m n
    v s) := by
  unfold execQueueEnable
  split <;> simp [h]

@[simp] theorem execQueueDisable_canon {m : Master} {n : Nat} {v : Word} (h : s.Canon) : nextCanon (execQueueDisable m
    n v s) := by
  unfold execQueueDisable
  split <;> simp [h]

@[simp] theorem execResume_canon {m : Master} {n : Nat} {v : Word} (h : s.Canon) : nextCanon (execResume m n v s) := by
  unfold execResume
  split <;> simp [h]

@[simp] theorem execRingEnable_canon {m : Master} {n : Nat} {v : Word} (h : s.Canon) : nextCanon (execRingEnable m n v
    s) := by
  unfold execRingEnable
  split <;> simp [h]

@[simp] theorem execRingDisable_canon {m : Master} {n : Nat} {v : Word} (h : s.Canon) : nextCanon (execRingDisable m n
    v s) := by
  unfold execRingDisable
  split <;> simp [h]

@[simp] theorem execHeadAdvance_canon {m : Master} {n : Nat} {v : Word} (h : s.Canon) : nextCanon (execHeadAdvance m n
    v s) := by
  unfold execHeadAdvance
  split <;> simp [h]

@[simp] theorem State.cmdStall_canon {n ctx : Nat} {need : Need} {cause entry va : Nat} (h : s.Canon) :
    (State.cmdStall s n ctx need cause entry va).Canon := by
  unfold State.cmdStall
  exact State.setQueue_canon.mpr (State.xltFault_canon h)

@[simp] theorem State.cmdStop_canon {n ctx : Nat} {c : Cmd} {need : Need} {x : UAccess} (h : s.Canon) : (State.cmdStop
    s n ctx c need x).Canon := by
  unfold State.cmdStop
  split <;> simp [h]

@[simp] theorem State.readSlot_canon {n : Nat} {host : HostAnswer} (h : s.Canon) : (State.readSlot s n host).1.Canon
    := by
  unfold State.readSlot
  grind [State.Canon, State.translate_canon, State.apertureFail_canon, State.hostRead_canon, State.cmdStall_canon,
    State.unitRead_canon, State.countConsumed_canon]

@[simp] theorem State.fetchOne_canon {n : Nat} {host : HostAnswer} (h : s.Canon) : (State.fetchOne s n host).Canon := by
  unfold State.fetchOne
  grind [State.Canon, State.satRf_canon, State.setRf_canon, State.setQueue_canon, State.readSlot_canon,
    State.wrapRf_canon]

@[simp] theorem execFetch_canon {n : Nat} {host : HostAnswer} (h : s.Canon) : nextCanon (execFetch n host s) := by
  unfold execFetch
  split <;> simp [h]

@[simp] theorem execSealReread_canon {n : Nat} {host : HostAnswer} (h : s.Canon) : nextCanon (execSealReread n host s)
    := by
  unfold execSealReread
  split <;> simp [h]

@[simp] theorem execSealCrc_canon {n : Nat} (h : s.Canon) : nextCanon (execSealCrc n s) := by
  unfold execSealCrc
  dsimp only
  repeat' split
  all_goals simp [h]

@[simp] theorem State.traceStart_canon {n : Nat} {c : Cmd} (h : s.Canon) : (State.traceStart s n c).Canon := by
  simp [State.traceStart, h]

theorem State.runCmd_canon {s : State} {n op : Nat} {sel : Cmd → Bool} {priv : Bool} {masks : List Nat}
    {range : Cmd → Option Nat} {body : State → Cmd → Nat → State} (h : s.Canon)
    (hbody : ∀ s c n, s.Canon → (body s c n).Canon) : nextCanon (s.runCmd n op sel priv masks range body) := by
  unfold State.runCmd
  split
  · simp [h]
  · dsimp only
    repeat' split
    all_goals simp only [nextCanon_next]
    · exact h
    · exact State.endCmd_canon (State.traceStart_canon h)
    · exact State.endCmd_canon (State.traceStart_canon h)
    · exact State.endCmd_canon (State.traceStart_canon h)
    · exact hbody _ _ _ (State.traceStart_canon h)

@[simp] theorem State.retire_canon {n idx : Nat} (h : s.Canon) : (State.retire s n idx).Canon := by
  simp [State.retire, h]

@[simp] theorem State.complete_canon {n : Nat} {c : Cmd} {status : Nat} {result detail : Word} (h : s.Canon) :
    (State.complete s n c status result detail).Canon := by
  unfold State.complete
  extract_lets +onlyGivenNames m size j
  refine State.ite_canon (State.retire_canon h) (State.ite_canon (State.ite_canon h ?_) ?_)
  · exact State.satRf_canon.mpr (State.setCmd_canon h)
  · extract_lets +onlyGivenNames bs va
    have hx := State.translate_canon (id := .square) (ctx := s.queueCtx n) (va := va) (n := needWrite) h
    have hw := State.unitWrite_canon (ctx := 0) (va := va) (bs := bs) (need := needWriteDev) h
    have hhost : ∀ a l, ((s.hostWrite a l).wrapRf (.hqCqTail m) .tail 1).Canon := fun a l =>
      State.wrapRf_canon.mpr (State.hostWrite_canon h)
    refine State.ite_canon ?_ ?_
    · split
      · exact State.retire_canon (State.ite_canon (State.msix_canon (hhost _ _)) (hhost _ _))
      next heq => exact State.cmdStall_canon (State.canon_of_fst hx heq)
      · exact h
    · split
      next heq => exact State.cmdStall_canon (State.canon_of_fst hw heq)
      next heq => exact State.retire_canon (State.wrapRf_canon.mpr (State.canon_of_fst hw heq))

@[simp] theorem execCommandComplete_canon {n seq : Nat} (h : s.Canon) : nextCanon (execCommandComplete n seq s) := by
  unfold execCommandComplete
  split
  · exact nextCanon_next.mpr h
  · split
    · split
      · exact nextCanon_next.mpr h
      · exact nextCanon_next.mpr (State.endCmd_canon (State.traceStart_canon h))
    · split
      · exact nextCanon_next.mpr h
      · split
        · split
          · exact nextCanon_next.mpr h
          · exact nextCanon_next.mpr
              (State.ite_canon (State.complete_canon h) (State.traceNow_canon (State.complete_canon h)))
        · exact nextCanon_next.mpr (State.complete_canon h)
        · exact nextCanon_next.mpr h

/-! ### How the tensor engine's store formatter and the Haul engine reach memory -/

@[simp] theorem State.session_canon {c ctx party : Nat} {host : HostAnswer} {log : List Nat} {written : Nat} (h :
    s.Canon) : (State.session s c ctx party host log written).Canon := by
  simp [State.session, h]

@[simp] theorem Sess.halt_canon {k : Sess} {x : Stop} (h : k.Canon) : (Sess.halt k x).Canon := by
  unfold Sess.halt
  split <;> simp [h]

@[simp] theorem Sess.need_canon {k : Sess} {ok : Bool} {code : Nat} (h : k.Canon) : (Sess.need k ok code).Canon := by
  unfold Sess.need
  split <;> simp [h]

@[simp] theorem Sess.putOff_canon {k : Sess} (h : k.Canon) : (Sess.putOff k).1.Canon := by
  unfold Sess.putOff
  split <;> simp [h]

@[simp] theorem Sess.takeOff_canon {k : Sess} (h : k.Canon) : (Sess.takeOff k).Canon := by
  unfold Sess.takeOff
  split <;> simp [h]

@[simp] theorem Sess.line_canon {k : Sess} {va : Nat} (h : k.Canon) : (Sess.line k va).Canon := by
  unfold Sess.line
  grind [State.Canon, Sess.Canon, Sess.halt_canon, State.translate_canon, State.engineRead_canon, State.hostRead_canon,
    State.apertureFail_canon]

@[simp] theorem Sess.touchR_canon {k : Sess} {ls : Bool} {a n : Nat} (h : k.Canon) : (Sess.touchR k ls a n).Canon := by
  simp [Sess.touchR, h]

@[simp] theorem Sess.touchW_canon {k : Sess} {ls : Bool} {a n : Nat} (h : k.Canon) : (Sess.touchW k ls a n).Canon := by
  simp [Sess.touchW, h]

@[simp] theorem Sess.readDev_canon {k : Sess} {va n : Nat} (h : k.Canon) : (Sess.readDev k va n).1.Canon := by
  unfold Sess.readDev
  split
  · exact h
  · exact h
  · have hl : ((lineStarts va n).foldl Sess.line k).Canon := Sess.foldl_canon h fun _ _ => Sess.line_canon
    dsimp only
    repeat' split
    · exact hl
    · exact Sess.halt_canon hl
    · exact hl

@[simp] theorem Sess.readLs_canon {k : Sess} {off n : Nat} (h : k.Canon) : (Sess.readLs k off n).1.Canon := by
  unfold Sess.readLs
  split <;> simp [h]

@[simp] theorem Sess.read_canon {k : Sess} {ls : Bool} {a n : Nat} (h : k.Canon) : (Sess.read k ls a n).1.Canon := by
  unfold Sess.read
  grind [State.Canon, Sess.Canon, Sess.readLs_canon, Sess.readDev_canon, Sess.touchR_canon]

@[simp] theorem Sess.write_canon {k : Sess} {ls : Bool} {a : Nat} {bs : List Byte} (h : k.Canon) : (Sess.write k ls a
    bs).Canon := by
  unfold Sess.write
  grind [State.Canon, Sess.Canon, Sess.touchW_canon]

@[simp] theorem Sess.atomic_canon {k : Sess} {ls : Bool} {a n : Nat} {f : Nat → Nat} (h : k.Canon) : (Sess.atomic k ls
    a n f).Canon := by
  unfold Sess.atomic
  split <;> simp [h]

@[simp] theorem Sess.reduceAt_canon {k : Sess} {ls : Bool} {a n : Nat} {f : Nat → Nat} (h : k.Canon) : (Sess.reduceAt
    k ls a n f).Canon := by
  unfold Sess.reduceAt
  grind [State.Canon, Sess.Canon, Sess.atomic_canon, Sess.touchW_canon, Sess.touchR_canon]

@[simp] theorem Sess.xlat_canon {k : Sess} {atomic : Bool} {a : Nat} (h : k.Canon) : (Sess.xlat k atomic a).1.Canon := by
  unfold Sess.xlat
  grind [State.Canon, Sess.Canon, Sess.halt_canon, State.translate_canon]

@[simp] theorem Sess.modParty_canon {k : Sess} {f : Party → Party} (h : k.Canon) : (Sess.modParty k f).Canon := by
  unfold Sess.modParty
  split <;> simp [h]

@[simp] theorem Sess.writeLine_canon {k : Sess} {line : Nat} {d : Line} {m : BitVec 128} (h : k.Canon) :
    (Sess.writeLine k line d m).Canon := by
  unfold Sess.writeLine
  grind [State.Canon, Sess.Canon, Sess.xlat_canon, State.engineWrite_canon, State.hostWrite_canon]

@[simp] theorem Sess.atomicLines_canon {k : Sess} {a n : Nat} (h : k.Canon) : (Sess.atomicLines k a n).1.Canon := by
  refine Sess.foldl_fst_canon h fun r x hr => ?_
  have hx := Sess.xlat_canon (atomic := true) (a := x) hr
  split
  · exact hr
  · split
    next heq => rwa [heq] at hx
    next heq => rwa [heq] at hx

@[simp] theorem Sess.farAtomic_canon {k : Sess} {a : Atomic} (h : k.Canon) : (Sess.farAtomic k a).Canon := by
  unfold Sess.farAtomic
  extract_lets +onlyGivenNames r
  have hr : r.1.Canon := Sess.atomicLines_canon h
  clear_value r
  split
  · exact hr
  · extract_lets +onlyGivenNames s1 got
    have hs1 : s1.Canon := State.foldl_canon hr fun t e ht => State.homeFetch_canon.mpr (State.l1Push_canon ht)
    clear_value s1
    split
    · exact hs1
    · extract_lets +onlyGivenNames lines v
      split
      · exact hs1
      · refine State.foldl_canon hs1 fun t p ht => ?_
        split
        · exact State.homeWrite_canon ht
        · exact ht

@[simp] theorem Sess.perform_canon {k : Sess} {x : Act} (h : k.Canon) : (Sess.perform k x).Canon := by
  unfold Sess.perform
  grind [State.Canon, Sess.Canon, Sess.modParty_canon, Sess.writeLine_canon, Sess.farAtomic_canon, State.satRf_canon]

@[simp] theorem Sess.commit_canon {k : Sess} (h : k.Canon) : (Sess.commit k).Canon := by
  unfold Sess.commit
  split
  · exact h
  · exact Sess.foldl_canon h fun _ _ => Sess.perform_canon

@[simp] theorem Sess.desc_canon {k : Sess} {va : Nat} (h : k.Canon) : (Sess.desc k va).1.Canon := by
  unfold Sess.desc
  grind [State.Canon, Sess.Canon, Sess.halt_canon, Sess.readDev_canon]

/-! ### Tensor instructions at issue, and the work of TMMA, TCOMB and TACC.LDP -/

@[simp] theorem State.modTe_canon {c : Nat} {f : TensorEngine → TensorEngine} : (State.modTe s c f).Canon ↔ s.Canon := by
  rw [State.Canon, State.modTe_mem, State.canon_iff]

@[simp] theorem State.queueTensor_canon {k : IssueCtx} {o : TensorOp} (h : s.Canon) : (State.queueTensor s k o).Canon
    := by
  simp [State.queueTensor, h]

@[simp] theorem execTaccOpen_canon {i : Issue} {f : VFmt} (h : s.Canon) : nextCanon (execTaccOpen i f s) := by
  unfold execTaccOpen
  grind [State.Canon, issueWait_canon, State.fail_canon, State.finish_canon, State.modTe_canon]

@[simp] theorem execTmma_canon {i : Issue} {f : VFmt} (h : s.Canon) : nextCanon (execTmma i f s) := by
  unfold execTmma
  grind [State.Canon, issueWait_canon, State.fail_canon, State.modTe_canon, State.queueTensor_canon]

@[simp] theorem execTcomb_canon {i : Issue} {f : VFmt} (h : s.Canon) : nextCanon (execTcomb i f s) := by
  unfold execTcomb
  grind [State.Canon, issueWait_canon, State.fail_canon, State.queueTensor_canon, State.modTe_canon]

@[simp] theorem execTaccRel_canon {i : Issue} {f : VFmt} (h : s.Canon) : nextCanon (execTaccRel i f s) := by
  unfold execTaccRel
  grind [State.Canon, issue_canon, State.fail_canon, State.finish_canon, State.modTe_canon]

@[simp] theorem Sess.stallIssue_canon {x : Sess} {k : IssueCtx} {cause entry va : Nat} {n : Need} (h : x.Canon) :
    (Sess.stallIssue x k cause entry va n).Canon := by
  unfold Sess.stallIssue
  extract_lets +onlyGivenNames s1
  have hs1 : s1.Canon := State.xltFault_canon h
  split
  · exact State.setRope_canon.mpr hs1
  · exact hs1

@[simp] theorem Sess.stopIssue_canon {x : Sess} {k : IssueCtx} (h : x.Canon) : (Sess.stopIssue x k).1.Canon := by
  unfold Sess.stopIssue
  split <;> simp [h]

@[simp] theorem IssueCtx.session_canon {k : IssueCtx} (h : s.Canon) : (IssueCtx.session k s).Canon := by
  simp [IssueCtx.session, h]

@[simp] theorem Sess.readDesc_canon {x : Sess} {va : Nat} (h : x.Canon) : (Sess.readDesc x va).1.Canon := by
  unfold Sess.readDesc
  grind [State.Canon, Sess.Canon, Sess.desc_canon, Sess.halt_canon, Sess.putOff_canon]

@[simp] theorem execTaccLdp_canon {i : Issue} {f : VFmt} (h : s.Canon) : nextCanon (execTaccLdp i f s) := by
  refine issueWait_canon h fun t k ht => ?_
  extract_lets +onlyGivenNames hd tok va tagVa cl u isOpen never
  split
  · exact State.fail_canon ht
  · refine State.ite_fst_canon (State.fail_canon ht) (State.ite_fst_canon ht ?_)
    extract_lets +onlyGivenNames r x
    have hx : x.Canon := Sess.readDesc_canon (IssueCtx.session_canon ht)
    have hfail : ∀ c, (x.st.fail k c).Canon := fun c => State.fail_canon hx
    refine State.ite_fst_canon (Sess.stopIssue_canon hx) (State.ite_fst_canon (hfail _) (State.ite_fst_canon (hfail _)
      (State.ite_fst_canon (hfail _) (State.ite_fst_canon (hfail _) (State.ite_fst_canon (hfail _)
        (State.ite_fst_canon (hfail _) ?_))))))
    split
    · exact Sess.stopIssue_canon (Sess.takeOff_canon hx)
    · extract_lets +onlyGivenNames af a s1 n
      have hs1 : s1.Canon := State.modTe_canon.mpr hx
      clear_value n s1
      exact State.queueTensor_canon hs1

/-! ### The store formatter -/

@[simp] theorem Sess.element_canon {x : Sess} {d : Desc} {u : Place} {i : List Int} (h : x.Canon) : (Sess.element x d
    u i).1.Canon := by
  unfold Sess.element
  grind [State.Canon, Sess.Canon, Sess.read_canon]

@[simp] theorem Sess.readTile_canon {x : Sess} {d : Desc} {u : Place} {trans : Bool} {o : Nat × Nat} {cols : Nat} (h :
    x.Canon) : (Sess.readTile x d u trans o cols).1.Canon :=
  Sess.foldl_fst_canon h fun _ _ => Sess.element_canon

@[simp] theorem Sess.drops_canon {x : Sess} {d : Desc} {n : Nat} (h : x.Canon) : (Sess.drops x d n).Canon := by
  unfold Sess.drops
  grind [State.Canon, Sess.Canon, Sess.atomic_canon]

@[simp] theorem Sess.ledgerCounts_canon {x : Sess} {d : Desc} {watch : Bool} {sat nf : Nat} (h : x.Canon) :
    (Sess.ledgerCounts x d watch sat nf).Canon := by
  unfold Sess.ledgerCounts
  grind [State.Canon, Sess.Canon, Sess.atomic_canon]

@[simp] theorem Sess.writePlain_canon {α : Type} {x : Sess} {d : Desc} {u : Place} {r : Recipe} {trans ledger : Bool}
    {o : Nat × Nat} {cols : Nat} {conv : Nat → α → Nat × Bool × Bool} {vals : List α} (h : x.Canon) :
    (x.writePlain d u r trans ledger o cols conv vals).Canon := by
  unfold Sess.writePlain
  refine Sess.drops_canon ?_
  have hz : ∀ (f : (Sess × Nat × Nat × Nat) → ((Nat × Nat) × α) → Sess × Nat × Nat × Nat)
      (_ : ∀ z e, z.1.Canon → (f z e).1.Canon), ((((tileElems cols).zip vals).foldl f (x, 0, 0, 0)).1).Canon :=
    fun f hf => Sess.foldl_fst_canon h hf
  split
  · exact Sess.ledgerCounts_canon (hz _ fun z e hz => by grind [Sess.write_canon])
  · exact hz _ fun z e hz => by grind [Sess.write_canon]

@[simp] theorem Sess.writeMx_canon {x : Sess} {d : Desc} {u : Place} {r : Recipe} {trans : Bool} {o : Nat × Nat} {cols
    : Nat} {vals : List Fp} (h : x.Canon) : (Sess.writeMx x d u r trans o cols vals).Canon := by
  unfold Sess.writeMx
  refine Sess.drops_canon (Sess.ledgerCounts_canon (Sess.foldl_fst_canon h fun z b hz => ?_))
  grind [Sess.write_canon, Sess.readDev_canon, Sess.atomic_canon]

@[simp] theorem Sess.writeTile_canon {x : Sess} {d : Desc} {u : Place} {cx : Ctx} {trans : Bool} {o : Nat × Nat} {cols
    : Nat} {vals : List Fp} (h : x.Canon) : (Sess.writeTile x d u cx trans o cols vals).Canon := by
  unfold Sess.writeTile
  split <;> simp [h]

@[simp] theorem Sess.ledgerOk_canon {x : Sess} {cx : Ctx} {d : Desc} (h : x.Canon) : (Sess.ledgerOk x cx d).1.Canon := by
  unfold Sess.ledgerOk
  grind [State.Canon, Sess.Canon, Sess.readDev_canon]

@[simp] theorem Sess.ledgersOk_canon {x : Sess} {cx : Ctx} {ds : List (Option (Desc × Bool))} (h : x.Canon) :
    (Sess.ledgersOk x cx ds).1.Canon := by
  refine Sess.foldl_fst_canon h fun r d hr => ?_
  split
  · exact Sess.putOff_canon (Sess.ledgerOk_canon hr)
  · exact hr

@[simp] theorem execTstore_canon {i : Issue} {f : VFmt} (h : s.Canon) : nextCanon (execTstore i f s) := by
  unfold execTstore
  extract_lets +onlyGivenNames m mode addc sr
  refine issueWait_canon h fun t k ht => ?_
  extract_lets +onlyGivenNames hd trans tok vd vr step second u handle waits
  split
  · exact State.fail_canon ht
  · refine State.ite_fst_canon (State.fail_canon ht) (State.ite_fst_canon ht ?_)
    extract_lets +onlyGivenNames r1 r2 x bad shape
    have hr1 : r1.1.Canon := Sess.readDesc_canon (IssueCtx.session_canon ht)
    have hx : x.Canon := Sess.ite_fst_canon (Sess.readDesc_canon hr1) hr1
    clear_value x
    refine State.ite_fst_canon (Sess.stopIssue_canon hx) (State.ite_fst_canon (State.fail_canon hx)
      (State.ite_fst_canon (State.fail_canon hx) ?_))
    split
    · exact State.fail_canon hx
    · exact State.fail_canon hx
    · split
      · exact State.fail_canon hx
      · extract_lets +onlyGivenNames l
        have hl : l.1.Canon := Sess.ite_fst_canon hx (Sess.ledgersOk_canon hx)
        clear_value l
        refine State.ite_fst_canon (Sess.stopIssue_canon hl) (State.ite_fst_canon (State.fail_canon hl)
          (State.ite_fst_canon (State.fail_canon hl) ?_))
        split
        · exact State.modTe_canon.mpr (State.queueTensor_canon hl)
        · exact Sess.stopIssue_canon (Sess.takeOff_canon hl)

@[simp] theorem Sess.storeTile_canon {x : Sess} {a : Acc} {cx : Ctx} {u : Place} {mode : Nat} {addc sr trans : Bool}
    {d : Desc} {rc : Option Desc} {step : Nat} (h : x.Canon) : (Sess.storeTile x a cx u mode addc sr trans d rc
    step).Canon := by
  unfold Sess.storeTile
  grind [State.Canon, Sess.Canon, Sess.writePlain_canon, Sess.write_canon, Sess.readTile_canon, Sess.writeTile_canon]

@[simp] theorem Sess.loadTile_canon {x : Sess} {a : Acc} {u : Place} {d : Desc} {tagVa : Nat} (h : x.Canon) :
    (Sess.loadTile x a u d tagVa).1.Canon := by
  unfold Sess.loadTile
  extract_lets +onlyGivenNames t tag
  have ht : t.1.Canon := Sess.readDev_canon h
  clear_value t
  refine Sess.ite_fst_canon ht (Sess.ite_fst_canon (Sess.halt_canon ht) ?_)
  exact Sess.foldl_fst_canon ht fun r e hr => Sess.element_canon hr

@[simp] theorem State.teEcc_canon {c : Nat} {e : Ecc} (h : s.Canon) : (State.teEcc s c e).1.Canon := by
  unfold State.teEcc
  split <;> simp [h]

@[simp] theorem State.tensorDone_canon {c : Nat} {o : TensorOp} (h : s.Canon) : (State.tensorDone s c o).Canon := by
  simp [State.tensorDone, h]

@[simp] theorem Sess.stopTensor_canon {x : Sess} {c : Nat} {o : TensorOp} (h : x.Canon) : (Sess.stopTensor x c
    o).Canon := by
  unfold Sess.stopTensor
  split <;> simp [h]

@[simp] theorem State.tileDone_canon {c : Nat} {o : TensorOp} {x : Acc} {seq : Nat} (h : s.Canon) : (State.tileDone s
    c o x seq).Canon := by
  simp [State.tileDone, h]

@[simp] theorem State.arrayWaits_canon {c : Nat} {x : Acc} {kcount : Nat} {ends : Bool} (h : s.Canon) :
    (State.arrayWaits s c x kcount ends).1.Canon := by
  simp [State.arrayWaits, h]

@[simp] theorem State.tensorRun_canon {c : Nat} {o : TensorOp} {p : Party} {cx : Ctx} {host : HostAnswer} {silent :
    Option (Nat × Word)} (h : s.Canon) : (State.tensorRun s c o p cx host silent).Canon := by
  unfold State.tensorRun
  extract_lets +onlyGivenNames te x u
  have hx : x.Canon := State.session_canon h
  clear_value x
  split
  · split
    · exact h
    · extract_lets +onlyGivenNames ends
      refine State.ite_canon (State.modTe_canon.mpr h) (State.ite_canon (State.modTe_canon.mpr h) ?_)
      split
      · exact State.ropeFault_canon h
      · extract_lets +onlyGivenNames w p acc1 acc2 s1 s2
        have hs1 : s1.Canon := State.countCl_canon.mpr (State.modTe_canon.mpr (State.arrayWaits_canon h))
        exact State.tensorDone_canon (State.ite_canon (State.tileDone_canon hs1) hs1)
  · split
    · exact State.tensorDone_canon (State.modTe_canon.mpr h)
    · exact h
  · split
    · exact h
    · extract_lets +onlyGivenNames y z
      have hy : y.Canon := Sess.storeTile_canon hx
      have hz : z.Canon := by
        unfold z
        split
        · exact hy
        · exact Sess.commit_canon hy
      exact State.ite_canon (Sess.stopTensor_canon hz) (State.tensorDone_canon hz)
  · split
    · exact h
    · extract_lets +onlyGivenNames y
      have hy : y.1.Canon := Sess.loadTile_canon hx
      exact State.ite_canon (Sess.stopTensor_canon hy) (State.tensorDone_canon (State.modTe_canon.mpr hy))

@[simp] theorem execTensorMilestone_canon {c : Nat} {host : HostAnswer} {ecc : Ecc} {silent : Option (Nat × Word)} (h
    : s.Canon) : nextCanon (execTensorMilestone c host ecc silent s) := by
  unfold execTensorMilestone
  refine nextCanon_ite (nextCanon_next.mpr h) ?_
  extract_lets +onlyGivenNames te
  split
  · exact nextCanon_next.mpr h
  · split
    · refine nextCanon_ite (nextCanon_next.mpr h) ?_
      extract_lets +onlyGivenNames e
      have he : e.1.Canon := State.teEcc_canon h
      exact nextCanon_ite (nextCanon_next.mpr (State.tensorRun_canon he)) (nextCanon_next.mpr he)
    · exact nextCanon_next.mpr h

@[simp] theorem execPermitGrant_canon {die : Nat} (h : s.Canon) : nextCanon (execPermitGrant die s) := by
  unfold execPermitGrant
  extract_lets +onlyGivenNames recent asks best
  clear_value best
  split
  · exact nextCanon_next.mpr h
  · refine nextCanon_ite (nextCanon_next.mpr h) ?_
    extract_lets +onlyGivenNames s1 s2 wait s3
    have hs2 : s2.Canon := State.canon_mk.mpr (State.modTe_canon.mpr h)
    have hs3 : s3.Canon := State.ite_canon hs2 (State.satRf_canon.mpr hs2)
    exact nextCanon_next.mpr (State.setRf_canon.mpr (State.wrapRf_canon.mpr hs3))

@[simp] theorem execPermitLoss_canon {c : Nat} (h : s.Canon) : nextCanon (execPermitLoss c s) := by
  unfold execPermitLoss
  extract_lets +onlyGivenNames te
  exact nextCanon_ite (nextCanon_next.mpr (State.modTe_canon.mpr h)) (nextCanon_next.mpr h)

/-! ### The shadow unit's check of a sampled tile and its record -/

@[simp] theorem execShadowCheck_canon {c : Nat} (h : s.Canon) : nextCanon (execShadowCheck c s) := by
  unfold execShadowCheck
  refine nextCanon_ite (nextCanon_next.mpr h) ?_
  split
  · exact nextCanon_next.mpr h
  · extract_lets +onlyGivenNames s1
    have hs1 : s1.Canon := State.modTe_canon.mpr h
    split
    · exact nextCanon_next.mpr hs1
    · extract_lets +onlyGivenNames tol r
      refine nextCanon_ite (nextCanon_next.mpr hs1) ?_
      extract_lets +onlyGivenNames s2 s3
      have hs3 : s3.Canon := State.ringPut_canon (State.satRf_canon.mpr hs1)
      exact nextCanon_next.mpr (State.ite_canon hs3 (State.clusterFail_canon hs3))

/-! ### The commands of Table 13.3 but HINT_HEAVY, and the start of collectives and musters -/

@[simp] theorem execNopCmd_canon {n : Nat} (h : s.Canon) : nextCanon (execNopCmd n s) := by
  unfold execNopCmd
  grind [State.Canon, State.runCmd_canon, State.endCmd_canon]

@[simp] theorem State.fenceDone_canon {w : Nat} (h : s.Canon) : (State.fenceDone s w).Canon := by
  simp [State.fenceDone, h]

@[simp] theorem State.windowWake_canon {w : Nat} (h : s.Canon) : (State.windowWake s w).Canon := by
  refine State.foldl_canon h fun t e ht => State.foldl_canon ht fun u c hu => State.ite_canon ?_ hu
  exact State.endCmd_canon (State.fenceDone_canon hu)

@[simp] theorem execWindowFence_canon {n : Nat} (h : s.Canon) : nextCanon (execWindowFence n s) := by
  refine State.runCmd_canon h fun t c n ht => ?_
  exact State.ite_canon (State.endCmd_canon (State.fenceDone_canon ht)) (State.setCmd_canon ht)

@[simp] theorem State.placeParties_canon {id : Nat} {p : LaunchParams} (h : s.Canon) : (State.placeParties s id
    p).Canon :=
  State.foldl_canon h fun _ _ ht => State.setCluster_canon.mpr ht

@[simp] theorem execLaunch_canon {n : Nat} (h : s.Canon) : nextCanon (execLaunch n s) := by
  unfold execLaunch
  grind [State.Canon, State.runCmd_canon, State.endCmd_canon, State.setCmd_canon, State.ctxFail_canon,
    State.placeParties_canon]

@[simp] theorem State.cmdBellRefuse_canon {n idx b : Nat} (h : s.Canon) : (State.cmdBellRefuse s n idx b).Canon := by
  simp [State.cmdBellRefuse, h]

@[simp] theorem execBellWaitCmd_canon {n : Nat} (h : s.Canon) : nextCanon (execBellWaitCmd n s) := by
  unfold execBellWaitCmd
  grind [State.Canon, State.runCmd_canon, State.cmdBellRefuse_canon, State.countPkg_canon, State.endCmd_canon,
    State.setCmd_canon]

@[simp] theorem execBellSignal_canon {n : Nat} (h : s.Canon) : nextCanon (execBellSignal n s) := by
  unfold execBellSignal
  grind [State.Canon, State.runCmd_canon, State.cmdBellRefuse_canon, State.endCmd_canon, State.bellAdd_canon]

@[simp] theorem execPublish_canon {n : Nat} {_host : HostAnswer} (h : s.Canon) : nextCanon (execPublish n _host s) := by
  unfold execPublish
  grind [State.Canon, State.runCmd_canon, State.unitWrite_canon, State.cmdStop_canon, State.unitRead_canon,
    State.endCmd_canon]

@[simp] theorem State.physWrite_canon {pa : Nat} {bs : List Byte} (h : s.Canon) : (State.physWrite s pa bs).Canon :=
  State.foldl_canon h fun _ _ => State.homeWrite_canon

@[simp] theorem execTableLoad_canon {n : Nat} {host : HostAnswer} (h : s.Canon) : nextCanon (execTableLoad n host s)
    := by
  unfold execTableLoad
  grind [State.Canon, State.runCmd_canon, State.translate_canon, State.cmdStop_canon, State.hostRead_canon,
    State.endCmd_canon, State.physWrite_canon, State.apertureFail_canon]

@[simp] theorem State.ledgerClose_canon {n ctx : Nat} {c : Cmd} {discard : Bool} (h : s.Canon) : (State.ledgerClose s
    n ctx c discard).Canon := by
  unfold State.ledgerClose
  grind [State.Canon, State.unitRead_canon, State.endCmd_canon, State.unitWrite_canon, State.cmdStop_canon]

@[simp] theorem execInit_canon {n : Nat} (h : s.Canon) : nextCanon (execInit n s) := by
  unfold execInit
  grind [State.Canon, State.runCmd_canon, State.unitWrite_canon, State.endCmd_canon, State.cmdStop_canon]

@[simp] theorem execClose_canon {n : Nat} (h : s.Canon) : nextCanon (execClose n s) := by
  unfold execClose
  grind [State.Canon, State.runCmd_canon, State.ledgerClose_canon]

@[simp] theorem execDiscard_canon {n : Nat} (h : s.Canon) : nextCanon (execDiscard n s) := by
  unfold execDiscard
  grind [State.Canon, State.runCmd_canon, State.ledgerClose_canon]

@[simp] theorem execXltInv_canon {n : Nat} (h : s.Canon) : nextCanon (execXltInv n s) := by
  unfold execXltInv
  grind [State.Canon, State.runCmd_canon, State.setCmd_canon, State.startInv_canon]

@[simp] theorem State.createCtx_canon {n : Nat} {r : List Byte} {strict : Bool} : (State.createCtx s n r strict).Canon
    ↔ s.Canon := by
  rw [State.Canon, State.createCtx_mem, State.canon_iff]

@[simp] theorem execCtxCreate_canon {n : Nat} {_host : HostAnswer} (h : s.Canon) : nextCanon (execCtxCreate n _host s)
    := by
  unfold execCtxCreate
  grind [State.Canon, State.runCmd_canon, State.unitRead_canon, State.endCmd_canon, State.createCtx_canon,
    State.cmdStop_canon]

@[simp] theorem execCtxDestroy_canon {n : Nat} (h : s.Canon) : nextCanon (execCtxDestroy n s) := by
  refine State.runCmd_canon h fun s c m hs => ?_
  extract_lets +onlyGivenNames x
  refine State.ite_canon (State.endCmd_canon hs) ?_
  extract_lets +onlyGivenNames s0 s1 s2 s3
  have hs0 : s0.Canon := State.setCmd_canon hs
  have hs1 : s1.Canon := State.endCtxWork_canon (State.foldl_canon hs0 fun t e ht =>
    State.ite_canon (State.releaseAt_canon ht) ht)
  have hs3 : s3.Canon := State.foldl_canon (State.mapClusters_canon.mpr hs1) fun t q ht =>
    State.ite_canon (State.sqDisable_canon ht) ht
  exact State.destroyDone_canon hs3

@[simp] theorem State.runColl_canon {n op : Nat} (h : s.Canon) : nextCanon (State.runColl s n op) := by
  unfold State.runColl
  grind [State.Canon, State.runCmd_canon, State.collStart_canon]

@[simp] theorem execAllReduce_canon {n : Nat} (h : s.Canon) : nextCanon (execAllReduce n s) := by
  simp [execAllReduce, h]

@[simp] theorem execReduceScatter_canon {n : Nat} (h : s.Canon) : nextCanon (execReduceScatter n s) := by
  simp [execReduceScatter, h]

@[simp] theorem execAllGather_canon {n : Nat} (h : s.Canon) : nextCanon (execAllGather n s) := by
  simp [execAllGather, h]

@[simp] theorem execBroadcast_canon {n : Nat} (h : s.Canon) : nextCanon (execBroadcast n s) := by
  simp [execBroadcast, h]

@[simp] theorem execReduce_canon {n : Nat} (h : s.Canon) : nextCanon (execReduce n s) := by
  simp [execReduce, h]

@[simp] theorem execBarrier_canon {n : Nat} (h : s.Canon) : nextCanon (execBarrier n s) := by
  simp [execBarrier, h]

@[simp] theorem execMuster_canon {n : Nat} (h : s.Canon) : nextCanon (execMuster n s) := by
  unfold execMuster
  grind [State.Canon, State.runCmd_canon, State.endCmd_canon, State.unitRead_canon, State.musterStart_canon,
    State.cmdStop_canon]

/-! ### The HBM4 memory subsystem -/

@[simp] theorem State.setHbm_canon {k x : Nat} {poisoned : Bool} (h : s.Canon) : (State.setHbm s k x poisoned).Canon
    := by
  unfold State.setHbm
  extract_lets +onlyGivenNames l b
  exact State.ite_canon (State.setSide_canon.mpr h) (State.canon_mk.mpr (Mem.setSector_wf h))

@[simp] theorem State.hbmRead_canon {k : Nat} {flips : BitVec 272} {ctx : Nat} (h : s.Canon) : (State.hbmRead s k
    flips ctx).Canon := by
  -- The decoder and the error record are kept opaque: comparing terms, the kernel would run them on the stored word.
  obtain ⟨read, hread⟩ : ∃ f, f = @State.hbmRead := ⟨_, rfl⟩
  obtain ⟨decoded, hdecoded⟩ : ∃ f, f = decodeSyndrome := ⟨_, rfl⟩
  obtain ⟨record, hrecord, hrecorded⟩ : ∃ f, f = State.errRecord ∧
      ∀ (t : State) i code cls ctx, t.Canon → (f t i code cls ctx).1.Canon :=
    ⟨_, rfl, fun _ _ _ _ _ ht => State.errRecord_canon ht⟩
  rw [← hread]
  delta State.hbmRead at hread
  rw [← hdecoded, ← hrecord] at hread
  subst hread
  beta_reduce
  extract_lets +onlyGivenNames q st a w x s1
  have hset : ∀ x b, (s1.setHbm k x b).Canon := fun x b => State.setHbm_canon (State.hbmBurst_canon.mpr h)
  have hstored : ∀ x b r f n, (((s1.setHbm k x b).hbmStore k).satRf r f n).Canon :=
    fun x b r f n => State.satRf_canon.mpr (State.hbmStore_canon.mpr (hset x b))
  clear_value s1 w q a
  obtain ⟨d, hd⟩ : ∃ d, d = decoded (symbolSum 68 w) := ⟨_, rfl⟩
  rw [← hd]
  cases d
  case clean => exact hset _ _
  case poisoned => exact State.poisonRead_canon.mpr (hset _ _)
  case corrected => exact hrecorded _ _ _ _ _ (State.memLast_canon (hstored _ _ _ _ _))
  case uncorrectable => exact hrecorded _ _ _ _ _ (State.memLast_canon (hstored _ _ _ _ _))

@[simp] theorem State.sectorMeets_canon {k : Nat} {flips : BitVec 272} {ctx : Nat} (h : s.Canon) : (State.sectorMeets
    s k flips ctx).Canon := by
  simp [State.sectorMeets, h]

@[simp] theorem State.onDie_canon {line n : Nat} (h : s.Canon) : (State.onDie s line n).Canon := by
  simp [State.onDie, h]

@[simp] theorem execScrubRead_canon {st : Nat} {flips : List (Nat × BitVec 272)} {onDie : Nat} (h : s.Canon) :
    nextCanon (execScrubRead st flips onDie s) := by
  unfold execScrubRead
  extract_lets +onlyGivenNames n line
  refine nextCanon_ite (nextCanon_next.mpr h) ?_
  extract_lets +onlyGivenNames s1 s2 s3
  have hs1 : s1.Canon := State.foldl_canon h fun t i ht => State.hbmRead_canon ht
  have hs2 : s2.Canon := State.onDie_canon hs1
  exact nextCanon_next.mpr (State.setRf_canon.mpr (State.canon_mk.mpr hs2))

@[simp] theorem execRefresh_canon {st bank : Nat} (h : s.Canon) : nextCanon (execRefresh st bank s) := by
  unfold execRefresh
  split <;> simp [h]

@[simp] theorem execRfm_canon {st bank : Nat} (h : s.Canon) : nextCanon (execRfm st bank s) := by
  unfold execRfm
  extract_lets +onlyGivenNames key
  exact nextCanon_ite (nextCanon_next.mpr h) (nextCanon_next.mpr (State.canon_mk.mpr h))

@[simp] theorem execHbmTempRead_canon {st : Nat} {celsius : Int} (h : s.Canon) : nextCanon (execHbmTempRead st celsius
    s) := by
  unfold execHbmTempRead
  split <;> simp [h]

@[simp] theorem execParityRetry_canon {st sector : Nat} {again : Bool} (h : s.Canon) : nextCanon (execParityRetry st
    sector again s) := by
  unfold execParityRetry
  refine nextCanon_ite (nextCanon_next.mpr h) ?_
  extract_lets +onlyGivenNames s1
  have hs1 : s1.Canon := State.memLast_canon h
  exact nextCanon_next.mpr (State.ite_canon (State.packageFatal_canon hs1) hs1)

/-! ### The commands of the coherent fabric -/

@[simp] theorem State.cacheCount_canon {c : Nat} {f : RF} (h : s.Canon) : (State.cacheCount s c f).Canon := by
  simp [State.cacheCount, h]

@[simp] theorem State.dataError_canon {c line ctx : Nat} {u : Upset} (h : s.Canon) : (State.dataError s c line ctx
    u).Canon := by
  unfold State.dataError
  split <;> simp [h]

@[simp] theorem State.cacheUpset_canon {a line ctx : Nat} {u : Upset} (h : s.Canon) : (State.cacheUpset s a line ctx
    u).Canon := by
  unfold State.cacheUpset
  grind [State.Canon, State.packageFatal_canon, State.dropLine_canon, State.cacheCount_canon, State.dataError_canon,
    State.setLine_canon]

@[simp] theorem State.sideLose_canon {line : Nat} (h : s.Canon) : (State.sideLose s line).Canon := by
  unfold State.sideLose
  extract_lets +onlyGivenNames l m
  have hm : m.wf = true := foldl_keeps (P := fun m : Mem => m.wf = true)
    (fun m i hm => by split; exacts [Mem.setSector_wf hm, hm]) _ _ h
  exact State.canon_mk.mpr hm

@[simp] theorem State.homeUpset_canon {line ctx : Nat} {u : Upset} (h : s.Canon) : (State.homeUpset s line ctx
    u).Canon := by
  unfold State.homeUpset
  extract_lets +onlyGivenNames a c s1 s2 s3 s4
  have hs1 : s1.Canon := State.ite_canon (State.packageFatal_canon h)
    (State.ite_canon (State.sideLose_canon (State.cacheCount_canon h)) h)
  have hs2 : s2.Canon := by
    unfold s2
    split
    · exact hs1
    · exact State.errRecord_canon (State.satRf_canon.mpr hs1)
    · exact State.packageFatal_canon hs1
  have hs3 : s3.Canon := State.onDie_canon (State.foldl_canon hs2 fun t f ht => State.sectorMeets_canon ht)
  have hs4 : s4.Canon := State.dataError_canon hs3
  exact State.ite_canon (State.sideStore_canon hs4 fun m hm => Mem.setPoison_wf _ _ _ hm) hs4

@[simp] theorem State.homeRefuses_canon {ctx line : Nat} {u : Upset} (h : s.Canon) : (State.homeRefuses s ctx line
    u).1.Canon := by
  unfold State.homeRefuses
  split <;> simp [h]

@[simp] theorem State.launchTrans_canon {line : Nat} {t : Trans} (h : s.Canon) : (State.launchTrans s line t).Canon := by
  unfold State.launchTrans
  extract_lets +onlyGivenNames ms t1
  exact State.ite_canon (State.finishTrans_canon h)
    (State.foldl_canon (State.setTrans_canon.mpr h) fun t m ht => State.cohSend_canon ht)

@[simp] theorem State.tryRoom_canon {line : Nat} {t : Trans} (h : s.Canon) : (State.tryRoom s line t).Canon := by
  unfold State.tryRoom
  grind [State.Canon, State.launchTrans_canon]

@[simp] theorem State.beginTrans_canon {a line : Nat} {q : CReq} {u : Upset} (h : s.Canon) : (State.beginTrans s a
    line q u).Canon := by
  unfold State.beginTrans
  grind [State.Canon, State.homeRefuses_canon, State.cohSend_canon, State.ctxFail_canon, State.tryRoom_canon,
    State.setTrans_canon, State.homeUpset_canon]

@[simp] theorem State.settle_canon {n : Nat} {s : State} (h : s.Canon) : (s.settle n).Canon := by
  induction n generalizing s with
  | zero => exact h
  | succ n ih =>
    unfold State.settle
    dsimp only
    repeat' split
    · exact ih (State.beginTrans_canon (by simp [h]))
    · exact ih (by simp [h])
    · exact ih (State.tryRoom_canon h)
    · exact h

@[simp] theorem State.settled_canon (h : s.Canon) : (State.settled s).Canon := by
  simp [State.settled, h]

@[simp] theorem State.sendNack_canon {a line : Nat} {q : CReq} (h : s.Canon) : (State.sendNack s a line q).Canon := by
  simp [State.sendNack, h]

@[simp] theorem State.homeTake_canon {a line : Nat} {u : Upset} (h : s.Canon) : (State.homeTake s a line u).Canon := by
  unfold State.homeTake
  grind [State.Canon, State.countPkg_canon, State.sendNack_canon, State.satRf_canon, State.settled_canon,
    State.beginTrans_canon, State.mapCoh_canon]

@[simp] theorem State.countCacheMiss_canon {a : Nat} {kind : ReqKind} (h : s.Canon) : (State.countCacheMiss s a
    kind).Canon := by
  simp [State.countCacheMiss, h]

@[simp] theorem State.issueReq_canon {a line : Nat} {q : CReq} {u : Upset} (h : s.Canon) : (State.issueReq s a line q
    u).Canon := by
  unfold State.issueReq
  grind [State.Canon, State.homeTake_canon, State.setCohReq_canon, State.countCacheMiss_canon]

@[simp] theorem State.writeBack_canon {a line : Nat} {keep : Bool} (h : s.Canon) : (State.writeBack s a line
    keep).Canon := by
  unfold State.writeBack
  grind [State.Canon, State.setWb_canon, State.dropLine_canon, State.homeTake_canon, State.setCohReq_canon]

@[simp] theorem State.silentEvict_canon {a line : Nat} (h : s.Canon) : (State.silentEvict s a line).Canon := by
  unfold State.silentEvict
  split <;> simp [h]

@[simp] theorem State.evictLine_canon {a line : Nat} (h : s.Canon) : (State.evictLine s a line).Canon := by
  simp [State.evictLine, h]

@[simp] theorem State.takeWay_canon {a line : Nat} (h : s.Canon) : (State.takeWay s a line).1.Canon := by
  unfold State.takeWay
  grind [State.Canon, State.evictLine_canon]

@[simp] theorem State.missReq_canon {a line : Nat} {kind : ReqKind} {ctx : Nat} {d : Line} {mask : BitVec 128} {x :
    LineAccess} (h : s.Canon) : (State.missReq s a line kind ctx d mask x).Canon := by
  unfold State.missReq
  grind [State.Canon, State.takeWay_canon, State.issueReq_canon]

@[simp] theorem State.coresMeet_canon (h : s.Canon) : (State.coresMeet s).Canon := by
  unfold State.coresMeet
  refine State.foldl_canon h fun t e ht => ?_
  split
  · exact ht
  · exact State.setCore_canon (State.errRecord_canon (State.countConsumed_canon ht))

@[simp] theorem State.coreOutside_canon {k line : Nat} {u : LineUse} {d : Line} {mask : BitVec 128} (h : s.Canon) :
    (State.coreOutside s k line u d mask).Canon := by
  unfold State.coreOutside
  grind [State.Canon, State.hostRead_canon, State.hostWrite_canon, State.setCore_canon]

theorem atHome_canon {line : Nat} {s : State} {f : State → State} (h : s.Canon)
    (hf : ∀ s, s.Canon → (f s).Canon) : nextCanon (atHome line s f) := by
  unfold atHome
  repeat' split
  · exact nextCanon_fault
  · exact nextCanon_next.mpr h
  · exact nextCanon_next.mpr (hf _ h)

theorem ownAccess_canon {a line : Nat} {u : LineUse} {d : Line} {mask : BitVec 128} {s : State} {f : State → State}
    (h : s.Canon) (hf : ∀ s, s.Canon → (f s).Canon) : nextCanon (ownAccess a line u d mask s f) := by
  have hown : ∀ s : State, s.Canon → (if s.mayCache a line then (f s).coresMeet else s).Canon := by
    intro s hs
    split
    · exact State.coresMeet_canon (hf _ hs)
    · exact hs
  unfold ownAccess
  repeat' split
  · exact nextCanon_next.mpr (State.coreOutside_canon h)
  · exact nextCanon_next.mpr h
  · exact atHome_canon h hown
  · exact atHome_canon h hown

@[simp] theorem agentRead_canon {a ctx line : Nat} {x : LineAccess} (h : s.Canon) : nextCanon (agentRead a ctx line x
    s) := by
  unfold agentRead
  grind [State.Canon, ownAccess_canon, State.missReq_canon, State.cacheUpset_canon, State.readUse_canon,
    State.touchWay_canon]

@[simp] theorem State.hitWrite_canon {a line : Nat} {l : CLine} {d : Line} {mask : BitVec 128} {u : LineUse} (h :
    s.Canon) : (State.hitWrite s a line l d mask u).Canon := by
  simp [State.hitWrite, h]

@[simp] theorem execRdx_canon {a ctx line : Nat} {d : Line} {mask : BitVec 128} {x : LineAccess} (h : s.Canon) :
    nextCanon (execRdx a ctx line d mask x s) := by
  unfold execRdx
  grind [State.Canon, ownAccess_canon, State.missReq_canon, State.cacheUpset_canon, State.hitWrite_canon]

@[simp] theorem execUpg_canon {a ctx line : Nat} {d : Line} {mask : BitVec 128} {x : LineAccess} (h : s.Canon) :
    nextCanon (execUpg a ctx line d mask x s) := by
  unfold execUpg
  grind [State.Canon, ownAccess_canon, State.cacheUpset_canon, State.issueReq_canon, State.missReq_canon]

@[simp] theorem execWbd_canon {a line : Nat} (h : s.Canon) : nextCanon (execWbd a line s) := by
  unfold execWbd
  grind [State.Canon, atHome_canon, State.evictLine_canon]

@[simp] theorem execWbc_canon {a line : Nat} (h : s.Canon) : nextCanon (execWbc a line s) := by
  unfold execWbc
  grind [State.Canon, atHome_canon, State.writeBack_canon]

@[simp] theorem execRdcur_canon {a ctx line : Nat} {u : Upset} (h : s.Canon) : nextCanon (execRdcur a ctx line u s) := by
  unfold execRdcur
  grind [State.Canon, atHome_canon, State.issueReq_canon]

@[simp] theorem execWrnc_canon {a ctx line : Nat} {d : Line} {mask : BitVec 128} {u : Upset} (h : s.Canon) : nextCanon
    (execWrnc a ctx line d mask u s) := by
  unfold execWrnc
  grind [State.Canon, atHome_canon, State.issueReq_canon]

@[simp] theorem execAtomh_canon {a ctx addr : Nat} {op : HomeAtomic} {u : Upset} (h : s.Canon) : nextCanon (execAtomh
    a ctx addr op u s) := by
  unfold execAtomh
  grind [State.Canon, atHome_canon, State.issueReq_canon]

theorem onMessage_canon {s : State} {p : CMsg → Bool} {f : CMsg → State → State} (h : s.Canon)
    (hf : ∀ m s, s.Canon → (f m s).Canon) : nextCanon (onMessage s p f) := by
  unfold onMessage
  split
  next heq =>
    rw [nextCanon_next]
    split
    · exact hf _ _ (State.cohTake_canon h heq)
    · exact h
  next => exact nextCanon_next.mpr h

@[simp] theorem execSnpshr_canon {a line : Nat} (h : s.Canon) : nextCanon (execSnpshr a line s) := by
  unfold execSnpshr
  grind [State.Canon, onMessage_canon, State.takeSnpShr_canon]

@[simp] theorem execSnpinv_canon {a line : Nat} (h : s.Canon) : nextCanon (execSnpinv a line s) := by
  unfold execSnpinv
  grind [State.Canon, onMessage_canon, State.takeSnpInv_canon]

@[simp] theorem execSnpcur_canon {a line : Nat} (h : s.Canon) : nextCanon (execSnpcur a line s) := by
  unfold execSnpcur
  grind [State.Canon, onMessage_canon, State.takeSnpCur_canon]

@[simp] theorem execSnprsp_canon {a line : Nat} (h : s.Canon) : nextCanon (execSnprsp a line s) := by
  unfold execSnprsp
  split
  · exact nextCanon_next.mpr h
  · refine onMessage_canon h fun m t ht => ?_
    split
    · exact State.settled_canon (State.takeSnpRsp_canon ht)
    · exact ht

@[simp] theorem execCmp_canon {a line : Nat} (h : s.Canon) : nextCanon (execCmp a line s) := by
  unfold execCmp
  grind [State.Canon, onMessage_canon, State.coresMeet_canon, State.takeCmp_canon, State.ctxFail_canon,
    State.countConsumed_canon]

@[simp] theorem execNack_canon {a line : Nat} (h : s.Canon) : nextCanon (execNack a line s) := by
  unfold execNack
  grind [State.Canon, onMessage_canon, State.takeNack_canon]

@[simp] theorem execRequestResend_canon {a line : Nat} {u : Upset} (h : s.Canon) : nextCanon (execRequestResend a line
    u s) := by
  unfold execRequestResend
  split
  · exact nextCanon_ite (nextCanon_next.mpr h) (nextCanon_next.mpr (State.homeTake_canon (State.setCohReq_canon h)))
  · exact nextCanon_next.mpr h

@[simp] theorem execInstallAck_canon {a line : Nat} (h : s.Canon) : nextCanon (execInstallAck a line s) := by
  unfold execInstallAck
  grind [State.Canon, onMessage_canon, State.settled_canon, State.endTrans_canon]

@[simp] theorem execLineData_canon {a line : Nat} {u : Upset} (h : s.Canon) : nextCanon (execLineData a line u s) := by
  unfold execLineData
  grind [State.Canon, onMessage_canon, State.dataError_canon, State.settled_canon, State.homeGets_canon,
    State.coresMeet_canon, State.takeData_canon]

@[simp] theorem State.swpStartWrite_canon {n : Nat} {v : Word} (h : s.Canon) : (State.swpStartWrite s n v).Canon := by
  simp [State.swpStartWrite, h]

@[simp] theorem State.swpLenWrite_canon {n : Nat} {v : Word} (h : s.Canon) : (State.swpLenWrite s n v).Canon := by
  simp [State.swpLenWrite, h]

@[simp] theorem State.swpCtrlWrite_canon {n : Nat} {v : Word} (h : s.Canon) : (State.swpCtrlWrite s n v).Canon := by
  unfold State.swpCtrlWrite
  split <;> simp [h]

@[simp] theorem execClean_canon {_m : Master} {n : Nat} {v : Word} (h : s.Canon) : nextCanon (execClean _m n v s) := by
  unfold execClean
  split <;> simp [h]

@[simp] theorem execCleanInv_canon {_m : Master} {n : Nat} {v : Word} (h : s.Canon) : nextCanon (execCleanInv _m n v
    s) := by
  unfold execCleanInv
  split <;> simp [h]

@[simp] theorem State.sweepSide_canon {inv : Bool} {line : Nat} (h : s.Canon) : (State.sweepSide s inv line).Canon := by
  unfold State.sweepSide
  exact State.foldl_canon h fun t i ht =>
    State.ite_canon (State.sideDrop_canon (State.sideClean_canon ht)) (State.sideClean_canon ht)

@[simp] theorem execSweepDone_canon {n : Nat} (h : s.Canon) : nextCanon (execSweepDone n s) := by
  unfold execSweepDone
  split
  · exact nextCanon_next.mpr h
  · refine nextCanon_ite (nextCanon_next.mpr h) ?_
    extract_lets +onlyGivenNames s0 s1 left
    have hs0 : s0.Canon := State.foldl_canon h fun t l ht => State.sweepSide_canon ht
    have hs1 : s1.Canon := State.foldl_canon hs0 fun t l ht =>
      State.ite_canon (State.silentEvict_canon (State.writeBack_canon ht)) (State.writeBack_canon ht)
    exact nextCanon_ite (nextCanon_next.mpr (State.wrapRf_canon.mpr (State.setRf_canon.mpr (State.mapCoh_canon.mpr hs1))))
      (nextCanon_next.mpr (State.mapCoh_canon.mpr hs1))

/-! ### The PCIe endpoint -/

@[simp] theorem State.rewrite_canon {old mask : Nat} (h : s.Canon) : (State.rewrite s old mask).1.Canon := by
  unfold State.rewrite
  refine State.foldl_fst_canon h fun r i hr => ?_
  exact State.ite_fst_canon (State.freshBit_canon hr) (State.ite_fst_canon hr hr)

@[simp] theorem State.mergeMeets_canon {ctx line sector : Nat} {m : BitVec 128} {flips : BitVec 272} (h : s.Canon) :
    (State.mergeMeets s ctx line sector m flips).Canon := by
  unfold State.mergeMeets
  grind [State.Canon, State.lineEnded_canon, State.sectorMeets_canon]

@[simp] theorem State.windowSector_canon {w : Nat} {ep : Bool} {flips : Option (BitVec 272)} {x : Nat × List (Option
    Byte)} (h : s.Canon) : (State.windowSector s w ep flips x).1.Canon := by
  unfold State.windowSector
  grind [State.Canon, State.translate_canon, State.rewrite_canon, State.mergeMeets_canon, State.homeWrite_canon,
    State.cohPoison_canon, State.frameFault_canon]

@[simp] theorem State.settleBytes_canon {w n : Nat} (h : s.Canon) : (State.settleBytes s w n).Canon := by
  simp [State.settleBytes, h]

@[simp] theorem State.windowWrite_canon {t : WriteTlp} (h : s.Canon) : (State.windowWrite s t).Canon := by
  unfold State.windowWrite
  extract_lets +onlyGivenNames w n
  refine State.ite_canon h (State.ite_canon (State.settleBytes_canon (State.satRf_canon.mpr h)) ?_)
  extract_lets +onlyGivenNames ctx va r s1 s2
  have hr : r.1.Canon := State.foldl_fst_canon h fun r x hr => State.windowSector_canon hr
  have hs1 : s1.Canon := State.ite_canon (State.satRf_canon.mpr hr) hr
  exact State.settleBytes_canon (State.ite_canon (State.errRecord_canon hs1) hs1)

@[simp] theorem State.sramWrite_canon {offset : Nat} {bytes : List (Option Byte)} (h : s.Canon) : (State.sramWrite s
    offset bytes).Canon := by
  simp [State.sramWrite, h]

@[simp] theorem execWindowWrite_canon {t : WriteTlp} (h : s.Canon) : nextCanon (execWindowWrite t s) := by
  unfold execWindowWrite
  split <;> simp [h]

@[simp] theorem execBootSramWrite_canon {offset : Nat} {bytes : List (Option Byte)} (h : s.Canon) : nextCanon
    (execBootSramWrite offset bytes s) := by
  unfold execBootSramWrite
  split <;> simp [h]

@[simp] theorem State.sendRead_canon {offset : Nat} {bytes : List Byte} {poison : List Nat} (h : s.Canon) :
    (State.sendRead s offset bytes poison).Canon := by
  simp [State.sendRead, h]

@[simp] theorem State.windowReadSector_canon {w base : Nat} (h : s.Canon) : (State.windowReadSector s w base).1.Canon
    := by
  unfold State.windowReadSector
  grind [State.Canon, State.translate_canon, State.homeFetch_canon, State.frameFault_canon]

@[simp] theorem State.windowRead_canon {offset length : Nat} (h : s.Canon) : (State.windowRead s offset length).Canon
    := by
  unfold State.windowRead
  extract_lets +onlyGivenNames w
  refine State.ite_canon (State.sendRead_canon h) (State.ite_canon (State.sendRead_canon (State.satRf_canon.mpr h)) ?_)
  extract_lets +onlyGivenNames first n r s1 s2
  have hr : r.1.Canon := State.foldl_fst_canon h fun r k hr => State.windowReadSector_canon hr
  have hs1 : s1.Canon := State.ite_canon (State.satRf_canon.mpr hr) hr
  exact State.sendRead_canon (State.satRf_canon.mpr hs1)

@[simp] theorem execWindowRead_canon {offset length : Nat} (h : s.Canon) : nextCanon (execWindowRead offset length s)
    := by
  unfold execWindowRead
  exact nextCanon_ite (nextCanon_next.mpr h) (nextCanon_ite (nextCanon_next.mpr (State.sendRead_canon h))
    (nextCanon_ite (nextCanon_next.mpr (State.sendRead_canon h)) (nextCanon_next.mpr (State.windowRead_canon h))))

@[simp] theorem State.windowBase_canon {w : Nat} {v : Word} (h : s.Canon) : (State.windowBase s w v).Canon := by
  unfold State.windowBase
  split <;> simp [h]

@[simp] theorem execWindowBaseWrite_canon {m : Master} {w : Nat} {v : Word} (h : s.Canon) : nextCanon
    (execWindowBaseWrite m w v s) := by
  unfold execWindowBaseWrite
  split <;> simp [h]

@[simp] theorem State.coreRead_canon {k addr len : Nat} {answer : HostAnswer} (h : s.Canon) : (State.coreRead s k addr
    len answer).Canon := by
  unfold State.coreRead
  grind [State.Canon, State.countConsumed_canon, State.apertureFail_canon, State.errRecord_canon, State.setCore_canon,
    State.coreGets_canon]

@[simp] theorem State.finishRead_canon {id : Nat} {answer : HostAnswer} (h : s.Canon) : (State.finishRead s id
    answer).Canon := by
  unfold State.finishRead
  extract_lets +onlyGivenNames x s1
  have hs1 : s1.Canon := h
  clear_value s1
  split
  · exact h
  · exact State.coreRead_canon hs1
  · split
    · exact hs1
    · split
      · refine State.ite_canon hs1 ?_
        split
        · exact hs1
        · exact State.ite_canon (State.ropeTallyCvt_canon (State.putRope_canon hs1))
            (State.ropeLd_canon (State.putRope_canon hs1))
      · exact hs1

@[simp] theorem execApertureReadCompletion_canon {id : Nat} {answer : HostAnswer} (h : s.Canon) : nextCanon
    (execApertureReadCompletion id answer s) := by
  unfold execApertureReadCompletion
  split <;> simp [h]

@[simp] theorem execCompletionTimeout_canon {id : Nat} (h : s.Canon) : nextCanon (execCompletionTimeout id s) := by
  unfold execCompletionTimeout
  split <;> simp [h]

@[simp] theorem execLinkDown_canon (h : s.Canon) : nextCanon (execLinkDown s) := by
  unfold execLinkDown
  refine nextCanon_ite (nextCanon_next.mpr h) ?_
  extract_lets +onlyGivenNames s1
  have hs1 : s1.Canon := State.satRf_canon.mpr (State.setRf_canon.mpr h)
  exact nextCanon_next.mpr (State.ite_canon (State.foldl_canon hs1 fun t r ht => State.finishRead_canon ht) hs1)

@[simp] theorem execLinkUp_canon {speed width : Nat} {flit : Bool} (h : s.Canon) : nextCanon (execLinkUp speed width
    flit s) := by
  unfold execLinkUp
  refine nextCanon_ite (nextCanon_next.mpr h) (nextCanon_ite ?_ (nextCanon_next.mpr (State.canon_mk.mpr h)))
  exact nextCanon_next.mpr (State.setRf_canon.mpr (State.setRf_canon.mpr (State.setRf_canon.mpr
    (State.setRf_canon.mpr (State.canon_mk.mpr h)))))

@[simp] theorem State.setMsix_canon {n : Nat} {e : MsixEntry} (h : s.Canon) : (State.setMsix s n e).Canon := by
  simp [State.setMsix, h]

@[simp] theorem State.msixFlush_canon {n : Nat} (h : s.Canon) : (State.msixFlush s n).Canon := by
  simp [State.msixFlush, h]

@[simp] theorem State.functionMask_canon {masked : Bool} (h : s.Canon) : (State.functionMask s masked).Canon := by
  unfold State.functionMask
  exact State.ite_canon (State.canon_mk.mpr h) (State.foldl_canon (State.canon_mk.mpr h) fun t n ht =>
    State.msixFlush_canon ht)

@[simp] theorem execMsixUnmask_canon {mask : MsixMask} (h : s.Canon) : nextCanon (execMsixUnmask mask s) := by
  unfold execMsixUnmask
  split
  · exact nextCanon_ite (nextCanon_next.mpr (State.msixFlush_canon (State.setMsix_canon h))) (nextCanon_next.mpr h)
  · exact nextCanon_ite (nextCanon_next.mpr (State.functionMask_canon h)) (nextCanon_next.mpr h)

@[simp] theorem State.msixWord_canon {n part v : Nat} (h : s.Canon) : (State.msixWord s n part v).Canon := by
  unfold State.msixWord
  split <;> simp [h]

/-! ### The die-to-die link layer -/

@[simp] theorem State.setSlice_canon {key : Nat} {x : SliceDir} (h : s.Canon) : (State.setSlice s key x).Canon := by
  simp [State.setSlice, h]

@[simp] theorem State.replay_canon {link key : Nat} (h : s.Canon) : (State.replay s link key).Canon := by
  simp [State.replay, h]

@[simp] theorem State.setStop_canon {die : Nat} {l : List StopMsg} (h : s.Canon) : (State.setStop s die l).Canon := by
  simp [State.setStop, h]

theorem State.sendFrame_canon {s t : State} {link dir slice : Nat} {sent : BitVec 1152} {msgs l : List D2dMsg} {b : Bool}
    (h : s.Canon) (ht : s.sendFrame link dir slice sent msgs = some (t, b, l)) : t.Canon := by
  unfold State.sendFrame at ht
  grind [State.Canon, State.setSlice_canon, State.setStop_canon]

@[simp] theorem State.deliverFrame_canon {link dir slice : Nat} {f : BitVec 1152} {msgs : List D2dMsg} (h : s.Canon) :
    (State.deliverFrame s link dir slice f msgs).Canon := by
  simp [State.deliverFrame, h]

@[simp] theorem State.linkReceive_canon {link dir slice : Nat} {f : BitVec 1152} {msgs : List D2dMsg} (h : s.Canon) :
    (State.linkReceive s link dir slice f msgs).Canon := by
  unfold State.linkReceive
  grind [State.Canon, State.satRf_canon, State.setSlice_canon, State.deliverFrame_canon, State.replay_canon]

@[simp] theorem execD2dFrame_canon {link dir slice : Nat} {sent : D2dSent} {got : BitVec 1152} (h : s.Canon) :
    nextCanon (execD2dFrame link dir slice sent got s) := by
  unfold execD2dFrame
  refine nextCanon_ite (nextCanon_next.mpr h) ?_
  split
  · exact nextCanon_next.mpr h
  next t sequenced begun heq =>
    have ht : t.Canon := State.sendFrame_canon h heq
    exact nextCanon_next.mpr (State.linkReceive_canon (State.ite_canon (State.countPkg_canon.mpr ht) ht))

@[simp] theorem execReplayTimeout_canon {link dir slice : Nat} (h : s.Canon) : nextCanon (execReplayTimeout link dir
    slice s) := by
  unfold execReplayTimeout
  split <;> simp [h]

@[simp] theorem State.fuseLink_canon {link : Nat} (h : s.Canon) : (State.fuseLink s link).Canon := by
  simp [State.fuseLink, h]

@[simp] theorem execD2dWireFail_canon {link dir slice : Nat} (h : s.Canon) : nextCanon (execD2dWireFail link dir slice
    s) := by
  unfold execD2dWireFail
  split <;> simp [h]

/-! ### Who reaches which block of BAR0, and the services of the Square -/

@[simp] theorem State.routeWrite_canon {i : Nat} {v : Word} (h : s.Canon) : (State.routeWrite s i v).Canon := by
  simp [State.routeWrite, h]

@[simp] theorem execRouteWrite_canon {m : Master} {i : Nat} {v : Word} (h : s.Canon) : nextCanon (execRouteWrite m i v
    s) := by
  unfold execRouteWrite
  split <;> simp [h]

@[simp] theorem State.beatWrite_canon {v : Word} (h : s.Canon) : (State.beatWrite s v).Canon := by
  simp [State.beatWrite, h]

@[simp] theorem execBeat_canon {m : Master} {v : Word} (h : s.Canon) : nextCanon (execBeat m v s) := by
  unfold execBeat
  split <;> simp [h]

@[simp] theorem execRuntimeStall_canon (h : s.Canon) : nextCanon (execRuntimeStall s) := by
  unfold execRuntimeStall
  split <;> simp [h]

@[simp] theorem execReeveWdt_canon (h : s.Canon) : nextCanon (execReeveWdt s) := by
  unfold execReeveWdt
  split <;> simp [h]

@[simp] theorem execCoreParity_canon {core : Nat} (h : s.Canon) : nextCanon (execCoreParity core s) := by
  unfold execCoreParity
  split <;> simp [h]

@[simp] theorem execLockLost_canon {g : Nat} (h : s.Canon) : nextCanon (execLockLost g s) := by
  unfold execLockLost
  split <;> simp [h]

@[simp] theorem State.runtimeStop_canon {v : Word} (h : s.Canon) : (State.runtimeStop s v).Canon := by
  simp [State.runtimeStop, h]

@[simp] theorem execRuntimeStop_canon {m : Master} {v : Word} (h : s.Canon) : nextCanon (execRuntimeStop m v s) := by
  unfold execRuntimeStop
  split <;> simp [h]

@[simp] theorem State.ringWrite_canon {ring ptr : Reg} {v : Word} (h : s.Canon) : (State.ringWrite s ring ptr v).Canon
    := by
  simp [State.ringWrite, h]

@[simp] theorem execShadowRingWrite_canon {m : Master} {v : Word} (h : s.Canon) : nextCanon (execShadowRingWrite m v
    s) := by
  unfold execShadowRingWrite
  split <;> simp [h]

@[simp] theorem execErrorRingWrite_canon {m : Master} {v : Word} (h : s.Canon) : nextCanon (execErrorRingWrite m v s)
    := by
  unfold execErrorRingWrite
  split <;> simp [h]

@[simp] theorem execL1Evict_canon {c ctx line : Nat} {invalidate : Bool} (h : s.Canon) : nextCanon (execL1Evict c ctx
    line invalidate s) := by
  unfold execL1Evict
  refine nextCanon_ite (nextCanon_next.mpr h) ?_
  split
  · exact nextCanon_next.mpr h
  · have hc : ∀ l, (s.l1Clean c l).Canon := fun l => State.l1Clean_canon h
    exact nextCanon_next.mpr (State.ite_canon (State.setCluster_canon.mpr (hc _)) (hc _))

/-! ### Power and thermal control -/

@[simp] theorem execPowerSample_canon {watts : Nat} (h : s.Canon) : nextCanon (execPowerSample watts s) := by
  unfold execPowerSample
  split <;> simp [h]

@[simp] theorem execForcedPeriodEnd_canon (h : s.Canon) : nextCanon (execForcedPeriodEnd s) := by
  unfold execForcedPeriodEnd
  split <;> simp [h]

@[simp] theorem State.telemetry_canon {vin : Nat} (h : s.Canon) : (State.telemetry s vin).Canon := by
  unfold State.telemetry
  exact State.foldl_canon (State.setRf_canon.mpr (State.setRf_canon.mpr (State.setRf_canon.mpr h))) fun t d ht =>
    State.setRf_canon.mpr ht

@[simp] theorem execPowerTick_canon {vin : Nat} (h : s.Canon) : nextCanon (execPowerTick vin s) := by
  unfold execPowerTick
  refine nextCanon_ite (nextCanon_next.mpr h) ?_
  extract_lets +onlyGivenNames p first pw n cap total rem r q s1 s2 s3 s4 s5
  have hs1 : s1.Canon := State.canon_mk.mpr h
  have hs4 : s4.Canon := State.setRf_canon.mpr (State.wrapRf_canon.mpr (State.setRf_canon.mpr
    (State.setRf_canon.mpr (State.setRf_canon.mpr (State.setRf_canon.mpr hs1)))))
  have hs5 : s5.Canon := State.ite_canon (State.satRf_canon.mpr (State.setRf_canon.mpr hs4)) hs4
  exact nextCanon_next.mpr (State.telemetry_canon hs5)

@[simp] theorem execHintHeavy_canon {n : Nat} (h : s.Canon) : nextCanon (execHintHeavy n s) := by
  unfold execHintHeavy
  grind [State.Canon, State.runCmd_canon, State.satRf_canon, State.wrapRf_canon, State.setReg_canon, State.setRf_canon,
    State.endCmd_canon]

@[simp] theorem execHintEnd_canon (h : s.Canon) : nextCanon (execHintEnd s) := by
  unfold execHintEnd
  split <;> simp [h]

@[simp] theorem State.dieTemp_canon {d : Nat} {t : Int} (h : s.Canon) : (State.dieTemp s d t).Canon := by
  simp [State.dieTemp, h]

@[simp] theorem execTempRead_canon {celsius : List Int} (h : s.Canon) : nextCanon (execTempRead celsius s) := by
  unfold execTempRead
  exact nextCanon_ite (nextCanon_next.mpr (State.foldl_canon h fun t d ht => State.dieTemp_canon ht)) (nextCanon_next.mpr h)

theorem State.hbmImage_wf (h : s.Canon) : s.hbmImage.wf = true :=
  foldl_keeps (P := fun m : Mem => m.wf = true) (fun _ _ hm =>
    foldl_keeps (P := fun m : Mem => m.wf = true) (fun m _ hm => by split; exacts [Mem.setSector_wf hm, hm]) _ _ hm) _ _ h

@[simp] theorem State.loseWork_canon {s : State} (h : s.Canon) : s.loseWork.Canon :=
  State.canon_mk.mpr (State.hbmImage_wf h)

@[simp] theorem State.railsOff_canon (_ : s.Canon) : (State.railsOff s).Canon :=
  State.canon_mk.mpr rfl

@[simp] theorem State.latchTrip_canon {i : Nat} (h : s.Canon) : (State.latchTrip s i).Canon := by
  simp [State.latchTrip, h]

@[simp] theorem execThermtrip_canon {die : Nat} {t : Int} (h : s.Canon) : nextCanon (execThermtrip die t s) := by
  unfold execThermtrip
  refine nextCanon_ite (nextCanon_next.mpr h) ?_
  extract_lets +onlyGivenNames s1 s2
  have hs1 : s1.Canon := State.latchTrip_canon (State.railsOff_canon h)
  have hs2 : s2.Canon := State.ite_canon (State.setRf_canon.mpr hs1) hs1
  exact nextCanon_next.mpr (State.canon_mk.mpr hs2)

@[simp] theorem execVin48OutOfRange_canon {above : Bool} (h : s.Canon) : nextCanon (execVin48OutOfRange above s) := by
  unfold execVin48OutOfRange
  refine nextCanon_ite (nextCanon_next.mpr h) ?_
  extract_lets +onlyGivenNames b s1
  have hs1 : s1.Canon := State.canon_mk.mpr h
  exact nextCanon_next.mpr (State.ite_canon (State.latchTrip_canon (State.railsOff_canon hs1))
    (State.ite_canon (State.latchTrip_canon hs1) hs1))

@[simp] theorem execPgDrop_canon (h : s.Canon) : nextCanon (execPgDrop s) := by
  unfold execPgDrop
  refine nextCanon_ite (nextCanon_next.mpr h) ?_
  extract_lets +onlyGivenNames b s1
  have hs1 : s1.Canon := State.canon_mk.mpr h
  exact nextCanon_next.mpr (State.ite_canon (State.latchTrip_canon (State.railsOff_canon hs1)) hs1)

@[simp] theorem execVauxLoss_canon (h : s.Canon) : nextCanon (execVauxLoss s) := by
  simp [execVauxLoss, h]

@[simp] theorem execVaux3v3Present_canon (h : s.Canon) : nextCanon (execVaux3v3Present s) := by
  simp [execVaux3v3Present, h]

/-! ### Resets, the bundle, the boot stages and retirement -/

@[simp] theorem State.showFuses_canon (h : s.Canon) : (State.showFuses s).Canon := by
  simp [State.showFuses, h]

@[simp] theorem State.tapReset_canon (h : s.Canon) : (State.tapReset s).Canon := by
  simp [State.tapReset, h]

@[simp] theorem State.coldReset_canon {kind : Nat} (h : s.Canon) : (State.coldReset s kind).Canon := by
  simp [State.coldReset, h]

@[simp] theorem State.powerOnStart_canon (h : s.Canon) : (State.powerOnStart s).Canon := by
  unfold State.powerOnStart
  split <;> simp [h]

@[simp] theorem execPowerOnReset_canon (h : s.Canon) : nextCanon (execPowerOnReset s) := by
  unfold execPowerOnReset
  split <;> simp [h]

@[simp] theorem execVin48InRange_canon (h : s.Canon) : nextCanon (execVin48InRange s) := by
  simp [execVin48InRange, h]

@[simp] theorem execPerstRelease_canon (h : s.Canon) : nextCanon (execPerstRelease s) := by
  unfold execPerstRelease
  split <;> simp [h]

@[simp] theorem State.refuseReset_canon (h : s.Canon) : (State.refuseReset s).Canon := by
  simp [State.refuseReset, h]

@[simp] theorem State.coldWrite_canon (h : s.Canon) : (State.coldWrite s).Canon := by
  simp [State.coldWrite, h]

@[simp] theorem execCold_canon {source : Option BarWrite} (h : s.Canon) : nextCanon (execCold source s) := by
  unfold execCold
  split
  · refine nextCanon_ite (nextCanon_next.mpr h) ?_
    extract_lets +onlyGivenNames b s1
    have hs1 : s1.Canon := State.canon_mk.mpr h
    exact nextCanon_next.mpr (State.ite_canon (State.coldReset_canon hs1) hs1)
  · exact nextCanon_ite (nextCanon_next.mpr (State.coldWrite_canon h)) (nextCanon_next.mpr h)

@[simp] theorem State.cleanCaches_canon (h : s.Canon) : (State.cleanCaches s).Canon := by
  unfold State.cleanCaches
  extract_lets +onlyGivenNames s1 s2
  have hs1 : s1.Canon := State.foldl_canon h fun t n ht => by
    split
    · exact State.memTake_canon ht
    · exact ht
  have hs2 : s2.Canon := State.foldl_canon hs1 fun t n ht => State.sweepSide_canon ht
  exact State.canon_mk.mpr hs2

@[simp] theorem State.failAll_canon (h : s.Canon) : (State.failAll s).Canon :=
  State.foldl_canon h fun _ _ ht => State.abortJob_canon (State.endCtxWork_canon ht)

@[simp] theorem State.startVerify_canon (h : s.Canon) : (State.startVerify s).Canon := by
  simp [State.startVerify, h]

@[simp] theorem State.goWrite_canon {v : Word} (h : s.Canon) : (State.goWrite s v).Canon := by
  simp [State.goWrite, h]

@[simp] theorem execVerify_canon {m : Master} {v : Word} (h : s.Canon) : nextCanon (execVerify m v s) := by
  unfold execVerify
  split <;> simp [h]

@[simp] theorem State.endVerify_canon (h : s.Canon) : (State.endVerify s).Canon := by
  simp [State.endVerify, h]

@[simp] theorem State.keepMemReset_canon (h : s.Canon) : (State.keepMemReset s).Canon := by
  unfold State.keepMemReset
  grind [State.Canon, State.loseWork_canon, State.cleanCaches_canon, State.failAll_canon, State.startVerify_canon,
    State.setRf_canon, State.showFuses_canon]

@[simp] theorem State.keepMemWrite_canon (h : s.Canon) : (State.keepMemWrite s).Canon := by
  simp [State.keepMemWrite, h]

@[simp] theorem State.resetWrite_canon {v : Word} (h : s.Canon) : (State.resetWrite s v).Canon := by
  unfold State.resetWrite
  split <;> simp [h]

@[simp] theorem execKeepMem_canon {m : Master} {v : Word} (h : s.Canon) : nextCanon (execKeepMem m v s) := by
  unfold execKeepMem
  split <;> simp [h]

@[simp] theorem State.halt_canon {error : Nat} (h : s.Canon) : (State.halt s error).Canon := by
  simp [State.halt, h]

@[simp] theorem State.endRom_canon (h : s.Canon) : (State.endRom s).Canon := by
  simp [State.endRom, h]

@[simp] theorem execRomTime_canon (h : s.Canon) : nextCanon (execRomTime s) := by
  unfold execRomTime
  split <;> simp [h]

@[simp] theorem execVerifyTime_canon (h : s.Canon) : nextCanon (execVerifyTime s) := by
  unfold execVerifyTime
  split <;> simp [h]

@[simp] theorem execBootStageOverrun_canon (h : s.Canon) : nextCanon (execBootStageOverrun s) := by
  unfold execBootStageOverrun
  split <;> simp [h]

@[simp] theorem execClocks_canon {locked : Bool} (h : s.Canon) : nextCanon (execClocks locked s) := by
  unfold execClocks
  refine nextCanon_ite (nextCanon_next.mpr h) (nextCanon_ite (nextCanon_next.mpr (State.halt_canon h)) ?_)
  extract_lets +onlyGivenNames op v s1 s2
  have hs1 : s1.Canon := State.setRf_canon.mpr (State.setRf_canon.mpr (State.setRf_canon.mpr h))
  have hs2 : s2.Canon := State.setRf_canon.mpr (State.setRf_canon.mpr (State.setRf_canon.mpr hs1))
  exact nextCanon_next.mpr (State.setRf_canon.mpr (State.setRf_canon.mpr hs2))

@[simp] theorem execLinks_canon {failedSlices : List (Nat × Nat × Nat)} (h : s.Canon) : nextCanon (execLinks
    failedSlices s) := by
  unfold execLinks
  refine nextCanon_ite (nextCanon_next.mpr h) ?_
  extract_lets +onlyGivenNames bad good s1
  have hs1 : s1.Canon := State.setRf_canon.mpr (State.canon_mk.mpr h)
  refine nextCanon_ite (nextCanon_next.mpr (State.setRf_canon.mpr hs1)) ?_
  exact nextCanon_next.mpr (State.halt_canon (State.packageFatal_canon (State.setRf_canon.mpr
    (State.foldl_canon hs1 fun t l ht => State.fuseLink_canon ht))))

@[simp] theorem State.showMap_canon (h : s.Canon) : (State.showMap s).Canon := by
  unfold State.showMap
  exact State.foldl_canon h fun t n ht => State.setReg_canon.mpr ht

@[simp] theorem State.selfTest_canon {fails : List (Nat × Nat)} (h : s.Canon) : (State.selfTest s fails).Canon :=
  State.foldl_canon h fun _ _ ht => State.ite_canon (State.writeEntry_canon ht) ht

@[simp] theorem State.mapInForce_canon (h : s.Canon) : (State.mapInForce s).Canon := by
  simp [State.mapInForce, h]

@[simp] theorem execClusters_canon {selftestFails : List (Nat × Nat)} (h : s.Canon) : nextCanon (execClusters
    selftestFails s) := by
  unfold execClusters
  refine nextCanon_ite (nextCanon_next.mpr h) ?_
  extract_lets +onlyGivenNames s1
  have hs1 : s1.Canon := State.mapInForce_canon (State.showMap_canon (State.ite_canon h (State.selfTest_canon h)))
  exact nextCanon_ite (nextCanon_next.mpr (State.halt_canon (State.setRf_canon.mpr hs1)))
    (nextCanon_next.mpr (State.setRf_canon.mpr (State.setRf_canon.mpr hs1)))

@[simp] theorem execMemory_canon {trained : BitVec 20} (h : s.Canon) : nextCanon (execMemory trained s) := by
  unfold execMemory
  refine nextCanon_ite (nextCanon_next.mpr h) ?_
  extract_lets +onlyGivenNames s1
  have hs1 : s1.Canon := State.foldl_canon h fun t n ht => State.setRf_canon.mpr (State.setRf_canon.mpr ht)
  refine nextCanon_ite ?_ ?_
  · exact nextCanon_next.mpr (State.halt_canon (State.setRf_canon.mpr (State.canon_mk.mpr hs1)))
  · exact nextCanon_next.mpr (State.setRf_canon.mpr (State.ite_canon hs1 (State.setRf_canon.mpr (State.canon_mk.mpr rfl))))

@[simp] theorem State.commitSvn_canon (h : s.Canon) : (State.commitSvn s).Canon := by
  simp [State.commitSvn, h]

@[simp] theorem execServices_canon (h : s.Canon) : nextCanon (execServices s) := by
  unfold execServices
  refine nextCanon_ite (nextCanon_next.mpr h) (nextCanon_ite (nextCanon_next.mpr (State.halt_canon h)) ?_)
  extract_lets +onlyGivenNames ports b s1 s2 s3
  have hs1 : s1.Canon := State.canon_mk.mpr h
  have hs2 : s2.Canon := State.foldl_canon hs1 fun t p ht => State.setRf_canon.mpr ht
  have hs3 : s3.Canon := State.createCtx_canon.mpr (State.setRf_canon.mpr hs2)
  exact nextCanon_next.mpr (State.setRf_canon.mpr (State.commitSvn_canon hs3))

@[simp] theorem State.keepPorts_canon {old : State} (h : s.Canon) : (State.keepPorts s old).Canon := by
  unfold State.keepPorts
  exact State.foldl_canon h fun t p ht => State.setRf_canon.mpr (State.setRf_canon.mpr ht)

@[simp] theorem State.functionLevelReset_canon (h : s.Canon) : (State.functionLevelReset s).Canon := by
  unfold State.functionLevelReset
  extract_lets +onlyGivenNames s0 idle clusters pcie pod doe s1
  have hs0 : s0.Canon := State.foldl_canon (State.failAll_canon h) fun t c ht =>
    State.l1InvAll_canon (State.foldl_canon ht fun t l ht => State.l1Clean_canon ht)
  have hs1 : s1.Canon := State.canon_mk.mpr hs0
  exact State.setRf_canon.mpr (State.keepPorts_canon (State.setRf_canon.mpr hs1))

@[simp] theorem execFunctionLevelReset_canon (h : s.Canon) : nextCanon (execFunctionLevelReset s) := by
  unfold execFunctionLevelReset
  exact nextCanon_ite (nextCanon_next.mpr (State.canon_mk.mpr h)) (nextCanon_ite
    (nextCanon_next.mpr (State.createCtx_canon.mpr (State.functionLevelReset_canon h)))
    (nextCanon_ite (nextCanon_next.mpr (State.functionLevelReset_canon h)) (nextCanon_next.mpr h)))

@[simp] theorem State.retireWrite_canon {v : Word} (h : s.Canon) : (State.retireWrite s v).Canon := by
  unfold State.retireWrite
  grind [State.Canon, State.setRf_canon, State.clusterFail_canon]

@[simp] theorem execRetirementRequest_canon {m : Master} {v : Word} (h : s.Canon) : nextCanon (execRetirementRequest m
    v s) := by
  unfold execRetirementRequest
  split <;> simp [h]

/-! ### The DOE mailbox and attestation over it -/

@[simp] theorem State.doeReply_canon {r : DoeReply} (h : s.Canon) : (State.doeReply s r).Canon := by
  simp [State.doeReply, h]

@[simp] theorem State.negotiated_canon {n : Nat} (h : s.Canon) : (State.negotiated s n).Canon := by
  simp [State.negotiated, h]

@[simp] theorem State.spdmRecord_canon {m : List Byte} (h : s.Canon) : (State.spdmRecord s m).Canon := by
  simp [State.spdmRecord, h]

@[simp] theorem State.setSession_canon {p : SessionPhase} (h : s.Canon) : (State.setSession s p).Canon := by
  simp [State.setSession, h]

theorem State.spdm_canon {s : State} {version : Nat} {request : List Byte} {serve : State → List Byte → State}
    (h : s.Canon) (hserve : ∀ s m, s.Canon → (serve s m).Canon) :
    (s.spdm version request serve).Canon :=
  State.ite_canon h (State.ite_canon (State.doeReply_canon h) (State.ite_canon (State.doeReply_canon h)
    (State.ite_canon (State.doeReply_canon h) (hserve _ _ h))))

theorem State.afterStep_canon {s : State} {n : Nat} {m : List Byte} {serve : State → State} (h : s.Canon)
    (hserve : ∀ s, s.Canon → (serve s).Canon) : (s.afterStep n m serve).Canon := by
  unfold State.afterStep
  split
  · exact State.doeReply_canon h
  · exact hserve _ (State.spdmRecord_canon h)

@[simp] theorem execDoeDiscovery_canon {request : List Byte} (h : s.Canon) : nextCanon (execDoeDiscovery request s) := by
  unfold execDoeDiscovery
  refine nextCanon_ite (nextCanon_next.mpr h) (nextCanon_ite (nextCanon_next.mpr (State.doeReply_canon h)) ?_)
  exact nextCanon_next.mpr (State.ite_canon (State.doeReply_canon h) (State.doeReply_canon h))

@[simp] theorem execUnsupportedDoeObject_canon {request : List Byte} (h : s.Canon) : nextCanon
    (execUnsupportedDoeObject request s) := by
  unfold execUnsupportedDoeObject
  split <;> simp [h]

@[simp] theorem execDoeAbort_canon (h : s.Canon) : nextCanon (execDoeAbort s) := by
  simp [execDoeAbort, h]

@[simp] theorem execGetVersion_canon {request : List Byte} (h : s.Canon) : nextCanon (execGetVersion request s) :=
  nextCanon_next.mpr (State.spdm_canon h fun _ _ hs =>
    State.doeReply_canon (State.negotiated_canon (State.spdmRecord_canon (State.canon_mk.mpr hs))))

@[simp] theorem execGetCapabilities_canon {request : List Byte} (h : s.Canon) : nextCanon (execGetCapabilities request
    s) :=
  nextCanon_next.mpr (State.spdm_canon h fun _ _ hs => State.afterStep_canon hs fun _ ht =>
    State.doeReply_canon (State.negotiated_canon ht))

@[simp] theorem execNegotiateAlgorithms_canon {request : List Byte} (h : s.Canon) : nextCanon (execNegotiateAlgorithms
    request s) :=
  nextCanon_next.mpr (State.spdm_canon h fun _ _ hs => State.ite_canon
    (State.afterStep_canon hs fun _ ht => State.doeReply_canon (State.negotiated_canon ht)) (State.doeReply_canon hs))

@[simp] theorem State.aliasSigned_canon (h : s.Canon) : (State.aliasSigned s).1.Canon := by
  simp [State.aliasSigned, h]

@[simp] theorem execGetDigests_canon {request : List Byte} (h : s.Canon) : nextCanon (execGetDigests request s) :=
  nextCanon_next.mpr (State.spdm_canon h fun _ _ hs => State.afterStep_canon hs fun _ ht => State.doeReply_canon ht)

@[simp] theorem execGetCertificate_canon {request : List Byte} (h : s.Canon) : nextCanon (execGetCertificate request
    s) :=
  nextCanon_next.mpr (State.spdm_canon h fun _ _ hs => State.afterStep_canon hs fun _ ht =>
    State.ite_canon (State.doeReply_canon ht) (State.doeReply_canon ht))

@[simp] theorem execChallenge_canon {request : List Byte} (h : s.Canon) : nextCanon (execChallenge request s) :=
  nextCanon_next.mpr (State.spdm_canon h fun _ _ hs => State.afterStep_canon hs fun _ ht =>
    State.ite_canon (State.doeReply_canon ht) (State.doeReply_canon (State.aliasSigned_canon ht)))

@[simp] theorem execGetMeasurements_canon {request : List Byte} (h : s.Canon) : nextCanon (execGetMeasurements request
    s) :=
  nextCanon_next.mpr (State.spdm_canon h fun _ _ hs => State.afterStep_canon hs fun _ ht =>
    State.ite_canon (State.doeReply_canon ht)
      (State.ite_canon (State.doeReply_canon (State.aliasSigned_canon ht)) (State.doeReply_canon ht)))

@[simp] theorem execKeyExchange_canon {request : List Byte} (h : s.Canon) : nextCanon (execKeyExchange request s) :=
  nextCanon_next.mpr (State.spdm_canon h fun _ _ hs => State.afterStep_canon hs fun _ ht =>
    State.ite_canon (State.doeReply_canon ht) (State.doeReply_canon (State.setSession_canon (State.aliasSigned_canon ht))))

@[simp] theorem execFinish_canon {request : List Byte} (h : s.Canon) : nextCanon (execFinish request s) :=
  nextCanon_next.mpr (State.spdm_canon h fun _ _ hs => State.afterStep_canon hs fun _ ht =>
    State.ite_canon (State.doeReply_canon ht) (State.ite_canon
      (State.doeReply_canon (State.setSession_canon (State.canon_mk.mpr ht)))
      (State.doeReply_canon (State.setSession_canon (State.canon_mk.mpr ht)))))

theorem State.inSession_canon {s : State} {m : List Byte} {serve : State → State} (h : s.Canon)
    (hserve : ∀ s, s.Canon → (serve s).Canon) : (s.inSession m serve).Canon := by
  unfold State.inSession
  repeat' split
  · exact State.doeReply_canon h
  · exact hserve _ h
  · exact State.doeReply_canon h

@[simp] theorem execEndSession_canon {request : List Byte} (h : s.Canon) : nextCanon (execEndSession request s) :=
  nextCanon_next.mpr (State.spdm_canon h fun _ _ hs => State.inSession_canon hs fun _ ht =>
    State.doeReply_canon (State.setSession_canon ht))

@[simp] theorem execHeartbeat_canon {request : List Byte} (h : s.Canon) : nextCanon (execHeartbeat request s) :=
  nextCanon_next.mpr (State.spdm_canon h fun _ _ hs => State.inSession_canon hs fun _ ht => State.doeReply_canon ht)

@[simp] theorem execUnsupportedSpdmRequest_canon {request : List Byte} (h : s.Canon) : nextCanon
    (execUnsupportedSpdmRequest request s) :=
  nextCanon_next.mpr (State.ite_canon h (State.ite_canon (State.doeReply_canon h)
    (State.ite_canon (State.doeReply_canon h) (State.doeReply_canon h))))

/-! ### CAIRN, the trace collector, the counters' controls, and the test access port -/

@[simp] theorem execCairn_canon {i : Issue} {f : IFmt} (h : s.Canon) : nextCanon (execCairn i f s) := by
  unfold execCairn
  grind [State.Canon, issueWait_canon, State.trace_canon, State.finish_canon]

@[simp] theorem State.traceStored_canon {r : BitVec 256} (h : s.Canon) : (State.traceStored s r).Canon := by
  simp [State.traceStored, h]

@[simp] theorem State.traceTake_canon {f : TraceFrom} {r : BitVec 256} {rest : List (BitVec 256)} (h : s.Canon) :
    (State.traceTake s f r rest).Canon := by
  unfold State.traceTake
  extract_lets +onlyGivenNames s0 b s1 slot s2
  have hs1 : s1.Canon := State.canon_mk.mpr (State.setTraceQueue_canon.mpr h)
  clear_value s1 slot
  have hs2 : s2.Canon := by
    refine State.ite_canon (State.traceDrop_canon hs1) ?_
    split
    next t ht => exact State.traceStored_canon (State.squareWrite_canon hs1 t ht)
    · exact State.traceDrop_canon hs1
  exact State.traceLost_canon hs2

@[simp] theorem execTraceAdmit_canon {source : TraceSrc} (h : s.Canon) : nextCanon (execTraceAdmit source s) := by
  unfold execTraceAdmit
  extract_lets +onlyGivenNames f
  refine nextCanon_ite (nextCanon_next.mpr h) ?_
  split
  · exact nextCanon_next.mpr h
  · exact nextCanon_ite (nextCanon_next.mpr h) (nextCanon_next.mpr (State.traceTake_canon h))

@[simp] theorem State.traceRingWrite_canon {v : Word} (h : s.Canon) : (State.traceRingWrite s v).Canon := by
  simp [State.traceRingWrite, h]

@[simp] theorem execTraceRingWrite_canon {m : Master} {v : Word} (h : s.Canon) : nextCanon (execTraceRingWrite m v s)
    := by
  unfold execTraceRingWrite
  split <;> simp [h]

@[simp] theorem State.clearCounters_canon (h : s.Canon) : (State.clearCounters s).Canon := by
  simp [State.clearCounters, h]

@[simp] theorem State.ctrCtlWrite_canon {v : Word} (h : s.Canon) : (State.ctrCtlWrite s v).Canon := by
  simp [State.ctrCtlWrite, h]

@[simp] theorem execFreeze_canon {m : Master} {v : Word} (h : s.Canon) : nextCanon (execFreeze m v s) := by
  unfold execFreeze
  split <;> simp [h]

@[simp] theorem execClearAll_canon {m : Master} {v : Word} (h : s.Canon) : nextCanon (execClearAll m v s) := by
  unfold execClearAll
  split <;> simp [h]

@[simp] theorem State.tdo_canon {l : List Bool} (h : s.Canon) : (State.tdo s l).Canon := by
  simp [State.tdo, h]

@[simp] theorem State.bypassShift_canon {bits : List Bool} (h : s.Canon) : (State.bypassShift s bits).Canon := by
  simp [State.bypassShift, h]

@[simp] theorem State.endExtest_canon (h : s.Canon) : (State.endExtest s).Canon := by
  simp [State.endExtest, h]

@[simp] theorem execBypass_canon {bits : List Bool} (h : s.Canon) : nextCanon (execBypass bits s) :=
  nextCanon_ite (nextCanon_next.mpr (State.bypassShift_canon (State.ite_canon (State.endExtest_canon h) h)))
    (nextCanon_next.mpr h)

@[simp] theorem execIdcode_canon {tap : Nat} (h : s.Canon) : nextCanon (execIdcode tap s) := by
  unfold execIdcode
  split <;> simp [h]

@[simp] theorem execSamplePreload_canon {pins bits : List Bool} (h : s.Canon) : nextCanon (execSamplePreload pins bits
    s) :=
  nextCanon_ite (nextCanon_next.mpr h) (nextCanon_ite (nextCanon_next.mpr (State.bypassShift_canon h))
    (nextCanon_next.mpr (State.tdo_canon (State.canon_mk.mpr (State.endExtest_canon h)))))

@[simp] theorem execExtest_canon {bits : List Bool} (h : s.Canon) : nextCanon (execExtest bits s) :=
  nextCanon_ite (nextCanon_next.mpr h) (nextCanon_ite (nextCanon_next.mpr (State.bypassShift_canon h))
    (nextCanon_next.mpr (State.canon_mk.mpr h)))

/-! ### What the registers show, and the sideband -/

@[simp] theorem State.sbSend_canon {l : List Byte} (h : s.Canon) : (State.sbSend s l).Canon := by
  simp [State.sbSend, h]

@[simp] theorem State.tripClear_canon {v : Word} (h : s.Canon) : (State.tripClear s v).Canon := by
  simp [State.tripClear, h]

@[simp] theorem execSbTransfer_canon {off : Nat} {write : Option Word} {parityOk : Bool} (h : s.Canon) : nextCanon
    (execSbTransfer off write parityOk s) := by
  unfold execSbTransfer
  refine nextCanon_ite (nextCanon_next.mpr h) ?_
  split
  · exact nextCanon_next.mpr (State.sbSend_canon h)
  · exact nextCanon_ite (nextCanon_next.mpr (State.canon_mk.mpr h)) (nextCanon_next.mpr (State.ite_canon
      (State.tripClear_canon h) h))

@[simp] theorem execTripClear_canon {v : Word} (h : s.Canon) : nextCanon (execTripClear v s) := by
  simp [execTripClear, h]

@[simp] theorem State.takeAddress_canon {a : BitVec 7} (h : s.Canon) : (State.takeAddress s a).Canon := by
  simp [State.takeAddress, h]

@[simp] theorem execEntdaa_canon {a : BitVec 7} (h : s.Canon) : nextCanon (execEntdaa a s) := by
  simp [execEntdaa, h]

@[simp] theorem execSetdasa_canon {a : BitVec 7} (h : s.Canon) : nextCanon (execSetdasa a s) := by
  simp [execSetdasa, h]

@[simp] theorem execRstdaa_canon (h : s.Canon) : nextCanon (execRstdaa s) := by
  simp [execRstdaa, h]

@[simp] theorem execGetstatus_canon (h : s.Canon) : nextCanon (execGetstatus s) := by
  simp [execGetstatus, h]

/-! ### Writes of BAR0 registers -/

@[simp] theorem State.writeField_canon {r : Reg} {f : RegField} {v : Word} (h : s.Canon) : (State.writeField s r f
    v).Canon := by
  unfold State.writeField
  split <;> simp [h]

@[simp] theorem State.writeFields_canon {r : Reg} {keep : List RF} {v : Word} (h : s.Canon) : (State.writeFields s r
    keep v).Canon :=
  State.foldl_canon h fun _ _ ht => State.writeField_canon ht

@[simp] theorem State.writeReg_canon {m : Master} {r : Reg} {v : Word} (h : s.Canon) : (State.writeReg s m r v).Canon
    := by
  unfold State.writeReg
  grind [State.Canon, State.ringWrite_canon, State.bellHostSignal_canon, State.bellOwnerWrite_canon, State.satRf_canon,
    State.writeFields_canon, State.invWrite_canon, State.ownWrite_canon, State.resolve_canon,
    State.swpStartWrite_canon, State.swpLenWrite_canon, State.swpCtrlWrite_canon, State.windowWake_canon,
    State.windowBase_canon, State.doorbell_canon, State.sqBaseWrite_canon, State.sqCtrlWrite_canon,
    State.sqStatusWrite_canon, State.qdrop_canon, State.cqBaseWrite_canon, State.cqCtrlWrite_canon,
    State.cqHeadWrite_canon, State.routeWrite_canon, State.beatWrite_canon, State.bindingWrite_canon,
    State.goWrite_canon, State.coldWrite_canon, State.keepMemWrite_canon, State.retireWrite_canon,
    State.runtimeStop_canon, State.traceRingWrite_canon, State.ctrCtlWrite_canon]

@[simp] theorem State.msixTableWrite_canon {w : BarWrite} (h : s.Canon) : (State.msixTableWrite s w).Canon := by
  unfold State.msixTableWrite
  split <;> simp [h]

@[simp] theorem State.barWrite_canon {w : BarWrite} (h : s.Canon) : (State.barWrite s w).Canon := by
  unfold State.barWrite
  grind [State.Canon, State.satRf_canon, State.msixTableWrite_canon, State.writeReg_canon]

@[simp] theorem State.barRead_canon {m : Master} {offset size : Nat} (h : s.Canon) : (State.barRead s m offset
    size).1.Canon := by
  unfold State.barRead
  grind [State.Canon, State.satRf_canon]

@[simp] theorem execRds_canon {a ctx line : Nat} {x : LineAccess} (h : s.Canon) : nextCanon (execRds a ctx line x s)
    := by
  unfold execRds
  split
  · exact nextCanon_ite (nextCanon_next.mpr (State.coreGets_canon (State.barRead_canon h))) (agentRead_canon h)
  · exact agentRead_canon h

@[simp] theorem State.lateEnable_canon {r : Reg} {c : BarWrite} (h : s.Canon) : (State.lateEnable s r c).Canon := by
  unfold State.lateEnable
  split <;> simp [h]

@[simp] theorem State.dropWrite_canon {w : BarWrite} (h : s.Canon) : (State.dropWrite s w).Canon := by
  unfold State.dropWrite
  split <;> simp [h]

@[simp] theorem State.bothWrite_canon {r : Reg} {h₀ c : BarWrite} (h : s.Canon) : (State.bothWrite s r h₀ c).Canon := by
  unfold State.bothWrite
  grind [State.Canon, State.writeReg_canon, State.lateEnable_canon, State.dropWrite_canon]

@[simp] theorem execRegisterWrite_canon {w : BarWrite} {rival : Option BarWrite} (h : s.Canon) : nextCanon
    (execRegisterWrite w rival s) := by
  unfold execRegisterWrite
  split
  · exact nextCanon_next.mpr (State.barWrite_canon h)
  · extract_lets +onlyGivenNames a b
    split
    · exact nextCanon_next.mpr (State.bothWrite_canon h)
    · exact nextCanon_next.mpr (State.barWrite_canon (State.barWrite_canon h))

@[simp] theorem State.countOnce_canon {r : Reg} (h : s.Canon) : (State.countOnce s r).Canon := by
  unfold State.countOnce
  grind [State.Canon, State.bump_canon]

@[simp] theorem execCounterWrite_canon {w : BarWrite} {hit : Bool} (h : s.Canon) : nextCanon (execCounterWrite w hit
    s) := by
  have honce : ∀ r, nextCanon (.next (if hit then (s.barWrite w).countOnce r else s.barWrite w)) := fun r =>
    nextCanon_next.mpr (State.ite_canon (State.countOnce_canon (State.barWrite_canon h)) (State.barWrite_canon h))
  unfold execCounterWrite
  split
  · exact nextCanon_ite (honce _) (nextCanon_next.mpr h)
  · exact nextCanon_ite (honce _) (nextCanon_next.mpr h)
  · exact nextCanon_next.mpr h

/-! ### The Haul engine -/

@[simp] theorem State.modHaul_canon {c : Nat} {f : HaulEngine → HaulEngine} (h : s.Canon) : (State.modHaul s c
    f).Canon := by
  simp [State.modHaul, h]

@[simp] theorem haulIssue_canon {i : Issue} {f : VFmt} {ck : Checks} {kind : Rope → HaulKind} {vas : Rope → Nat ×
    Option Nat × Nat} (h : s.Canon) : nextCanon (haulIssue i f ck s kind vas) := by
  unfold haulIssue
  grind [State.Canon, issueWait_canon, State.fail_canon, State.setParty_canon, State.finish_canon, State.modHaul_canon]

@[simp] theorem execHaulCopy_canon {i : Issue} {f : VFmt} (h : s.Canon) : nextCanon (execHaulCopy i f s) := by
  simp [execHaulCopy, h]

@[simp] theorem execHaulGather_canon {i : Issue} {f : VFmt} (h : s.Canon) : nextCanon (execHaulGather i f s) := by
  simp [execHaulGather, h]

@[simp] theorem execHaulScatter_canon {i : Issue} {f : VFmt} (h : s.Canon) : nextCanon (execHaulScatter i f s) := by
  simp [execHaulScatter, h]

@[simp] theorem execHaulRed_canon {i : Issue} {f : VFmt} (h : s.Canon) : nextCanon (execHaulRed i f s) := by
  simp [execHaulRed, h]

@[simp] theorem execHaulPut_canon {i : Issue} {f : VFmt} (h : s.Canon) : nextCanon (execHaulPut i f s) := by
  simp [execHaulPut, h]

@[simp] theorem execHaulGet_canon {i : Issue} {f : VFmt} (h : s.Canon) : nextCanon (execHaulGet i f s) := by
  simp [execHaulGet, h]

@[simp] theorem Sess.piece_canon {x : Sess} {d : Desc} {u : Place} {i : List Int} (h : x.Canon) : (Sess.piece x d u
    i).1.Canon := by
  unfold Sess.piece
  grind [State.Canon, Sess.Canon, Sess.read_canon]

@[simp] theorem Sess.indices_canon {x : Sess} {d : Desc} {u : Place} (h : x.Canon) : (Sess.indices x d u).1.Canon :=
  Sess.foldl_fst_canon h fun _ _ hr => Sess.element_canon hr

@[simp] theorem Sess.moves_canon {x : Sess} {scatter : Bool} {src dst : Desc} {us ud : Place} {pairs : List (List Int
    × List Int)} (h : x.Canon) : (Sess.moves x scatter src dst us ud pairs).1.Canon := by
  refine Sess.foldl_fst_canon h fun r e hr => ?_
  split
  · exact hr
  · exact Sess.piece_canon hr

@[simp] theorem Sess.writeAll_canon {x : Sess} {ws : List HWrite} (h : x.Canon) : (Sess.writeAll x ws).Canon :=
  Sess.foldl_canon h fun _ _ ht => Sess.write_canon ht

@[simp] theorem Sess.contributions_canon {x : Sess} {src dst : Desc} {us ud : Place} {pairs : List (List Int × List
    Int)} (h : x.Canon) : (Sess.contributions x src dst us ud pairs).1.Canon := by
  refine Sess.foldl_fst_canon h fun r e hr => ?_
  split
  · exact hr
  · exact Sess.element_canon hr

@[simp] theorem Sess.reduce_canon {x : Sess} {op : Nat} {src dst : Desc} {groups : Table (List Nat)} (h : x.Canon) :
    (Sess.reduce x op src dst groups).Canon := by
  unfold Sess.reduce
  extract_lets +onlyGivenNames w
  refine Sess.foldl_canon h fun y g hy => ?_
  extract_lets +onlyGivenNames a
  split
  · exact Sess.reduceAt_canon hy
  · split
    · exact Sess.write_canon (Sess.read_canon hy)
    · exact Sess.reduceAt_canon hy

@[simp] theorem State.sendPut_canon {c : Nat} {o : HaulOp} {node : Nat} {runs : List MRun} {bell : Option (Nat × Nat)}
    (h : s.Canon) : (State.sendPut s c o node runs bell).Canon := by
  unfold State.sendPut
  extract_lets +onlyGivenNames job m m1 pod s1
  have hm : m.1.Canon := State.takeMsg_canon h
  have hs1 : s1.Canon := by
    unfold s1
    split
    · exact State.canon_mk.mpr hm
    · exact hm
  exact State.sendBells_canon (State.foldl_canon hs1 fun t r ht => State.podSend_canon ht)

@[simp] theorem State.sendGet_canon {c : Nat} {o : HaulOp} {node : Nat} {ls : Option Nat} {runs : List MRun} (h :
    s.Canon) : (State.sendGet s c o node ls runs).Canon := by
  unfold State.sendGet
  extract_lets +onlyGivenNames job m mine m1 pod s1
  have hm : m.1.Canon := State.takeMsg_canon h
  have hs1 : s1.Canon := State.canon_mk.mpr hm
  exact State.foldl_canon hs1 fun t r ht => State.podSend_canon ht

@[simp] theorem Sess.stopHaul_canon {x : Sess} {c : Nat} {o : HaulOp} (h : x.Canon) : (Sess.stopHaul x c o).Canon := by
  unfold Sess.stopHaul
  split <;> simp [h]

@[simp] theorem Sess.haulPlan_canon {x : Sess} {c : Nat} {o : HaulOp} {p : Party} {cx : Ctx} (h : x.Canon) :
    (Sess.haulPlan x c o p cx).1.Canon := by
  unfold Sess.haulPlan
  grind [State.Canon, Sess.Canon, Sess.need_canon, Sess.readDesc_canon, Sess.takeOff_canon]

@[simp] theorem State.haulRun_canon {c : Nat} {o : HaulOp} {p : Party} {cx : Ctx} {host : HostAnswer} (h : s.Canon) :
    (State.haulRun s c o p cx host).Canon := by
  unfold State.haulRun
  grind [State.Canon, Sess.Canon, Sess.haulPlan_canon, State.session_canon, State.modHaul_canon, State.countCl_canon,
    Sess.indices_canon, Sess.stopHaul_canon, Sess.contributions_canon, Sess.commit_canon, Sess.drops_canon,
    Sess.reduce_canon, State.setParty_canon, Sess.moves_canon, State.sendPut_canon, Sess.writeAll_canon,
    State.sendGet_canon, State.bellRemote_canon]

@[simp] theorem execHaulOpStart_canon {c : Nat} {host : HostAnswer} (h : s.Canon) : nextCanon (execHaulOpStart c host
    s) := by
  unfold execHaulOpStart
  refine nextCanon_ite (nextCanon_next.mpr h) ?_
  extract_lets +onlyGivenNames q
  split
  · exact nextCanon_next.mpr h
  · refine nextCanon_ite (nextCanon_next.mpr h) ?_
    split
    · exact nextCanon_next.mpr (State.haulRun_canon h)
    · exact nextCanon_next.mpr h

@[simp] theorem execHaulMilestone_canon {c : Nat} (h : s.Canon) : nextCanon (execHaulMilestone c s) := by
  unfold execHaulMilestone
  refine nextCanon_ite (nextCanon_next.mpr h) ?_
  split
  · exact nextCanon_next.mpr h
  · refine nextCanon_ite (nextCanon_next.mpr h) ?_
    exact nextCanon_next.mpr (State.signalToken_canon (State.traceNow_canon (State.modHaul_canon h)))

/-! ### Uniform, move, predicate and immediate instructions -/

@[simp] theorem uniformBin_canon {i : Issue} {f : VFmt} {modMask : Nat} {op : Nat → Word → Word → Word} (h : s.Canon)
    : nextCanon (uniformBin i f modMask op s) := by
  unfold uniformBin
  grind [State.Canon, issue_canon, State.finish_canon]

@[simp] theorem execUadd_canon {i : Issue} {f : VFmt} (h : s.Canon) : nextCanon (execUadd i f s) := by
  simp [execUadd, h]

@[simp] theorem execUsub_canon {i : Issue} {f : VFmt} (h : s.Canon) : nextCanon (execUsub i f s) := by
  simp [execUsub, h]

@[simp] theorem execUmul_canon {i : Issue} {f : VFmt} (h : s.Canon) : nextCanon (execUmul i f s) := by
  simp [execUmul, h]

@[simp] theorem execUmulhu_canon {i : Issue} {f : VFmt} (h : s.Canon) : nextCanon (execUmulhu i f s) := by
  simp [execUmulhu, h]

@[simp] theorem execUand_canon {i : Issue} {f : VFmt} (h : s.Canon) : nextCanon (execUand i f s) := by
  simp [execUand, h]

@[simp] theorem execUor_canon {i : Issue} {f : VFmt} (h : s.Canon) : nextCanon (execUor i f s) := by
  simp [execUor, h]

@[simp] theorem execUxor_canon {i : Issue} {f : VFmt} (h : s.Canon) : nextCanon (execUxor i f s) := by
  simp [execUxor, h]

@[simp] theorem execUshl_canon {i : Issue} {f : VFmt} (h : s.Canon) : nextCanon (execUshl i f s) := by
  simp [execUshl, h]

@[simp] theorem execUshr_canon {i : Issue} {f : VFmt} (h : s.Canon) : nextCanon (execUshr i f s) := by
  simp [execUshr, h]

@[simp] theorem execUsar_canon {i : Issue} {f : VFmt} (h : s.Canon) : nextCanon (execUsar i f s) := by
  simp [execUsar, h]

@[simp] theorem execUmin_canon {i : Issue} {f : VFmt} (h : s.Canon) : nextCanon (execUmin i f s) := by
  simp [execUmin, h]

@[simp] theorem execUmax_canon {i : Issue} {f : VFmt} (h : s.Canon) : nextCanon (execUmax i f s) := by
  simp [execUmax, h]

@[simp] theorem execUcmp_canon {i : Issue} {f : VFmt} (h : s.Canon) : nextCanon (execUcmp i f s) := by
  unfold execUcmp
  grind [State.Canon, issue_canon, State.finish_canon]

@[simp] theorem execUtov_canon {i : Issue} {f : VFmt} (h : s.Canon) : nextCanon (execUtov i f s) := by
  unfold execUtov
  grind [State.Canon, issue_canon, State.finish_canon]

@[simp] theorem execVtou_canon {i : Issue} {f : VFmt} (h : s.Canon) : nextCanon (execVtou i f s) := by
  unfold execVtou
  grind [State.Canon, issue_canon, State.finish_canon]

@[simp] theorem execPtou_canon {i : Issue} {f : VFmt} (h : s.Canon) : nextCanon (execPtou i f s) := by
  unfold execPtou
  grind [State.Canon, issue_canon, State.finish_canon]

@[simp] theorem execUtop_canon {i : Issue} {f : VFmt} (h : s.Canon) : nextCanon (execUtop i f s) := by
  unfold execUtop
  grind [State.Canon, issue_canon, State.finish_canon]

@[simp] theorem execSread_canon {i : Issue} {f : VFmt} (h : s.Canon) : nextCanon (execSread i f s) := by
  unfold execSread
  grind [State.Canon, issue_canon, State.finish_canon]

@[simp] theorem execVlaneid_canon {i : Issue} {f : VFmt} (h : s.Canon) : nextCanon (execVlaneid i f s) := by
  unfold execVlaneid
  grind [State.Canon, issue_canon, State.finish_canon]

@[simp] theorem predicateBin_canon {i : Issue} {f : VFmt} {op : Mask → Mask → Mask} (h : s.Canon) : nextCanon
    (predicateBin i f op s) := by
  unfold predicateBin
  grind [State.Canon, issue_canon, State.finish_canon]

@[simp] theorem execPand_canon {i : Issue} {f : VFmt} (h : s.Canon) : nextCanon (execPand i f s) := by
  simp [execPand, h]

@[simp] theorem execPor_canon {i : Issue} {f : VFmt} (h : s.Canon) : nextCanon (execPor i f s) := by
  simp [execPor, h]

@[simp] theorem execPxor_canon {i : Issue} {f : VFmt} (h : s.Canon) : nextCanon (execPxor i f s) := by
  simp [execPxor, h]

@[simp] theorem execPandn_canon {i : Issue} {f : VFmt} (h : s.Canon) : nextCanon (execPandn i f s) := by
  simp [execPandn, h]

@[simp] theorem uniformImm_canon {i : Issue} {f : IFmt} {sa legal : Bool} {op : Word → Word → Word → Word} (h :
    s.Canon) : nextCanon (uniformImm i f sa legal op s) := by
  unfold uniformImm
  grind [State.Canon, issue_canon, State.finish_canon]

@[simp] theorem execUmovi_canon {i : Issue} {f : IFmt} (h : s.Canon) : nextCanon (execUmovi i f s) := by
  simp [execUmovi, h]

@[simp] theorem execUmovhi_canon {i : Issue} {f : IFmt} (h : s.Canon) : nextCanon (execUmovhi i f s) := by
  simp [execUmovhi, h]

@[simp] theorem execUaddi_canon {i : Issue} {f : IFmt} (h : s.Canon) : nextCanon (execUaddi i f s) := by
  simp [execUaddi, h]

@[simp] theorem execUandi_canon {i : Issue} {f : IFmt} (h : s.Canon) : nextCanon (execUandi i f s) := by
  simp [execUandi, h]

@[simp] theorem execUori_canon {i : Issue} {f : IFmt} (h : s.Canon) : nextCanon (execUori i f s) := by
  simp [execUori, h]

@[simp] theorem execUshli_canon {i : Issue} {f : IFmt} (h : s.Canon) : nextCanon (execUshli i f s) := by
  simp [execUshli, h]

@[simp] theorem execUshri_canon {i : Issue} {f : IFmt} (h : s.Canon) : nextCanon (execUshri i f s) := by
  simp [execUshri, h]

/-! ### What each command does -/

@[simp] theorem exec_canon {i : Instr} (h : s.Canon) : nextCanon (exec i s) := by
  unfold exec
  split <;> simp [h]

/-! ### One ac of the block's own time -/

@[simp] theorem State.timeTick_canon (h : s.Canon) : (State.timeTick s).Canon := by
  simp [State.timeTick, h]

@[simp] theorem State.countAc_canon {c ev : Nat} {ctxs : List Nat} (h : s.Canon) : (State.countAc s c ev ctxs).Canon
    := by
  unfold State.countAc
  refine State.ite_canon h (State.foldl_canon h fun t k ht => ?_)
  exact State.ite_canon (State.bump_canon.mpr ht) ht

@[simp] theorem State.clusterTick_canon {c : Nat} {k : Cluster} (h : s.Canon) : (State.clusterTick s c k).Canon := by
  unfold State.clusterTick
  grind [State.Canon, State.countAc_canon, State.satRf_canon, State.setCluster_canon]

@[simp] theorem State.acTick_canon (h : s.Canon) : (State.acTick s).Canon := by
  unfold State.acTick
  extract_lets +onlyGivenNames s1
  have hs1 : s1.Canon := State.countPkg_canon.mpr h
  exact State.foldl_canon hs1 fun t e ht => State.ite_canon ht (State.clusterTick_canon ht)

@[simp] theorem State.tick_canon (h : s.Canon) : (State.tick s).Canon := by
  unfold State.tick
  grind [State.Canon, State.endRom_canon, State.endVerify_canon, State.timeTick_canon, State.acTick_canon,
    State.coresMeet_canon, State.settled_canon]

theorem step_canon (h : s.Canon) : nextCanon (step s) := by
  unfold step
  split
  · exact nextCanon_next.mpr (State.tick_canon h)
  · exact exec_canon (State.canon_mk.mpr h)

end Sys2Proof.Machine

section
open Sys2Proof Sys2Proof.Machine

/-- Settles O60: whatever a step runs, the next state's memory is in canonical form (`step_canon`). -/
theorem memoryStaysCanonical : Obligations.MemoryStaysCanonical := by
  unfold Obligations.MemoryStaysCanonical
  intro s t hs ht
  exact step_canon (s := s) hs t ht

end

/-! PROOF. The instructions of a rope that only write registers of the rope (06_instruction_set.md Tables 6.9 to
6.11): the order of integers as words, and what a retired issue leaves. -/

namespace Sys2Proof.Machine

variable {s : State} {i : Issue} {g : Guard} {ck : Checks} {k : IssueCtx}

/-! ### Integers of a word -/

theorem signed_toNat {w : Nat} (x : BitVec w) : signed w x.toNat = x.toInt := by
  have hlt : x.toNat < 2 ^ (w - 1) ↔ 2 * x.toNat < 2 ^ w := by
    cases w with
    | zero => simp [BitVec.eq_nil x]
    | succ w => rw [Nat.add_sub_cancel, Nat.pow_succ]; omega
  simp [signed, Nat.mod_eq_of_lt x.isLt, BitVec.toInt_eq_toNat_cond, hlt]

/-- The value of a word as an integer type: two's complement, or its number. -/
theorem asInt_toNat (sgn : Bool) {w : Nat} (x : BitVec w) :
    asInt sgn w x.toNat = if sgn then x.toInt else (x.toNat : Int) := by
  cases sgn
  · simp [asInt, Nat.mod_eq_of_lt x.isLt]
  · simp [asInt, signed_toNat]

/-- Order of integer values is the order of the words, signed or unsigned. -/
theorem asInt_lt_iff (sgn : Bool) {w : Nat} (x y : BitVec w) :
    asInt sgn w x.toNat < asInt sgn w y.toNat ↔ (if sgn then x.slt y else x.ult y) = true := by
  cases sgn
  · simp [asInt_toNat, BitVec.ult]
  · simp [asInt_toNat, BitVec.slt]

theorem asInt_le_iff (sgn : Bool) {w : Nat} (x y : BitVec w) :
    asInt sgn w x.toNat ≤ asInt sgn w y.toNat ↔ (if sgn then y.slt x else y.ult x) = false := by
  rw [← not_lt, asInt_lt_iff, Bool.not_eq_true]

theorem asInt_inj (sgn : Bool) {w : Nat} (x y : BitVec w) : asInt sgn w x.toNat = asInt sgn w y.toNat ↔ x = y := by
  cases sgn
  · simp [asInt_toNat, BitVec.toNat_inj]
  · simp [asInt_toNat, BitVec.toInt_inj]

/-- Choosing by `≤` and by `<` agree: where they differ, the two words are the same. -/
theorem ite_asInt_le (sgn : Bool) {w : Nat} (x y : BitVec w) :
    (if asInt sgn w x.toNat ≤ asInt sgn w y.toNat then x else y) = if (if sgn then x.slt y else x.ult y) then x else y := by
  simp only [← asInt_lt_iff]
  rcases lt_trichotomy (asInt sgn w x.toNat) (asInt sgn w y.toNat) with h | h | h
  · rw [if_pos h.le, if_pos h]
  · rw [if_pos h.le, if_neg h.not_lt, (asInt_inj sgn x y).mp h]
  · rw [if_neg h.not_ge, if_neg h.not_gt]

theorem ite_asInt_le' (sgn : Bool) {w : Nat} (x y : BitVec w) :
    (if asInt sgn w x.toNat ≤ asInt sgn w y.toNat then y else x) = if (if sgn then x.slt y else x.ult y) then y else x := by
  simp only [← asInt_lt_iff]
  rcases lt_trichotomy (asInt sgn w x.toNat) (asInt sgn w y.toNat) with h | h | h
  · rw [if_pos h.le, if_pos h]
  · rw [if_pos h.le, if_neg h.not_lt, (asInt_inj sgn x y).mp h]
  · rw [if_neg h.not_ge, if_neg h.not_gt]

/-- The conditions of R192 in terms of the words. -/
theorem icond_asInt (sgn : Bool) {w c : Nat} (x y : BitVec w) (hc : c < 6) :
    icond c (asInt sgn w x.toNat) (asInt sgn w y.toNat) =
      let less := fun x y : BitVec w => if sgn then x.slt y else x.ult y
      if c = 0 then x == y else if c = 1 then x != y else if c = 2 then less x y
      else if c = 3 then !less y x else if c = 4 then less y x else !less x y := by
  have heq : (asInt sgn w x.toNat == asInt sgn w y.toNat) = (x == y) := by
    rw [Bool.eq_iff_iff, beq_iff_eq, beq_iff_eq, asInt_inj]
  have hlt : ∀ x y : BitVec w, decide (asInt sgn w x.toNat < asInt sgn w y.toNat) = if sgn then x.slt y else x.ult y :=
    fun x y => by rw [Bool.eq_iff_iff, decide_eq_true_iff, asInt_lt_iff]
  have hle : ∀ x y : BitVec w, decide (asInt sgn w x.toNat ≤ asInt sgn w y.toNat) =
      !(if sgn then y.slt x else y.ult x) := fun x y => by
    rw [Bool.eq_iff_iff, decide_eq_true_iff, asInt_le_iff, Bool.not_eq_true']
  interval_cases c
  · simp [icond, heq]
  · simp [icond, bne, heq]
  · simp [icond, hlt]
  · simp [icond, hle]
  · simp [icond, hlt]
  · simp [icond, hle]

/-! ### Operands in reach -/

theorem vecLegal_of_inReach {v n field : Nat} (h : inReach v n field) : vecLegal field n = true := by
  rcases h with h | h
  · simp [vecLegal, h]
  · simp [vecLegal, h.1]

theorem vecRange_of_inReach {v n field : Nat} (hn : 0 < n) (h : inReach v n field) : vecRange v field n = true := by
  rcases h with h | h
  · simp [vecRange, h]
  · have hlt : field + n - 1 < v := by omega
    simp [vecRange, hlt]

/-- A single register below VREGS, or the zero operand. -/
theorem inReach_one {v field : Nat} (h : field = 255 ∨ field < v) : inReach v 1 field :=
  h.imp_right fun h => ⟨Nat.mod_one _, h⟩

theorem srcLegal_of_reach {v n field : Nat} {uni : Bool} (h : if uni then field < 64 else inReach v n field) :
    srcLegal uni field n = true := by
  cases uni
  · exact vecLegal_of_inReach h
  · simpa [srcLegal, uLegal] using h

theorem srcRange_of_reach {v n field : Nat} {uni : Bool} (hn : 0 < n)
    (h : if uni then field < 64 else inReach v n field) : srcRange v uni field n = true := by
  cases uni
  · exact vecRange_of_inReach hn h
  · rfl

theorem tyRegs_pos (ty : Nat) : 0 < tyRegs ty := by
  rcases tyRegs_cases ty with h | h <;> omega

/-- The lanes of a value of `n` registers have `32 * n` bits. -/
theorem Rope.lane_lt (r : Rope) (n reg l : Nat) : r.lane n reg l < 2 ^ (32 * n) := by
  unfold Rope.lane
  induction n with
  | zero => simp
  | succ n ih =>
    rw [List.range_succ, List.foldl_append, List.foldl_cons, List.foldl_nil]
    have hb : bits (r.vreg (reg + n)).toNat (32 * l) 32 < 2 ^ 32 := Nat.mod_lt _ (Nat.two_pow_pos 32)
    have hmul : 2 ^ (32 * n) * bits (r.vreg (reg + n)).toNat (32 * l) 32 ≤ 2 ^ (32 * n) * (2 ^ 32 - 1) :=
      Nat.mul_le_mul_left _ (by omega)
    rw [Nat.mul_succ, Nat.pow_add]
    have hsub : 2 ^ (32 * n) * (2 ^ 32 - 1) = 2 ^ (32 * n) * 2 ^ 32 - 2 ^ (32 * n) := by
      rw [Nat.mul_sub, Nat.mul_one]
    have hle : 2 ^ (32 * n) ≤ 2 ^ (32 * n) * 2 ^ 32 := Nat.le_mul_of_pos_right _ (Nat.two_pow_pos 32)
    omega

theorem Rope.operand_lt (r : Rope) (uni : Bool) (n field l : Nat) : r.operand uni n field l < 2 ^ (32 * n) := by
  unfold Rope.operand
  split
  · exact Nat.mod_lt _ (Nat.two_pow_pos _)
  · split
    · exact Nat.two_pow_pos _
    · exact r.lane_lt n field l

/-- A vector operand, lane by lane. -/
theorem Rope.vread_getElem (r : Rope) (field n l : Nat) (hl : l < 32) :
    (r.vread field n)[l]?.getD 0 = r.operand false n field l := Rope.source_getElem r false field n l hl

theorem Rope.vread_length (r : Rope) (field n : Nat) : (r.vread field n).length = 32 := Rope.source_length r false field n

/-- A list mapped, at an index within it. -/
theorem getD_map {α β : Type} (f : α → β) (l : List α) (a : α) (b : β) {j : Nat} (hj : j < l.length) :
    (l.map f)[j]?.getD b = f (l[j]?.getD a) := by
  simp [List.getElem?_eq_getElem hj]

theorem allLanes_getLsbD {l : Nat} (hl : l < 32) : (BitVec.allOnes 32).getLsbD l = true := by
  rw [BitVec.getLsbD_allOnes, decide_eq_true hl]

theorem Rope.setP_wrote (r : Rope) (n : Nat) (v : Mask) : wroteP r (r.setP n v) n (BitVec.allOnes 32) v.getLsbD :=
  ⟨rfl, fun l hl => by rw [Rope.preg_setP, if_pos rfl, allLanes_getLsbD hl, if_pos rfl], fun j h => by simp [h]⟩

/-- A write of a value whose lanes are `val`. -/
theorem Rope.vwrite_wrote_of {r : Rope} {n m : Nat} {e : Mask} {vals : List Nat} {val : Nat → Nat}
    (hlen : vals.length = 32) (hval : ∀ l, l < 32 → vals[l]?.getD 0 % 2 ^ (32 * n) = val l) :
    wroteV r (r.vwrite m n e vals) n m e val := by
  obtain ⟨hrope, hzero, hlanes⟩ := r.vwrite_wrote m n e vals hlen
  refine ⟨hrope, hzero, fun hm => ⟨fun l hl => ?_, (hlanes hm).2⟩⟩
  rw [(hlanes hm).1 l hl, ← hval l hl]

/-! ### An instruction that retires -/

/-- An issue whose checks pass and whose effect is to leave its rope as `r` retires it. -/
theorem issue_finish {r : State → IssueCtx → Rope} (h : s.issues i g k) (hl : ck.legal = true)
    (hr : ck.range k.party.par.vregs = true) (ht : ck.timed = false ∨ k.cx.strict = false)
    (hm : ck.ropeLevel = false ∨ k.e ≠ 0) :
    issue i g ck s (fun s k => s.finish k (r s k)) = .next (s.retired k (r s k)) :=
  issue_ok h.1 h.2 hl hr ht hm

/-- So does one that writes a uniform register. -/
theorem issue_setU {n : Nat} {v : State → IssueCtx → Word} (h : s.issues i g k) (hl : ck.legal = true)
    (hr : ck.range k.party.par.vregs = true) (ht : ck.timed = false ∨ k.cx.strict = false)
    (hm : ck.ropeLevel = false ∨ k.e ≠ 0) :
    ∃ r, issue i g ck s (fun s k => s.finish k (k.rope.setU n (v s k))) = .next (s.retired k r) ∧
      wroteU k.rope r n (v s k) :=
  ⟨_, issue_finish h hl hr ht hm, Rope.setU_wrote _ _ _⟩

/-- So does one that writes the lanes in `e` of a predicate register. -/
theorem issue_writeP {n : Nat} {v : IssueCtx → Mask} {val : Nat → Bool} (h : s.issues i g k) (hl : ck.legal = true)
    (hr : ck.range k.party.par.vregs = true) (ht : ck.timed = false ∨ k.cx.strict = false)
    (hm : ck.ropeLevel = false ∨ k.e ≠ 0) (hval : ∀ l, l < 32 → (v k).getLsbD l = val l) :
    ∃ r, issue i g ck s (fun s k => s.finish k (k.rope.writeP n k.e (v k))) = .next (s.retired k r) ∧
      wroteP k.rope r n k.e val := by
  refine ⟨_, issue_finish (r := fun _ k => k.rope.writeP n k.e (v k)) h hl hr ht hm, ?_⟩
  obtain ⟨hrope, hlanes, hother⟩ := Rope.writeP_wrote k.rope n k.e (v k)
  exact ⟨hrope, fun l hl => by rw [hlanes l hl, hval l hl], hother⟩

/-- So does one that writes the lanes in `e` of a vector value. -/
theorem issue_vwrite {n m : Nat} {vals : IssueCtx → List Nat} {val : Nat → Nat} (h : s.issues i g k)
    (hl : ck.legal = true) (hr : ck.range k.party.par.vregs = true) (ht : ck.timed = false ∨ k.cx.strict = false)
    (hm : ck.ropeLevel = false ∨ k.e ≠ 0) (hlen : (vals k).length = 32)
    (hval : ∀ l, l < 32 → (vals k)[l]?.getD 0 % 2 ^ (32 * n) = val l) :
    ∃ r, issue i g ck s (fun s k => s.finish k (k.rope.vwrite m n k.e (vals k))) = .next (s.retired k r) ∧
      wroteV k.rope r n m k.e val := by
  exact ⟨_, issue_finish h hl hr ht hm, Rope.vwrite_wrote_of hlen hval⟩

end Sys2Proof.Machine

/-! PROOF. The uniform, immediate, move and predicate instructions and the special registers (06_instruction_set.md
Tables 6.7, 6.9 and 6.10). -/

namespace Sys2Proof.Machine

variable {s : State} {i : Issue} {g : Guard} {ck : Checks} {k : IssueCtx}

/-! ### Two-source uniform instructions -/

theorem uniformBin_gives {f : VFmt} {m : Nat} {op : Nat → Word → Word → Word} (h : s.issues i f.guard k) (he : k.e ≠ 0)
    (hdst : f.dst.toNat < 64) (hsa : f.sa.toNat < 64) (hsb : f.sb.toNat < 64) (hsc : f.sc = 0) (hua : f.ua = false)
    (hub : f.ub = false) (huc : f.uc = false) (hty : f.ty = 0) (hmod : f.mod.toNat &&& (1023 - m) = 0) :
    ∃ r, uniformBin i f m op s = .next (s.retired k r) ∧
      wroteU k.rope r f.dst.toNat (op f.mod.toNat (k.rope.ureg f.sa.toNat) (k.rope.ureg f.sb.toNat)) := by
  have hl : (f.clean { dst := true, sa := true, sb := true, modMask := m } && uLegal f.dst.toNat &&
      uLegal f.sa.toNat && uLegal f.sb.toNat) = true := by
    simp [VFmt.clean, uLegal, hdst, hsa, hsb, hsc, hua, hub, huc, hty, hmod]
  exact issue_setU (v := fun _ k => op f.mod.toNat (k.rope.ureg f.sa.toNat) (k.rope.ureg f.sb.toNat)) h hl rfl
    (.inl rfl) (.inr he)

theorem mulhu_eq (a b : Word) :
    BitVec.ofNat 64 (a.toNat * b.toNat / 2 ^ 64) = (a.zeroExtend 128 * b.zeroExtend 128).extractLsb' 64 64 := by
  have hab : a.toNat * b.toNat % 2 ^ 128 = a.toNat * b.toNat :=
    Nat.mod_eq_of_lt ((Nat.mul_lt_mul'' a.isLt b.isLt).trans_le (by norm_num))
  apply BitVec.eq_of_toNat_eq
  simp only [BitVec.extractLsb'_toNat, BitVec.toNat_mul, BitVec.toNat_setWidth, Nat.shiftRight_eq_div_pow,
    BitVec.toNat_ofNat, Nat.mod_eq_of_lt (show a.toNat < 2 ^ 128 by omega),
    Nat.mod_eq_of_lt (show b.toNat < 2 ^ 128 by omega), hab]

/-- A shift count is bits 5:0 of its register (R192). -/
theorem extractLsb'_six (b : Word) : (b.extractLsb' 0 6).toNat = b.toNat % 64 := by
  simp [BitVec.extractLsb'_toNat]

end Sys2Proof.Machine

section
open Sys2Proof Sys2Proof.Machine

/-- Settles O1: each of the twelve is `uniformBin` with its operation. -/
theorem uniformArithmetic : Obligations.UniformArithmetic := by
  unfold Obligations.UniformArithmetic
  intro s i f k h he hdst hsa hsb hsc hua hub huc hty a b gives
  have hbin : ∀ m op, f.mod.toNat &&& (1023 - m) = 0 → ∃ r, uniformBin i f m op s = .next (s.retired k r) ∧
      wroteU k.rope r f.dst.toNat (op f.mod.toNat a b) := fun m op hmod =>
    uniformBin_gives h he hdst hsa hsb hsc hua hub huc hty hmod
  have hmin : ∀ sgn, bit f.mod.toNat 0 = sgn → f.mod.toNat &&& (1023 - 1) = 0 → ∃ r, execUmin i f s =
      .next (s.retired k r) ∧ wroteU k.rope r f.dst.toNat (if (if sgn then a.slt b else a.ult b) then a else b) := by
    intro sgn hsgn hmod
    rw [← ite_asInt_le, ← hsgn]
    exact hbin 1 _ hmod
  have hmax : ∀ sgn, bit f.mod.toNat 0 = sgn → f.mod.toNat &&& (1023 - 1) = 0 → ∃ r, execUmax i f s =
      .next (s.retired k r) ∧ wroteU k.rope r f.dst.toNat (if (if sgn then a.slt b else a.ult b) then b else a) := by
    intro sgn hsgn hmod
    rw [← ite_asInt_le', ← hsgn]
    exact hbin 1 _ hmod
  simp only [gives, exec_uadd, exec_usub, exec_umul, exec_umulhu, exec_uand, exec_uor, exec_uxor, exec_ushl, exec_ushr,
    exec_usar, exec_umin, exec_umax]
  refine ⟨fun hmod => ?_, fun hmod => ?_, fun hmod => ?_⟩
  · have hz : f.mod.toNat &&& (1023 - 0) = 0 := by simp [hmod]
    have hadd : BitVec.ofNat 64 (a.toNat + b.toNat) = a + b := by rw [BitVec.ofNat_add]; simp
    have hsub : BitVec.ofInt 64 (a.toInt - b.toInt) = a - b := by
      rw [Int.sub_eq_add_neg, BitVec.ofInt_add, BitVec.ofInt_neg, BitVec.ofInt_toInt, BitVec.ofInt_toInt,
        BitVec.sub_eq_add_neg]
    have hmul : BitVec.ofNat 64 (a.toNat * b.toNat) = a * b := by rw [BitVec.ofNat_mul]; simp
    rw [hadd, hsub, hmul, ← mulhu_eq, extractLsb'_six]
    exact ⟨hbin _ _ hz, hbin _ _ hz, hbin _ _ hz, hbin _ _ hz, hbin _ _ hz, hbin _ _ hz, hbin _ _ hz, hbin _ _ hz,
      hbin _ _ hz, hbin _ _ hz⟩
  · exact ⟨hmin false (by rw [hmod]; decide) (by rw [hmod]; decide), hmax false (by rw [hmod]; decide) (by rw [hmod]; decide)⟩
  · exact ⟨hmin true (by rw [hmod]; decide) (by rw [hmod]; decide), hmax true (by rw [hmod]; decide) (by rw [hmod]; decide)⟩

end

namespace Sys2Proof.Machine

variable {s : State} {i : Issue} {k : IssueCtx}

/-! ### Immediates -/

theorem uniformImm_gives {f : IFmt} {sa legal : Bool} {op : Word → Word → Word → Word} (h : s.issues i f.guard k)
    (he : k.e ≠ 0) (hres : f.res = false) (hdst : f.dst.toNat < 64)
    (hsa : (if sa then uLegal f.sa.toNat else f.sa == 0) = true) (hl : legal = true) :
    ∃ r, uniformImm i f sa legal op s = .next (s.retired k r) ∧
      wroteU k.rope r f.dst.toNat (op (k.rope.ureg f.dst.toNat) (k.rope.ureg f.sa.toNat) (f.imm.signExtend 64)) := by
  have hok : (!f.res && uLegal f.dst.toNat && (if sa then uLegal f.sa.toNat else f.sa == 0) && legal) = true := by
    rw [hsa, hl]
    simp [hres, uLegal, hdst]
  exact issue_setU (v := fun _ k => op (k.rope.ureg f.dst.toNat) (k.rope.ureg f.sa.toNat) (f.imm.signExtend 64)) h hok
    rfl (.inl rfl) (.inr he)

/-- The low half of a sign-extended word is the word. -/
theorem signExtend_mod (m : BitVec 32) : (m.signExtend 64).toNat % 2 ^ 32 = m.toNat := by
  have h : (m.signExtend 64).setWidth 32 = m := by
    ext j hj
    rw [BitVec.getElem_setWidth, BitVec.getLsbD_signExtend, if_pos hj, decide_eq_true (Nat.lt_trans hj (by decide)),
      Bool.true_and, BitVec.getLsbD_eq_getElem hj]
  rw [← BitVec.toNat_setWidth, h]

theorem movhi_eq (m : BitVec 32) (d : Word) :
    BitVec.ofNat 64 (d.toNat % 2 ^ 32 + (m.signExtend 64).toNat % 2 ^ 32 * 2 ^ 32) = m ++ d.extractLsb' 0 32 := by
  apply BitVec.eq_of_toNat_eq
  rw [signExtend_mod, BitVec.toNat_append, BitVec.toNat_ofNat, BitVec.extractLsb'_toNat, Nat.shiftRight_zero,
    ← Nat.shiftLeft_add_eq_or_of_lt (Nat.mod_lt _ (by decide)), Nat.shiftLeft_eq]
  omega

/-- A small immediate is its own sign extension. -/
theorem signExtend_small {m : BitVec 32} (h : m.toNat < 64) : (m.signExtend 64).toNat = m.toNat := by
  rw [BitVec.signExtend_eq_setWidth_of_msb_false (by rw [BitVec.msb_eq_decide]; simp; omega), BitVec.toNat_setWidth]
  omega

end Sys2Proof.Machine

section
open Sys2Proof Sys2Proof.Machine

/-- Settles O2: the immediates of `uniformImm`, and three instructions that write one register. -/
theorem uniformImmediates : Obligations.UniformImmediates := by
  unfold Obligations.UniformImmediates
  intro s i k
  refine ⟨fun f h he hres hdst => ?_, fun f h he hdst hsa hsb hsc hua hub huc hty hmod => ?_, fun f h hres hdst => ?_⟩
  · intro a d m gives
    simp only [gives, exec_umovi, exec_umovhi, exec_uaddi, exec_uandi, exec_uori, exec_ushli, exec_ushri]
    refine ⟨fun hsa => ?_, fun hsa => ?_⟩
    · have himm : ∀ op, ∃ r, uniformImm i f false true op s = .next (s.retired k r) ∧
          wroteU k.rope r f.dst.toNat (op d a m) := fun op => uniformImm_gives h he hres hdst (by simp [hsa]) rfl
      rw [← movhi_eq]
      exact ⟨himm _, himm _⟩
    · have himm : ∀ legal op, legal = true → ∃ r, uniformImm i f true legal op s = .next (s.retired k r) ∧
          wroteU k.rope r f.dst.toNat (op d a m) := fun legal op hl =>
        uniformImm_gives h he hres hdst (by simp [uLegal, hsa]) hl
      refine ⟨himm _ _ rfl, himm _ _ rfl, himm _ _ rfl, fun hsmall => ?_⟩
      rw [← signExtend_small hsmall]
      exact ⟨himm _ _ (decide_eq_true hsmall), himm _ _ (decide_eq_true hsmall)⟩
  · rw [exec_ptou]
    have hl : (f.clean { dst := true, sa := true } && uLegal f.dst.toNat && pLegal f.sa.toNat) = true := by
      simp [VFmt.clean, uLegal, pLegal, hdst, hsa, hsb, hsc, hua, hub, huc, hty, hmod]
    rw [BitVec.zeroExtend_eq_setWidth, ← BitVec.ofNat_toNat]
    exact issue_setU (v := fun _ k => BitVec.ofNat 64 (k.rope.preg f.sa.toNat).toNat) h hl rfl (.inl rfl) (.inr he)
  · rw [exec_vmovi, exec_vaddi]
    refine ⟨fun hsa => ?_, fun hsa => ?_⟩
    · refine issue_vwrite (vals := fun _ => List.replicate 32 f.imm.toNat) h (by simp [hres, hsa])
        (vecRange_of_inReach Nat.one_pos (inReach_one hdst)) (.inl rfl) (.inl rfl) (by simp) fun l hl => ?_
      rw [List.getElem?_replicate_of_lt hl]
      exact Nat.mod_eq_of_lt f.imm.isLt
    · have hr : (vecRange k.party.par.vregs f.dst.toNat 1 && vecRange k.party.par.vregs f.sa.toNat 1) = true := by
        rw [vecRange_of_inReach Nat.one_pos (inReach_one hdst), vecRange_of_inReach Nat.one_pos (inReach_one hsa)]
        rfl
      refine issue_vwrite (vals := fun k => (k.rope.vread f.sa.toNat 1).map fun a => (a + f.imm.toNat) % 2 ^ 32) h
        (by simp [hres]) hr (.inl rfl) (.inl rfl) (by simp [Rope.vread_length]) fun l hl => ?_
      rw [getD_map _ _ 0 _ (by rw [Rope.vread_length]; exact hl), Rope.vread_getElem _ _ _ _ hl, Nat.mul_one, Nat.mod_mod]

end

namespace Sys2Proof.Machine

variable {s : State} {i : Issue} {k : IssueCtx} {f : VFmt}

/-! ### Compares and moves between files -/

/-- The mode of UCMP: condition and signedness take its four bits. -/
theorem compare_mode {m c : Nat} {sgn : Bool} (hc : c < 6) (hm : m = c + 8 * bval sgn) :
    m &&& (1023 - 15) = 0 ∧ bits m 0 3 = c ∧ bit m 3 = sgn := by
  subst hm
  cases sgn <;> interval_cases c <;> decide

theorem tyBits_le (ty : Nat) : tyBits ty ≤ 32 * tyRegs ty := by
  unfold tyBits tyRegs
  repeat' split
  all_goals omega

/-- The bits of the types 0 to 7 (Table 6.6). -/
theorem tyBits_of_lt {ty : Nat} (h : ty < 8) :
    tyBits ty = if tyRegs ty = 2 then 64 else if ty = 6 ∨ ty = 7 then 16 else 32 := by
  interval_cases ty <;> rfl

theorem predicateBin_gives {op : Mask → Mask → Mask} {val : Nat → Bool} (h : s.issues i f.guard k) (hsc : f.sc = 0)
    (hua : f.ua = false) (hub : f.ub = false) (huc : f.uc = false) (hmod : f.mod = 0) (hty : f.ty = 0)
    (hdst : f.dst.toNat < 8) (hsa : f.sa.toNat < 8) (hsb : f.sb.toNat < 8)
    (hval : ∀ l, l < 32 → (op (k.rope.preg f.sa.toNat) (k.rope.preg f.sb.toNat)).getLsbD l = val l) :
    ∃ r, predicateBin i f op s = .next (s.retired k r) ∧ wroteP k.rope r f.dst.toNat k.e val := by
  have hl : (f.clean { dst := true, sa := true, sb := true } && pLegal f.dst.toNat && pLegal f.sa.toNat &&
      pLegal f.sb.toNat) = true := by
    simp [VFmt.clean, pLegal, hdst, hsa, hsb, hsc, hua, hub, huc, hty, hmod]
  exact issue_writeP (v := fun k => op (k.rope.preg f.sa.toNat) (k.rope.preg f.sb.toNat)) h hl rfl (.inl rfl) (.inl rfl)
    hval

theorem ucmp_gives {c : Nat} {sgn : Bool} (h : s.issues i f.guard k) (hsc : f.sc = 0) (hua : f.ua = false)
    (hub : f.ub = false) (huc : f.uc = false) (hty : f.ty = 0) (hc : c < 6) (hmod : f.mod.toNat = c + 8 * bval sgn)
    (hdst : f.dst.toNat < 8) (hsa : f.sa.toNat < 64) (hsb : f.sb.toNat < 64) :
    ∃ r, execUcmp i f s = .next (s.retired k r) ∧ wroteP k.rope r f.dst.toNat k.e fun _ =>
      icond c (asInt sgn 64 (k.rope.ureg f.sa.toNat).toNat) (asInt sgn 64 (k.rope.ureg f.sb.toNat).toNat) := by
  obtain ⟨hmask, hcond, hsgn⟩ := compare_mode hc hmod
  have hl : (f.clean { dst := true, sa := true, sb := true, modMask := 15 } && pLegal f.dst.toNat &&
      uLegal f.sa.toNat && uLegal f.sb.toNat && decide (bits f.mod.toNat 0 3 < 6)) = true := by
    rw [hcond]
    simpa [VFmt.clean, pLegal, uLegal, hdst, hsa, hsb, hsc, hua, hub, huc, hty, hc] using hmask
  refine issue_writeP (v := fun k => if icond (bits f.mod.toNat 0 3)
    (asInt (bit f.mod.toNat 3) 64 (k.rope.ureg f.sa.toNat).toNat)
    (asInt (bit f.mod.toNat 3) 64 (k.rope.ureg f.sb.toNat).toNat) then BitVec.allOnes 32 else 0) h hl rfl (.inl rfl)
    (.inl rfl) fun l hl => ?_
  rw [hcond, hsgn]
  cases icond c (asInt sgn 64 (k.rope.ureg f.sa.toNat).toNat) (asInt sgn 64 (k.rope.ureg f.sb.toNat).toNat)
  · exact BitVec.getLsbD_zero
  · exact allLanes_getLsbD hl

theorem utop_gives (h : s.issues i f.guard k) (hsc : f.sc = 0) (hua : f.ua = false) (hub : f.ub = false)
    (huc : f.uc = false) (hmod : f.mod = 0) (hty : f.ty = 0) (hsb : f.sb = 0) (hdst : f.dst.toNat < 8)
    (hsa : f.sa.toNat < 64) :
    ∃ r, execUtop i f s = .next (s.retired k r) ∧
      wroteP k.rope r f.dst.toNat (BitVec.allOnes 32) fun l => (k.rope.ureg f.sa.toNat).getLsbD l := by
  have hl : (f.clean { dst := true, sa := true } && pLegal f.dst.toNat && uLegal f.sa.toNat) = true := by
    simp [VFmt.clean, pLegal, uLegal, hdst, hsa, hsb, hsc, hua, hub, huc, hty, hmod]
  refine ⟨_, issue_finish (r := fun _ k => k.rope.setP f.dst.toNat (BitVec.ofNat 32 (k.rope.ureg f.sa.toNat).toNat)) h hl
    rfl (.inl rfl) (.inl rfl), ?_⟩
  obtain ⟨hrope, hlanes, hother⟩ := k.rope.setP_wrote f.dst.toNat (BitVec.ofNat 32 (k.rope.ureg f.sa.toNat).toNat)
  refine ⟨hrope, fun l hl => ?_, hother⟩
  rw [hlanes l hl, BitVec.ofNat_toNat, BitVec.getLsbD_setWidth, decide_eq_true hl, Bool.true_and]

theorem utov_gives (h : s.issues i f.guard k) (hsc : f.sc = 0) (hua : f.ua = false) (hub : f.ub = false)
    (huc : f.uc = false) (hmod : f.mod = 0) (hty : f.ty.toNat < 8) (hsb : f.sb = 0)
    (hdst : inReach k.party.par.vregs (tyRegs f.ty.toNat) f.dst.toNat) (hsa : f.sa.toNat < 64) :
    ∃ r, execUtov i f s = .next (s.retired k r) ∧ wroteV k.rope r (tyRegs f.ty.toNat) f.dst.toNat k.e fun _ =>
      (k.rope.ureg f.sa.toNat).toNat % 2 ^ tyBits f.ty.toNat := by
  have hl : (f.clean { dst := true, sa := true, ty := true } && decide (f.ty.toNat < 8) &&
      vecLegal f.dst.toNat (tyRegs f.ty.toNat) && uLegal f.sa.toNat) = true := by
    simp [VFmt.clean, uLegal, hsa, hsb, hsc, hua, hub, huc, hty, hmod, vecLegal_of_inReach hdst]
  refine issue_vwrite (vals := fun k => List.replicate 32 ((k.rope.ureg f.sa.toNat).toNat % 2 ^ tyBits f.ty.toNat)) h hl
    (vecRange_of_inReach (tyRegs_pos _) hdst) (.inl rfl) (.inl rfl) (by simp) fun l hl => ?_
  rw [List.getElem?_replicate_of_lt hl]
  exact Nat.mod_eq_of_lt ((Nat.mod_lt _ (Nat.two_pow_pos _)).trans_le (Nat.pow_le_pow_right (by decide) (tyBits_le _)))

theorem vtou_gives (h : s.issues i f.guard k) (he : k.e ≠ 0) (hsc : f.sc = 0) (hua : f.ua = false) (hub : f.ub = false)
    (huc : f.uc = false) (hmod : f.mod = 0) (hty : f.ty.toNat < 8) (hdst : f.dst.toNat < 64)
    (hsa : inReach k.party.par.vregs (tyRegs f.ty.toNat) f.sa.toNat) (hsb : f.sb.toNat < 64) :
    ∃ r, execVtou i f s = .next (s.retired k r) ∧ wroteU k.rope r f.dst.toNat (BitVec.ofNat 64
      (k.rope.operand false (tyRegs f.ty.toNat) f.sa.toNat ((k.rope.ureg f.sb.toNat).toNat % 32) %
        2 ^ tyBits f.ty.toNat)) := by
  have hl : (f.clean { dst := true, sa := true, sb := true, ty := true } && decide (f.ty.toNat < 8) &&
      uLegal f.dst.toNat && vecLegal f.sa.toNat (tyRegs f.ty.toNat) && uLegal f.sb.toNat) = true := by
    simp [VFmt.clean, uLegal, hdst, hsb, hsc, hua, hub, huc, hty, hmod, vecLegal_of_inReach hsa]
  rw [← Rope.vread_getElem _ _ _ _ (Nat.mod_lt _ (by decide))]
  exact issue_setU (v := fun _ k => BitVec.ofNat 64 (((k.rope.vread f.sa.toNat (tyRegs f.ty.toNat))[
    (k.rope.ureg f.sb.toNat).toNat % 32]?.getD 0) % 2 ^ tyBits f.ty.toNat)) h hl
    (vecRange_of_inReach (tyRegs_pos _) hsa) (.inl rfl) (.inr he)

theorem vlaneid_gives (h : s.issues i f.guard k) (hsc : f.sc = 0) (hua : f.ua = false) (hub : f.ub = false)
    (huc : f.uc = false) (hmod : f.mod = 0) (hty : f.ty = 0) (hsa : f.sa = 0) (hsb : f.sb = 0)
    (hdst : inReach k.party.par.vregs 1 f.dst.toNat) :
    ∃ r, execVlaneid i f s = .next (s.retired k r) ∧ wroteV k.rope r 1 f.dst.toNat k.e fun l => l := by
  have hl : f.clean { dst := true } = true := by
    simp [VFmt.clean, hsa, hsb, hsc, hua, hub, huc, hty, hmod]
  refine issue_vwrite (vals := fun _ => List.range 32) h hl (vecRange_of_inReach Nat.one_pos hdst) (.inl rfl) (.inl rfl)
    (by simp) fun l hl => ?_
  rw [List.getElem?_range hl, Option.getD_some, Nat.mod_eq_of_lt (by omega)]

end Sys2Proof.Machine

section
open Sys2Proof Sys2Proof.Machine

/-- Settles O3, an instruction at a time. -/
theorem uniformMoves : Obligations.UniformMoves := by
  unfold Obligations.UniformMoves
  intro s i f k h hsc hua hub huc vregs n w inReach
  refine ⟨fun c sgn hc hmod hty hdst hsa hsb => ?_, fun hmod => ⟨fun hty hsb hdst hsa => ?_,
    fun hty hdst hsa hsb => ?_, fun hty hsb hdst hsa => ?_, fun hty he hdst hsa hsb => ?_, fun hty hsa hsb hdst => ?_⟩⟩
  · rw [exec_ucmp]
    simpa only [icond_asInt _ _ _ hc] using ucmp_gives h hsc hua hub huc hty hc hmod hdst hsa hsb
  · rw [exec_utop]
    exact utop_gives h hsc hua hub huc hmod hty hsb hdst hsa
  · intro a b gives
    simp only [gives, exec_pand, exec_por, exec_pxor, exec_pandn]
    have hbin : ∀ op val, (∀ l, l < 32 → (op a b).getLsbD l = val l) → ∃ r, predicateBin i f op s =
        .next (s.retired k r) ∧ wroteP k.rope r f.dst.toNat k.e val := fun op val hval =>
      predicateBin_gives h hsc hua hub huc hmod hty hdst hsa hsb hval
    exact ⟨hbin _ _ fun l hl => by simp, hbin _ _ fun l hl => by simp, hbin _ _ fun l hl => by simp,
      hbin _ _ fun l hl => by simp [hl]⟩
  · have hw : w = tyBits f.ty.toNat := (tyBits_of_lt hty).symm
    rw [exec_utov, hw]
    exact utov_gives h hsc hua hub huc hmod hty hsb hdst hsa
  · have hw : w = tyBits f.ty.toNat := (tyBits_of_lt hty).symm
    rw [exec_vtou, hw]
    exact vtou_gives h he hsc hua hub huc hmod hty hdst hsa hsb
  · rw [exec_vlaneid]
    exact vlaneid_gives h hsc hua hub huc hmod hty hsa hsb (inReach_one hdst)

end

namespace Sys2Proof.Machine

variable {s : State} {i : Issue} {k : IssueCtx} {f : VFmt}

/-! ### Special registers -/

theorem sread_gives (h : s.issues i f.guard k) (he : k.e ≠ 0) (hdst : f.dst.toNat < 64) (hsb : f.sb = 0)
    (hsc : f.sc = 0) (hua : f.ua = false) (hub : f.ub = false) (huc : f.uc = false) (hty : f.ty = 0) (hmod : f.mod = 0)
    (htimed : f.sa.toNat < 16 ∨ k.cx.strict = false) {n : Nat} {v : Word} (hn : f.sa.toNat = n)
    (hindex : specialIndex n = true) (hv : s.special k n = some v) :
    ∃ r, execSread i f s = .next (s.retired k r) ∧ wroteU k.rope r f.dst.toNat v := by
  have hl : (f.clean { dst := true, sa := true } && uLegal f.dst.toNat && specialIndex f.sa.toNat) = true := by
    simp [VFmt.clean, uLegal, hdst, hsb, hsc, hua, hub, huc, hty, hmod, hn, hindex]
  have ht : decide (16 ≤ f.sa.toNat) = false ∨ k.cx.strict = false := htimed.imp_left fun h => by simpa using h
  have hvalue : (s.special k f.sa.toNat).getD 0 = v := by rw [hn, hv, Option.getD_some]
  rw [← hvalue]
  exact issue_setU (v := fun s k => (s.special k f.sa.toNat).getD 0) h hl rfl ht (.inr he)

/-- A cluster counter read by SREAD: 0 unless its filter names the rope's context (20 R574). -/
theorem special_counter (s : State) (k : IssueCtx) {j : Nat} (hj : j < 16) :
    s.special k (32 + j) = some (BitVec.ofNat 64
      (if s.rf (.clCtrSel k.c j) .ctx = k.ctx then s.rf (.clCtr k.c j) .value else 0)) := by
  have hlo : ∀ n, n < 32 → 32 + j ≠ n := fun n hn => by omega
  have hhi : 32 ≤ 32 + j ∧ 32 + j ≤ 47 := by omega
  simp [State.special, hhi, hlo]

end Sys2Proof.Machine

section
open Sys2Proof Sys2Proof.Machine

/-- Settles O4, index by index. -/
theorem specialRegisters : Obligations.SpecialRegisters := by
  unfold Obligations.SpecialRegisters
  intro s i f k h he hdst hsb hsc hua hub huc hty hmod htimed gives num isBound
  have hread : ∀ n v, f.sa.toNat = n → specialIndex n = true → s.special k n = some v → gives v := fun n v hn hi hv => by
    simp only [gives, exec_sread]
    exact sread_gives h he hdst hsb hsc hua hub huc hty hmod htimed hn hi hv
  have hactive : BitVec.ofNat 64 k.rope.active.toNat = k.rope.active.zeroExtend 64 := BitVec.ofNat_toNat _ _
  refine ⟨fun h => ?_, fun h => ?_, fun h => ?_, fun h => ?_, fun h => ?_, fun h => ?_, fun h => ⟨fun hb => ?_, fun hb => ?_⟩,
    fun h => ⟨fun hb => ?_, fun hb => ?_⟩, fun h => ?_, fun h => ?_, fun h => ?_, fun h => ?_, fun h => ?_,
    fun j hj hsa => ⟨fun hf => ?_, fun hf => ?_⟩⟩
  · exact hread 0 _ (by rw [h]; rfl) rfl rfl
  · exact hread 1 _ (by rw [h]; rfl) rfl rfl
  · exact hread 2 _ (by rw [h]; rfl) rfl rfl
  · exact hread 3 _ (by rw [h]; rfl) rfl rfl
  · exact hread 4 _ (by rw [h]; rfl) rfl rfl
  · exact hread 5 _ (by rw [h]; rfl) rfl rfl
  · exact hread 6 _ (by rw [h]; rfl) rfl (by simp [State.special, show s.rbit (.podCtxJob k.ctx) .valid = true from hb])
  · exact hread 6 _ (by rw [h]; rfl) rfl (by simp [State.special, show ¬s.rbit (.podCtxJob k.ctx) .valid = true from hb])
  · exact hread 7 _ (by rw [h]; rfl) rfl (by simp [State.special, show s.rbit (.podCtxJob k.ctx) .valid = true from hb])
  · exact hread 7 _ (by rw [h]; rfl) rfl (by simp [State.special, show ¬s.rbit (.podCtxJob k.ctx) .valid = true from hb])
  · exact hread 8 _ (by rw [h]; rfl) rfl rfl
  · exact hactive ▸ hread 9 _ (by rw [h]; rfl) rfl rfl
  · exact hread 10 _ (by rw [h]; rfl) rfl rfl
  · exact hread 16 _ (by rw [h]; rfl) rfl rfl
  · exact hread 17 _ (by rw [h]; rfl) rfl rfl
  · exact hread _ _ hsa (by simp [specialIndex]; omega) (by rw [special_counter s k hj, if_pos hf])
  · exact hread _ _ hsa (by simp [specialIndex]; omega) (by rw [special_counter s k hj, if_neg hf])

end

/-! PROOF. The vector integer instructions, lane by lane (06_instruction_set.md R193, Table 6.10). -/

namespace Sys2Proof.Machine

/-! ### Lane values as words -/

/-- The smaller of two integers, the first where they are the same. -/
theorem ite_asInt_le_swap (sgn : Bool) {w : Nat} (x y : BitVec w) :
    (if asInt sgn w x.toNat ≤ asInt sgn w y.toNat then x else y) = if (if sgn then y.slt x else y.ult x) then y else x := by
  simp only [asInt_le_iff]
  cases if sgn then y.slt x else y.ult x <;> rfl

theorem wrapInt_eq (w : Nat) (z : Int) : wrapInt w z = (BitVec.ofInt w z).toNat := (BitVec.toNat_ofInt z).symm

theorem toNat_mod {w : Nat} (x : BitVec w) : x.toNat % 2 ^ w = x.toNat := Nat.mod_eq_of_lt x.isLt

theorem ofInt_sub_toNat {w : Nat} (x y : BitVec w) : BitVec.ofInt w ((x.toNat : Int) - y.toNat) = x - y := by
  rw [Int.sub_eq_add_neg, BitVec.ofInt_add, BitVec.ofInt_neg, BitVec.ofInt_natCast, BitVec.ofInt_natCast,
    BitVec.ofNat_toNat, BitVec.ofNat_toNat, BitVec.setWidth_eq, BitVec.setWidth_eq, BitVec.sub_eq_add_neg]

/-- The quotient of a remainder is the remainder of the quotient. -/
theorem emod_mul_ediv (z : Int) {b : Int} (c : Int) (hb : 0 < b) : z % (b * c) / b = z / b % c := by
  rw [Int.emod_def, Int.emod_def (z / b), ← Int.ediv_ediv_of_nonneg hb.le, Int.mul_assoc,
    Int.sub_mul_ediv_left _ _ hb.ne']

/-- The high half of a double-width product. -/
theorem ofInt_high (w : Nat) (z : Int) :
    (BitVec.ofInt (2 * w) z).extractLsb' w w = BitVec.ofInt w (z / ((2 ^ w : Nat) : Int)) := by
  apply BitVec.eq_of_toNat_eq
  have hpos : (0 : Int) < ((2 ^ w : Nat) : Int) := by exact_mod_cast Nat.two_pow_pos w
  have hnn : 0 ≤ z % ((2 ^ (2 * w) : Nat) : Int) := Int.emod_nonneg _ (by positivity)
  have hsq : ((2 ^ (2 * w) : Nat) : Int) = ((2 ^ w : Nat) : Int) * ((2 ^ w : Nat) : Int) := by
    rw [Nat.two_mul, Nat.pow_add]
    push_cast
    rfl
  rw [BitVec.extractLsb'_toNat, BitVec.toNat_ofInt, BitVec.toNat_ofInt, Nat.shiftRight_eq_div_pow]
  apply Int.ofNat.inj
  rw [Int.ofNat_eq_natCast, Int.ofNat_eq_natCast, Int.natCast_mod, Int.natCast_ediv, Int.toNat_of_nonneg hnn,
    Int.toNat_of_nonneg (Int.emod_nonneg _ hpos.ne'), hsq, emod_mul_ediv _ _ hpos, Int.emod_emod_of_dvd _ (dvd_refl _)]

/-- The high half of the product of two words, signed or unsigned. -/
theorem wrapInt_mulh (sgn : Bool) {w : Nat} (x y : BitVec w) :
    wrapInt w (asInt sgn w x.toNat * asInt sgn w y.toNat / ((2 ^ w : Nat) : Int)) =
      (if sgn then (x.signExtend (2 * w) * y.signExtend (2 * w)).extractLsb' w w
        else (x.zeroExtend (2 * w) * y.zeroExtend (2 * w)).extractLsb' w w).toNat := by
  have hzero : ∀ z : BitVec w, z.zeroExtend (2 * w) = BitVec.ofInt (2 * w) (z.toNat : Int) := fun z => by
    rw [BitVec.ofInt_natCast, BitVec.ofNat_toNat, BitVec.zeroExtend_eq_setWidth]
  rw [wrapInt_eq, asInt_toNat, asInt_toNat]
  cases sgn
  · simp only [Bool.false_eq_true, if_false]
    rw [hzero, hzero, ← BitVec.ofInt_mul, ofInt_high]
  · simp only [if_true]
    rw [BitVec.signExtend, BitVec.signExtend, ← BitVec.ofInt_mul, ofInt_high]

/-- An arithmetic shift is a division that rounds down. -/
theorem wrapInt_sar {w : Nat} (x : BitVec w) (n : Nat) :
    wrapInt w (signed w x.toNat / ((2 ^ n : Nat) : Int)) = (x.sshiftRight n).toNat := by
  rw [wrapInt_eq, signed_toNat, ← Int.shiftRight_eq_div_pow, BitVec.sshiftRight]

/-- A mask's lanes. -/
theorem maskOf_getLsbD (l : List Bool) {j : Nat} (hj : j < 32) : (maskOf l).getLsbD j = l[j]?.getD false := by
  have hnum : ∀ (l : List Bool) (j : Nat), (l.foldr (fun b a => bval b + 2 * a) 0).testBit j = l[j]?.getD false := by
    intro l
    induction l with
    | nil => simp
    | cons b t ih =>
      intro j
      cases j with
      | zero => cases b <;> simp [bval, Nat.testBit_zero]
      | succ j =>
        rw [List.foldr_cons, Nat.testBit_succ, show (bval b + 2 * t.foldr (fun b a => bval b + 2 * a) 0) / 2 =
          t.foldr (fun b a => bval b + 2 * a) 0 by unfold bval; split <;> omega, ih]
        rfl
  rw [maskOf, BitVec.getLsbD_ofNat, decide_eq_true hj, Bool.true_and, hnum]

/-- Two lists of 32 lanes met lane by lane. -/
theorem zipWith_getD {α β γ : Type} (op : α → β → γ) (xs : List α) (ys : List β) (a : α) (b : β) (c : γ) {j : Nat}
    (hx : j < xs.length) (hy : j < ys.length) :
    (List.zipWith op xs ys)[j]?.getD c = op (xs[j]?.getD a) (ys[j]?.getD b) := by
  simp [hx, hy]

theorem zip_getD {α β : Type} (xs : List α) (ys : List β) (a : α) (b : β) {j : Nat} (hx : j < xs.length)
    (hy : j < ys.length) : (xs.zip ys)[j]?.getD (a, b) = (xs[j]?.getD a, ys[j]?.getD b) :=
  zipWith_getD Prod.mk xs ys a b (a, b) hx hy

theorem range_getD {n j : Nat} (hj : j < n) : (List.range n)[j]?.getD 0 = j := by
  rw [List.getElem?_range hj, Option.getD_some]

/-! ### The types of integers (Table 6.6) -/

theorem tyRegs_integer {ty : Nat} (h : ty < 4) : tyRegs ty = if ty < 2 then 1 else 2 := by
  interval_cases ty <;> rfl

theorem tyBits_integer {ty : Nat} (h : ty < 4) : tyBits ty = 32 * if ty < 2 then 1 else 2 := by
  interval_cases ty <;> rfl

theorem tySigned_integer {ty : BitVec 4} : tySigned ty.toNat = decide (ty = 0 ∨ ty = 2) := by
  rw [Bool.eq_iff_iff, decide_eq_true_iff]
  simp [tySigned, ← BitVec.toNat_inj]

end Sys2Proof.Machine

namespace Sys2Proof.Machine

variable {s : State} {i : Issue} {k : IssueCtx} {f : VFmt}

/-! ### What each form writes -/

theorem vectorBin_gives {op : Nat → Nat → Nat → Nat} {n : Nat} (h : s.issues i f.guard k) (hn : tyRegs f.ty.toNat = n)
    (huc : f.uc = false) (hty : f.ty.toNat < 4) (hmod : f.mod = 0) (hsc : f.sc = 0)
    (hdst : inReach k.party.par.vregs n f.dst.toNat)
    (hsa : if f.ua then f.sa.toNat < 64 else inReach k.party.par.vregs n f.sa.toNat)
    (hsb : if f.ub then f.sb.toNat < 64 else inReach k.party.par.vregs n f.sb.toNat) :
    ∃ r, vectorBin i f op s = .next (s.retired k r) ∧ wroteV k.rope r n f.dst.toNat k.e fun l =>
      op f.ty.toNat (k.rope.operand f.ua n f.sa.toNat l) (k.rope.operand f.ub n f.sb.toNat l) %
        2 ^ tyBits f.ty.toNat := by
  subst hn
  have hpos := tyRegs_pos f.ty.toNat
  have hl : (f.clean { dst := true, sa := true, sb := true, ua := true, ub := true, ty := true } &&
      decide (f.ty.toNat < 4) && vecLegal f.dst.toNat (tyRegs f.ty.toNat) &&
      srcLegal f.ua f.sa.toNat (tyRegs f.ty.toNat) && srcLegal f.ub f.sb.toNat (tyRegs f.ty.toNat)) = true := by
    simp [VFmt.clean, huc, hty, hmod, hsc, vecLegal_of_inReach hdst, srcLegal_of_reach hsa, srcLegal_of_reach hsb]
  have hr : (vecRange k.party.par.vregs f.dst.toNat (tyRegs f.ty.toNat) &&
      srcRange k.party.par.vregs f.ua f.sa.toNat (tyRegs f.ty.toNat) &&
      srcRange k.party.par.vregs f.ub f.sb.toNat (tyRegs f.ty.toNat)) = true := by
    rw [vecRange_of_inReach hpos hdst, srcRange_of_reach hpos hsa, srcRange_of_reach hpos hsb]
    rfl
  refine issue_vwrite h hl hr (.inl rfl) (.inl rfl) (by simp [Rope.source_length]) fun l hl => ?_
  rw [zipWith_getD _ _ _ 0 0 0 (by rw [Rope.source_length]; exact hl) (by rw [Rope.source_length]; exact hl),
    Rope.source_getElem _ _ _ _ _ hl, Rope.source_getElem _ _ _ _ _ hl]
  exact Nat.mod_eq_of_lt ((Nat.mod_lt _ (Nat.two_pow_pos _)).trans_le (Nat.pow_le_pow_right (by decide) (tyBits_le _)))

theorem vectorUn_gives {op : Nat → Nat} {n : Nat} (h : s.issues i f.guard k) (hn : tyRegs f.ty.toNat = n)
    (huc : f.uc = false) (hty : f.ty.toNat < 4) (hmod : f.mod = 0) (hsb : f.sb = 0) (hsc : f.sc = 0) (hub : f.ub = false)
    (hdst : inReach k.party.par.vregs n f.dst.toNat)
    (hsa : if f.ua then f.sa.toNat < 64 else inReach k.party.par.vregs n f.sa.toNat) :
    ∃ r, vectorUn i f op s = .next (s.retired k r) ∧ wroteV k.rope r n f.dst.toNat k.e fun l =>
      op (k.rope.operand f.ua n f.sa.toNat l) % 2 ^ (32 * n) := by
  subst hn
  have hpos := tyRegs_pos f.ty.toNat
  have hl : (f.clean { dst := true, sa := true, ua := true, ty := true } && decide (f.ty.toNat < 4) &&
      vecLegal f.dst.toNat (tyRegs f.ty.toNat) && srcLegal f.ua f.sa.toNat (tyRegs f.ty.toNat)) = true := by
    simp [VFmt.clean, huc, hty, hmod, hsb, hsc, hub, vecLegal_of_inReach hdst, srcLegal_of_reach hsa]
  have hr : (vecRange k.party.par.vregs f.dst.toNat (tyRegs f.ty.toNat) &&
      srcRange k.party.par.vregs f.ua f.sa.toNat (tyRegs f.ty.toNat)) = true := by
    rw [vecRange_of_inReach hpos hdst, srcRange_of_reach hpos hsa]
    rfl
  refine issue_vwrite h hl hr (.inl rfl) (.inl rfl) (by simp [Rope.source_length]) fun l hl => ?_
  rw [getD_map _ _ 0 _ (by rw [Rope.source_length]; exact hl), Rope.source_getElem _ _ _ _ _ hl]

theorem vsel_gives {n : Nat} (h : s.issues i f.guard k) (hn : tyRegs f.ty.toNat = n)
    (huc : f.uc = false) (hty : f.ty.toNat < 4) (hmod : f.mod = 0) (hsc : f.sc.toNat < 8)
    (hdst : inReach k.party.par.vregs n f.dst.toNat)
    (hsa : if f.ua then f.sa.toNat < 64 else inReach k.party.par.vregs n f.sa.toNat)
    (hsb : if f.ub then f.sb.toNat < 64 else inReach k.party.par.vregs n f.sb.toNat) :
    ∃ r, execVsel i f s = .next (s.retired k r) ∧ wroteV k.rope r n f.dst.toNat k.e fun l =>
      if (k.rope.preg f.sc.toNat).getLsbD l then k.rope.operand f.ua n f.sa.toNat l
      else k.rope.operand f.ub n f.sb.toNat l := by
  subst hn
  have hpos := tyRegs_pos f.ty.toNat
  have hl : (f.clean { dst := true, sa := true, sb := true, sc := true, ua := true, ub := true, ty := true } &&
      decide (f.ty.toNat < 4) && vecLegal f.dst.toNat (tyRegs f.ty.toNat) &&
      srcLegal f.ua f.sa.toNat (tyRegs f.ty.toNat) && srcLegal f.ub f.sb.toNat (tyRegs f.ty.toNat) &&
      pLegal f.sc.toNat) = true := by
    simp [VFmt.clean, pLegal, huc, hty, hmod, hsc, vecLegal_of_inReach hdst, srcLegal_of_reach hsa,
      srcLegal_of_reach hsb]
  have hr : (vecRange k.party.par.vregs f.dst.toNat (tyRegs f.ty.toNat) &&
      srcRange k.party.par.vregs f.ua f.sa.toNat (tyRegs f.ty.toNat) &&
      srcRange k.party.par.vregs f.ub f.sb.toNat (tyRegs f.ty.toNat)) = true := by
    rw [vecRange_of_inReach hpos hdst, srcRange_of_reach hpos hsa, srcRange_of_reach hpos hsb]
    rfl
  refine issue_vwrite h hl hr (.inl rfl) (.inl rfl) (by simp [Rope.source_length]) fun l hl => ?_
  rw [getD_map _ _ ((0, 0), 0) _ (by simp [Rope.source_length, hl]), zip_getD _ _ (0, 0) 0
    (by simp [Rope.source_length, hl]) (by simp [hl]), zip_getD _ _ 0 0 (by simp [Rope.source_length, hl])
    (by simp [Rope.source_length, hl]), range_getD hl, Rope.source_getElem _ _ _ _ _ hl,
    Rope.source_getElem _ _ _ _ _ hl]
  refine Nat.mod_eq_of_lt ?_
  split
  · exact Rope.operand_lt _ _ _ _ _
  · exact Rope.operand_lt _ _ _ _ _

theorem vcmp_gives {n : Nat} (h : s.issues i f.guard k) (hn : tyRegs f.ty.toNat = n)
    (huc : f.uc = false) (hty : f.ty.toNat < 4) (hmod : f.mod.toNat < 6) (hsc : f.sc = 0) (hdst : f.dst.toNat < 8)
    (hsa : if f.ua then f.sa.toNat < 64 else inReach k.party.par.vregs n f.sa.toNat)
    (hsb : if f.ub then f.sb.toNat < 64 else inReach k.party.par.vregs n f.sb.toNat) :
    ∃ r, execVcmp i f s = .next (s.retired k r) ∧ wroteP k.rope r f.dst.toNat k.e fun l =>
      icond f.mod.toNat (tyInt f.ty.toNat (k.rope.operand f.ua n f.sa.toNat l))
        (tyInt f.ty.toNat (k.rope.operand f.ub n f.sb.toNat l)) := by
  subst hn
  have hpos := tyRegs_pos f.ty.toNat
  have hmask : f.mod.toNat &&& (1023 - 7) = 0 := by interval_cases f.mod.toNat <;> rfl
  have hl : (f.clean { dst := true, sa := true, sb := true, ua := true, ub := true, ty := true, modMask := 7 } &&
      decide (f.ty.toNat < 4) && decide (f.mod.toNat < 6) && pLegal f.dst.toNat &&
      srcLegal f.ua f.sa.toNat (tyRegs f.ty.toNat) && srcLegal f.ub f.sb.toNat (tyRegs f.ty.toNat)) = true := by
    simpa [VFmt.clean, pLegal, huc, hty, hmod, hsc, hdst, srcLegal_of_reach hsa, srcLegal_of_reach hsb] using hmask
  have hr : (srcRange k.party.par.vregs f.ua f.sa.toNat (tyRegs f.ty.toNat) &&
      srcRange k.party.par.vregs f.ub f.sb.toNat (tyRegs f.ty.toNat)) = true := by
    rw [srcRange_of_reach hpos hsa, srcRange_of_reach hpos hsb]
    rfl
  refine issue_writeP h hl hr (.inl rfl) (.inl rfl) fun l hl => ?_
  rw [maskOf_getLsbD _ hl, zipWith_getD _ _ _ 0 0 false (by rw [Rope.source_length]; exact hl)
    (by rw [Rope.source_length]; exact hl), Rope.source_getElem _ _ _ _ _ hl, Rope.source_getElem _ _ _ _ _ hl]

end Sys2Proof.Machine

namespace Sys2Proof.Machine

/-- The set bits of a word, counted. -/
theorem setBitsOf_length {w : Nat} (hw : w ≤ 64) (x : BitVec w) :
    (setBitsOf 64 x.toNat).length = ((List.range w).filter fun j => x.getLsbD j).length := by
  have hsplit : List.range 64 = List.range w ++ (List.range (64 - w)).map (w + ·) := by
    rw [← List.range_add, Nat.add_sub_cancel' hw]
  have hhigh : ((List.range (64 - w)).map (w + ·)).filter (fun j => x.toNat.testBit j) = [] := by
    rw [List.filter_eq_nil_iff]
    simp only [List.mem_map, forall_exists_index, and_imp]
    rintro _ j - rfl
    simp [BitVec.testBit_toNat]
  rw [setBitsOf, hsplit, List.filter_append, hhigh, List.append_nil]
  rfl

end Sys2Proof.Machine

section
open Sys2Proof Sys2Proof.Machine

/-- Settles O5: lane by lane, each operation of Table 6.10 on numbers is the one on words of the type's width. -/
theorem vectorIntegers : Obligations.VectorIntegers := by
  unfold Obligations.VectorIntegers
  intro s i f k h huc hty vregs n w sgn inReach source a b gives less hsa
  have hn : tyRegs f.ty.toNat = n := tyRegs_integer hty
  have hw : tyBits f.ty.toNat = w := tyBits_integer hty
  have hs : tySigned f.ty.toNat = decide sgn := tySigned_integer
  have hless : ∀ x y : BitVec w, less x y = if decide sgn then x.slt y else x.ult y := fun x y => by simp [less]
  have ha : ∀ l, k.rope.operand f.ua n f.sa.toNat l = (a l).toNat := fun l =>
    (Nat.mod_eq_of_lt (Rope.operand_lt _ _ _ _ _)).symm
  have hb : ∀ l, k.rope.operand f.ub n f.sb.toNat l = (b l).toNat := fun l =>
    (Nat.mod_eq_of_lt (Rope.operand_lt _ _ _ _ _)).symm
  refine ⟨fun hmod hdst => ⟨fun hsb => ⟨fun hsc => ?_, fun hsc => ?_⟩, fun hsb hsc hub => ?_⟩, fun hmod hsc hdst hsb => ?_⟩
  · have hbin : ∀ op (v : Nat → BitVec w), (∀ l, op f.ty.toNat (a l).toNat (b l).toNat % 2 ^ w = (v l).toNat) →
        ∃ r, vectorBin i f op s = .next (s.retired k r) ∧ wroteV k.rope r n f.dst.toNat k.e fun l => (v l).toNat := by
      intro op v hv
      have hgives := vectorBin_gives (op := op) h hn huc hty hmod hsc hdst hsa hsb
      simpa only [hw, ha, hb, hv] using hgives
    simp only [gives, exec_vadd, exec_vsub, exec_vmul, exec_vmulh, exec_vand, exec_vor, exec_vxor, exec_vshl, exec_vshr,
      exec_vsar, exec_vmin, exec_vmax]
    refine ⟨hbin _ _ fun l => ?_, hbin _ _ fun l => ?_, hbin _ _ fun l => ?_, hbin _ _ fun l => ?_, hbin _ _ fun l => ?_,
      hbin _ _ fun l => ?_, hbin _ _ fun l => ?_, hbin _ _ fun l => ?_, hbin _ _ fun l => ?_, hbin _ _ fun l => ?_,
      hbin _ _ fun l => ?_, hbin _ _ fun l => ?_⟩
    · exact (BitVec.toNat_add _ _).symm
    · rw [hw, wrapInt_eq, ofInt_sub_toNat, toNat_mod]
    · exact (BitVec.toNat_mul _ _).symm
    · rw [tyInt, tyInt, hs, hw, wrapInt_mulh, toNat_mod]
      simp only [decide_eq_true_eq]
    · rw [← BitVec.toNat_and, toNat_mod]
    · rw [← BitVec.toNat_or, toNat_mod]
    · rw [← BitVec.toNat_xor, toNat_mod]
    · rw [shiftCount, hw, BitVec.toNat_shiftLeft]
    · rw [shiftCount, hw, ← BitVec.toNat_ushiftRight, toNat_mod]
    · rw [shiftCount, hw, wrapInt_sar, toNat_mod]
    · rw [tyInt, tyInt, hs, hw, ← apply_ite BitVec.toNat, toNat_mod, ite_asInt_le_swap, hless]
    · rw [tyInt, tyInt, hs, hw, ← apply_ite BitVec.toNat, toNat_mod, ite_asInt_le', hless]
  · simpa only [gives, exec_vsel, ha, hb, ← apply_ite BitVec.toNat] using vsel_gives h hn huc hty hmod hsc hdst hsa hsb
  · have hun : ∀ op (v : Nat → BitVec w), (∀ l, op (a l).toNat % 2 ^ (32 * n) = (v l).toNat) →
        ∃ r, vectorUn i f op s = .next (s.retired k r) ∧ wroteV k.rope r n f.dst.toNat k.e fun l => (v l).toNat := by
      intro op v hv
      have hgives := vectorUn_gives (op := op) h hn huc hty hmod hsb hsc hub hdst hsa
      simpa only [ha, hv] using hgives
    simp only [gives, exec_vmov, exec_vpopc]
    refine ⟨hun _ _ fun l => toNat_mod (w := w) _, hun _ _ fun l => ?_⟩
    have hw64 : w ≤ 64 := by rw [← hw, tyBits_integer hty]; split <;> omega
    rw [setBitsOf_length hw64, BitVec.toNat_ofNat]
  · have hcmp := vcmp_gives h hn huc hty hmod hsc hdst hsa hsb
    simp only [tyInt, hs, hw, ha, hb, icond_asInt _ _ _ hmod, ← hless] at hcmp
    rw [exec_vcmp]
    simpa [← BitVec.toNat_inj] using hcmp

end

/-! PROOF. The vector floating-point instructions (06_instruction_set.md R194 to R196, Table 6.11): every value a format
rounds to fits its width, and the lanes each instruction writes. -/

namespace Sys2Proof.Machine

/-! ### What rounding gives fits the format -/

/-- The magnitudes that a format names as largest, infinite and NaN are below its sign bit. -/
def Fmt.Fits (f : Fmt) : Prop :=
  f.maxFin < 2 ^ (f.ebits + f.fbits) ∧ f.infBits < 2 ^ (f.ebits + f.fbits) ∧ f.nan < 2 ^ (f.ebits + f.fbits)

theorem Fmt.roundMag_lt {f : Fmt} (hf : f.Fits) (m : Nat) (e : Int) (sticky : Bool) :
    (f.roundMag m e sticky).1 < 2 ^ (f.ebits + f.fbits) := by
  obtain ⟨hmax, hinf, -⟩ := hf
  unfold Fmt.roundMag
  extract_lets q r mag
  split
  · exact Nat.two_pow_pos _
  · split
    · omega
    · split
      · exact hinf
      · exact hmax
      · exact hmax

theorem Fmt.add_sign_lt {f : Fmt} {m : Nat} (hm : m < 2 ^ (f.ebits + f.fbits)) (neg : Bool) :
    m + f.sign neg < 2 ^ f.width := by
  have hw : 2 ^ f.width = 2 ^ (f.ebits + f.fbits) + 2 ^ (f.ebits + f.fbits) := by
    rw [Fmt.width, Nat.add_assoc, Nat.add_comm, Nat.pow_succ]
    omega
  rw [hw, Fmt.sign]
  split <;> omega

theorem Fmt.roundS_lt {f : Fmt} (hf : f.Fits) (v : Fp) (sticky : Bool) : (f.roundS v sticky).1 < 2 ^ f.width := by
  obtain ⟨hmax, hinf, hnan⟩ := hf
  unfold Fmt.roundS
  split
  · exact Fmt.add_sign_lt hnan false
  · split
    · exact Fmt.add_sign_lt hmax _
    · exact Fmt.add_sign_lt hinf _
  · exact Fmt.add_sign_lt (Fmt.roundMag_lt ⟨hmax, hinf, hnan⟩ _ _ _) _

theorem Fmt.round_lt {f : Fmt} (hf : f.Fits) (v : Fp) : f.round v < 2 ^ f.width := Fmt.roundS_lt hf v false

theorem Fmt.nan_lt {f : Fmt} (hf : f.Fits) : f.nan < 2 ^ f.width := Fmt.add_sign_lt hf.2.2 false

theorem fp32_fits : fp32.Fits := by
  unfold Fmt.Fits
  decide

theorem fp32_roundS_lt (v : Fp) (sticky : Bool) : (fp32.roundS v sticky).1 < 2 ^ 32 := Fmt.roundS_lt fp32_fits v sticky

theorem fp32_round_lt (v : Fp) : fp32.round v < 2 ^ 32 := fp32_roundS_lt v false

theorem fp32_nan_lt : fp32.nan < 2 ^ 32 := by decide

theorem fp32_div_lt (a b : Fp) : fp32.div a b < 2 ^ 32 := by
  unfold Fmt.div
  split
  · exact fp32_nan_lt
  · exact fp32_nan_lt
  · exact fp32_nan_lt
  · exact fp32_round_lt _
  · exact fp32_round_lt _
  · split
    · split
      · exact fp32_nan_lt
      · exact fp32_round_lt _
    · exact fp32_roundS_lt _ _

theorem fp32_sqrt_lt (a : Fp) : fp32.sqrt a < 2 ^ 32 := by
  unfold Fmt.sqrt
  split
  · exact fp32_nan_lt
  · split
    · exact fp32_nan_lt
    · exact fp32_round_lt _
  · split
    · rename_i s _ _ _
      cases s <;> decide
    · split
      · exact fp32_nan_lt
      · exact fp32_roundS_lt _ _

theorem fpRcp_lt (a : Fp) : fpRcp a < 2 ^ 32 := fp32_div_lt _ a

theorem fpRsq_lt (a : Fp) : fpRsq a < 2 ^ 32 := by
  unfold fpRsq
  split
  · exact fp32_nan_lt
  · split
    · exact fp32_nan_lt
    · exact Nat.two_pow_pos _
  · split
    · exact fp32_round_lt _
    · split
      · exact fp32_nan_lt
      · exact fp32_roundS_lt _ _

theorem fpExp2_lt (a : Fp) : fpExp2 a < 2 ^ 32 := by
  have hzero : (0 : Nat) < 2 ^ 32 := Nat.two_pow_pos _
  have hite : ∀ (c : Prop) [Decidable c] (x y : Nat), x < 2 ^ 32 → y < 2 ^ 32 → (if c then x else y) < 2 ^ 32 :=
    fun c _ x y hx hy => by split <;> assumption
  unfold fpExp2
  split
  · exact fp32_nan_lt
  · exact hite _ _ _ hzero (fp32_round_lt _)
  · refine hite _ _ _ (fp32_round_lt _) (hite _ _ _ (hite _ _ _ hzero (fp32_round_lt _))
      (hite _ _ _ (fp32_round_lt _) (hite _ _ _ (fp32_round_lt _) ?_)))
    exact hite _ _ _ (fp32_round_lt _) (fp32_roundS_lt _ _)

theorem fpLog2_lt (a : Fp) : fpLog2 a < 2 ^ 32 := by
  have hite : ∀ (c : Prop) [Decidable c] (x y : Nat), x < 2 ^ 32 → y < 2 ^ 32 → (if c then x else y) < 2 ^ 32 :=
    fun c _ x y hx hy => by split <;> assumption
  unfold fpLog2
  split
  · exact fp32_nan_lt
  · exact hite _ _ _ fp32_nan_lt (fp32_round_lt _)
  · refine hite _ _ _ (fp32_round_lt _) (hite _ _ _ fp32_nan_lt (hite _ _ _ (fp32_round_lt _) ?_))
    exact hite _ _ _ (fp32_roundS_lt _ _) (fp32_roundS_lt _ _)

end Sys2Proof.Machine

namespace Sys2Proof.Machine

variable {s : State} {i : Issue} {k : IssueCtx} {f : VFmt}

/-! ### The float types (Table 6.6) -/

theorem tyRegs_float {ty : BitVec 4} : 4 ≤ ty.toNat → ty.toNat ≤ 7 → tyRegs ty.toNat = if ty = 5 then 2 else 1 := by
  revert ty
  decide

theorem tyFloat_float {ty : BitVec 4} : 4 ≤ ty.toNat → ty.toNat ≤ 7 → tyFloat ty.toNat =
    if ty = 4 then fp32 else if ty = 5 then fp64 else if ty = 6 then fp16 else bf16 := by
  revert ty
  decide

theorem tyFloat_fits {ty : Nat} (h : ty < 10) : (tyFloat ty).Fits ∧ (tyFloat ty).width ≤ 32 * tyRegs ty := by
  unfold Fmt.Fits
  revert ty
  decide

theorem tyBits_float {ty : BitVec 4} : 4 ≤ ty.toNat → ty.toNat ≤ 7 → tyBits ty.toNat =
    if ty = 4 then 32 else if ty = 5 then 64 else 16 := by
  revert ty
  decide

/-- A lane value of the types FP32 to BF16. -/
theorem tyFp_float {ty : BitVec 4} (hlo : 4 ≤ ty.toNat) (hhi : ty.toNat ≤ 7) (v : Nat) : tyFp ty.toNat v =
    (if ty = 4 then fp32 else if ty = 5 then fp64 else if ty = 6 then fp16 else bf16).decode
      (if ty = 4 then v % 2 ^ 32 else if ty = 5 then v % 2 ^ 64 else v % 2 ^ 16) := by
  rw [tyFp, tyFloat_float hlo hhi, tyBits_float hlo hhi]
  split
  · rfl
  · split <;> rfl

/-- What a float type rounds to fits the registers of the type. -/
theorem tyFloat_round_lt {ty : Nat} (h : ty < 10) (v : Fp) : (tyFloat ty).round v < 2 ^ (32 * tyRegs ty) :=
  (Fmt.round_lt (tyFloat_fits h).1 v).trans_le (Nat.pow_le_pow_right (by decide) (tyFloat_fits h).2)

/-! ### What each form writes -/

/-- A float instruction whose sources are in reach, and whose results fit, writes its results. -/
theorem floatOp_gives {hi m : Nat} {two three : Bool} {op : Nat → Nat → Nat → Nat → Nat → Nat} {n : Nat}
    (h : s.issues i f.guard k) (hn : tyRegs f.ty.toNat = n) (hlo : 4 ≤ f.ty.toNat) (hhi : f.ty.toNat ≤ hi)
    (hmod : f.mod.toNat &&& (1023 - m) = 0) (hdst : inReach k.party.par.vregs n f.dst.toNat)
    (hsa : if f.ua then f.sa.toNat < 64 else inReach k.party.par.vregs n f.sa.toNat)
    (hsb : if two then (if f.ub then f.sb.toNat < 64 else inReach k.party.par.vregs n f.sb.toNat)
      else f.sb = 0 ∧ f.ub = false)
    (hsc : if three then (if f.uc then f.sc.toNat < 64 else inReach k.party.par.vregs n f.sc.toNat)
      else f.sc = 0 ∧ f.uc = false)
    (hop : ∀ a b c, op f.ty.toNat f.mod.toNat a b c < 2 ^ (32 * n)) :
    ∃ r, floatOp i f hi m two three op s = .next (s.retired k r) ∧ wroteV k.rope r n f.dst.toNat k.e fun l =>
      op f.ty.toNat f.mod.toNat (k.rope.operand f.ua n f.sa.toNat l) (k.rope.operand f.ub n f.sb.toNat l)
        (k.rope.operand f.uc n f.sc.toNat l) := by
  subst hn
  have hpos := tyRegs_pos f.ty.toNat
  have hb : (two || f.sb == 0) = true ∧ (two || !f.ub) = true ∧
      (!two || srcLegal f.ub f.sb.toNat (tyRegs f.ty.toNat)) = true ∧
      (!two || srcRange k.party.par.vregs f.ub f.sb.toNat (tyRegs f.ty.toNat)) = true := by
    cases two
    · obtain ⟨hsb, hub⟩ := hsb
      simp [hsb, hub]
    · simp [srcLegal_of_reach hsb, srcRange_of_reach hpos hsb]
  have hc : (three || f.sc == 0) = true ∧ (three || !f.uc) = true ∧
      (!three || srcLegal f.uc f.sc.toNat (tyRegs f.ty.toNat)) = true ∧
      (!three || srcRange k.party.par.vregs f.uc f.sc.toNat (tyRegs f.ty.toNat)) = true := by
    cases three
    · obtain ⟨hsc, huc⟩ := hsc
      simp [hsc, huc]
    · simp [srcLegal_of_reach hsc, srcRange_of_reach hpos hsc]
  obtain ⟨hb1, hb2, hb3, hb4⟩ := hb
  obtain ⟨hc1, hc2, hc3, hc4⟩ := hc
  refine issue_vwrite h ?_ ?_ (.inl rfl) (.inl rfl) (by simp [Rope.source_length]) fun l hl => ?_
  · simp only [VFmt.clean, hb1, hb2, hb3, hc1, hc2, hc3, hmod, hlo, hhi, vecLegal_of_inReach hdst,
      srcLegal_of_reach hsa]
    simp
  · simp only [vecRange_of_inReach hpos hdst, srcRange_of_reach hpos hsa, hb4, hc4]
    simp
  · have hlen : ∀ u r, l < (k.rope.source u r (tyRegs f.ty.toNat)).length := fun u r => by
      rw [Rope.source_length]
      exact hl
    rw [zipWith_getD _ _ _ (0, 0) 0 0 (by simp [Rope.source_length, hl]) (hlen _ _),
      zip_getD _ _ 0 0 (hlen _ _) (hlen _ _), Rope.source_getElem _ _ _ _ _ hl, Rope.source_getElem _ _ _ _ _ hl,
      Rope.source_getElem _ _ _ _ _ hl]
    exact Nat.mod_eq_of_lt (hop _ _ _)

theorem vfcmp_gives {n : Nat} (h : s.issues i f.guard k) (hn : tyRegs f.ty.toNat = n) (hlo : 4 ≤ f.ty.toNat)
    (hhi : f.ty.toNat ≤ 7) (hmod : f.mod.toNat < 7) (hsc : f.sc = 0) (huc : f.uc = false) (hdst : f.dst.toNat < 8)
    (hsa : if f.ua then f.sa.toNat < 64 else inReach k.party.par.vregs n f.sa.toNat)
    (hsb : if f.ub then f.sb.toNat < 64 else inReach k.party.par.vregs n f.sb.toNat) :
    ∃ r, execVfcmp i f s = .next (s.retired k r) ∧ wroteP k.rope r f.dst.toNat k.e fun l =>
      Fp.test f.mod.toNat (tyFp f.ty.toNat (k.rope.operand f.ua n f.sa.toNat l))
        (tyFp f.ty.toNat (k.rope.operand f.ub n f.sb.toNat l)) := by
  subst hn
  have hpos := tyRegs_pos f.ty.toNat
  have hmask : f.mod.toNat &&& (1023 - 7) = 0 := by interval_cases f.mod.toNat <;> rfl
  have hl : (f.clean { dst := true, sa := true, sb := true, ua := true, ub := true, ty := true, modMask := 7 } &&
      decide (4 ≤ f.ty.toNat) && decide (f.ty.toNat ≤ 7) && decide (f.mod.toNat < 7) && pLegal f.dst.toNat &&
      srcLegal f.ua f.sa.toNat (tyRegs f.ty.toNat) && srcLegal f.ub f.sb.toNat (tyRegs f.ty.toNat)) = true := by
    simpa [VFmt.clean, pLegal, huc, hlo, hhi, hmod, hsc, hdst, srcLegal_of_reach hsa, srcLegal_of_reach hsb] using hmask
  have hr : (srcRange k.party.par.vregs f.ua f.sa.toNat (tyRegs f.ty.toNat) &&
      srcRange k.party.par.vregs f.ub f.sb.toNat (tyRegs f.ty.toNat)) = true := by
    rw [srcRange_of_reach hpos hsa, srcRange_of_reach hpos hsb]
    rfl
  refine issue_writeP h hl hr (.inl rfl) (.inl rfl) fun l hl => ?_
  rw [maskOf_getLsbD _ hl, zipWith_getD _ _ _ 0 0 false (by rw [Rope.source_length]; exact hl)
    (by rw [Rope.source_length]; exact hl), Rope.source_getElem _ _ _ _ _ hl, Rope.source_getElem _ _ _ _ _ hl]

/-- VFMIN (`top` false) and VFMAX (`top` true) write R195's choice of the two values, rounded to the format. -/
theorem minmax_gives {n : Nat} (top : Bool) (h : s.issues i f.guard k) (hn : tyRegs f.ty.toNat = n)
    (hlo : 4 ≤ f.ty.toNat) (hhi : f.ty.toNat ≤ 7) (hmod : f.mod = 0) (hsc : f.sc = 0) (huc : f.uc = false)
    (hdst : inReach k.party.par.vregs n f.dst.toNat)
    (hsa : if f.ua then f.sa.toNat < 64 else inReach k.party.par.vregs n f.sa.toNat)
    (hsb : if f.ub then f.sb.toNat < 64 else inReach k.party.par.vregs n f.sb.toNat) :
    ∃ r, exec (if top then .vfmax i f else .vfmin i f) s = .next (s.retired k r) ∧
      wroteV k.rope r n f.dst.toNat k.e fun l => (tyFloat f.ty.toNat).round (Fp.minmax top
        (tyFp f.ty.toNat (k.rope.operand f.ua n f.sa.toNat l)) (tyFp f.ty.toNat (k.rope.operand f.ub n f.sb.toNat l))) := by
  have hgives := floatOp_gives (hi := 7) (two := true) (three := false) (m := 0) (op := fun ty _ a b _ =>
    (tyFloat ty).round (Fp.minmax top (tyFp ty a) (tyFp ty b))) h hn hlo hhi (by simp [hmod]) hdst hsa hsb ⟨hsc, huc⟩
    fun _ _ _ => hn ▸ tyFloat_round_lt (by omega) _
  cases top
  · exact hgives
  · exact hgives

end Sys2Proof.Machine

/-! PROOF. The statements on vector floating-point arithmetic and comparisons (06_instruction_set.md R194 to R196,
Tables 6.11 and 6.12). -/

namespace Sys2Proof.Machine

/-! ### Modifiers -/

/-- MOD of an instruction with NEG and ABS of both sources and NEG of C. -/
theorem modifiers_three : ∀ m < 32, m &&& (1023 - 0x1F) = 0 := by decide

/-- MOD of an instruction with NEG and ABS of both sources, bit 2 being reserved. -/
theorem modifiers_two : ∀ m < 32, m.testBit 2 = false → m &&& (1023 - 0x1B) = 0 := by decide

end Sys2Proof.Machine

section
open Sys2Proof Sys2Proof.Machine

/-- Settles O6: the instructions of `floatOp` with their operation, and VFCMP. -/
theorem vectorFloats : Obligations.VectorFloats := by
  unfold Obligations.VectorFloats
  intro s i f k h vregs n inReach source fm bitsOf sign x y z a b c gives hsa
  refine ⟨fun hlo hhi hsb => ?_, fun hty hmod hsc huc hdst => ?_⟩
  · have hn : tyRegs f.ty.toNat = n := tyRegs_float hlo hhi
    have hfm : tyFloat f.ty.toNat = fm := tyFloat_float hlo hhi
    have hfp : ∀ v, tyFp f.ty.toNat v = fm.decode (bitsOf v) := tyFp_float hlo hhi
    have hround : ∀ v, fm.round v < 2 ^ (32 * n) := fun v => by
      rw [← hfm, ← hn]
      exact tyFloat_round_lt (by omega) v
    have ha : ∀ l, opA f.ty.toNat f.mod.toNat (k.rope.operand f.ua n f.sa.toNat l) = a l := fun l => by rw [opA, hfp]; rfl
    have hb : ∀ l, opB f.ty.toNat f.mod.toNat (k.rope.operand f.ub n f.sb.toNat l) = b l := fun l => by rw [opB, hfp]; rfl
    have hc : ∀ l, opC f.ty.toNat f.mod.toNat (k.rope.operand f.uc n f.sc.toNat l) = c l := fun l => by rw [opC, hfp]; rfl
    refine ⟨fun hmod hdst hsc => ?_, fun hsc huc => ⟨fun hmod hneg hdst => ?_, fun hmod hdst => ?_, fun hmod hdst => ?_⟩⟩
    · have hgives := floatOp_gives (hi := 7) (two := true) (three := true) (op := fun ty m a b c =>
        (tyFloat ty).round (((opA ty m a).mul (opB ty m b)).add (opC ty m c))) h hn hlo hhi
        (modifiers_three _ hmod) hdst hsa hsb hsc fun _ _ _ => by rw [hfm]; exact hround _
      simp only [ha, hb, hc, hfm] at hgives
      simp only [gives, exec_vfma]
      exact hgives
    · have htwo : ∀ op : Fp → Fp → Fp, ∃ r, floatOp i f 7 0x1B true false (fun ty m a b _ =>
          (tyFloat ty).round (op (opA ty m a) (opB ty m b))) s = .next (s.retired k r) ∧
          wroteV k.rope r n f.dst.toNat k.e fun l => fm.round (op (a l) (b l)) := fun op => by
        have hgives := floatOp_gives (hi := 7) (two := true) (three := false) (op := fun ty m a b _ =>
          (tyFloat ty).round (op (opA ty m a) (opB ty m b))) h hn hlo hhi (modifiers_two _ hmod hneg) hdst hsa hsb
          ⟨hsc, huc⟩ fun _ _ _ => by rw [hfm]; exact hround _
        simpa only [ha, hb, hfm] using hgives
      simp only [gives, exec_vfadd, exec_vfsub, exec_vfmul]
      exact ⟨htwo _, htwo fun a b => a.add b.neg, htwo _⟩
    · have hmm := fun top => minmax_gives top h hn hlo hhi hmod hsc huc hdst hsa hsb
      simp only [hfp, hfm] at hmm
      exact ⟨hmm false, hmm true⟩
    · rw [exec_vfcmp]
      simpa only [hfp] using vfcmp_gives h hn hlo hhi hmod hsc huc hdst hsa hsb
  · have htyn : f.ty.toNat = 4 := by rw [hty]; rfl
    have hn1 : n = 1 := by simp [n, hty]
    have hn : tyRegs f.ty.toNat = n := by rw [htyn, hn1]; rfl
    have hfm : fm = fp32 := by simp [fm, hty]
    have hbits : ∀ u r l, bitsOf (k.rope.operand u n r l) = k.rope.operand u n r l := fun u r l => by
      simp only [bitsOf, hty, if_true]
      exact Nat.mod_eq_of_lt ((k.rope.operand_lt u n r l).trans_le (by rw [hn1]))
    have hx : ∀ l, fp32.decode (k.rope.operand f.ua n f.sa.toNat l) = x l := fun l => by simp only [x, hfm, hbits]
    have hy : ∀ l, fp32.decode (k.rope.operand f.ub n f.sb.toNat l) = y l := fun l => by simp only [y, hfm, hbits]
    have hfits : ∀ v, v < 2 ^ 32 → v < 2 ^ (32 * n) := fun v hv => hv.trans_le (by rw [hn1])
    refine ⟨fun hsb => ?_, fun hsb hub => ?_⟩
    · have hgives := floatOp_gives (hi := 4) (two := true) (three := false) (m := 0) (op := fun _ _ a b _ =>
        fp32.div (fp32.decode a) (fp32.decode b)) h hn htyn.ge htyn.le (by simp [hmod]) hdst hsa hsb ⟨hsc, huc⟩
        fun _ _ _ => hfits _ (fp32_div_lt _ _)
      simp only [hx, hy] at hgives
      simp only [gives, exec_vfdiv]
      exact hgives
    · have hone : ∀ op : Fp → Nat, (∀ v, op v < 2 ^ 32) → ∃ r, floatOp i f 4 0 false false (fun _ _ a _ _ =>
          op (fp32.decode a)) s = .next (s.retired k r) ∧ wroteV k.rope r n f.dst.toNat k.e fun l => op (x l) :=
        fun op hop => by
        have hgives := floatOp_gives (hi := 4) (two := false) (three := false) (m := 0) (op := fun _ _ a _ _ =>
          op (fp32.decode a)) h hn htyn.ge htyn.le (by simp [hmod]) hdst hsa ⟨hsb, hub⟩ ⟨hsc, huc⟩
          fun _ _ _ => hfits _ (hop _)
        simpa only [hx] using hgives
      simp only [gives, exec_vfsqrt, exec_vfrcp, exec_vfrsq, exec_vfexp2, exec_vflog2]
      exact ⟨hone _ fp32_sqrt_lt, hone _ fpRcp_lt, hone _ fpRsq_lt, hone _ fpExp2_lt, hone _ fpLog2_lt⟩

end

namespace Sys2Proof.Machine

/-! ### NaN operands and zeros of either sign (R195) -/

theorem test_nan {c : Nat} {a b : Fp} (h : a = .nan ∨ b = .nan) : Fp.test c a b = true ↔ c = 1 ∨ c = 6 := by
  have hnan : (a.isNan || b.isNan) = true := by
    rcases h with h | h <;> simp [h, Fp.isNan]
  simp [Fp.test, hnan]

/-- Two zeros compare as equal, whatever their signs. -/
theorem cmp_zeros (na nb : Bool) (ea eb : Int) : Fp.cmp (.fin na 0 ea) (.fin nb 0 eb) = 0 := by
  cases na <;> cases nb <;> simp [Fp.cmp, scaled]

theorem test_zeros {c : Nat} (hc : c < 7) (na nb : Bool) (ea eb : Int) :
    Fp.test c (.fin na 0 ea) (.fin nb 0 eb) = true ↔ c = 0 ∨ c = 3 ∨ c = 5 := by
  unfold Fp.test
  rw [cmp_zeros]
  interval_cases c <;> simp [Fp.isNan]

theorem minmax_nan_left (hi : Bool) (b : Fp) : Fp.minmax hi .nan b = b := by cases b <;> rfl

theorem minmax_nan_right (hi : Bool) (a : Fp) : Fp.minmax hi a .nan = a := by cases a <;> rfl

/-- The larger of two zeros is -0 where both are, the smaller where one is. -/
theorem round_minmax_zeros (f : Fmt) (hi na nb : Bool) (ea eb : Int) :
    f.round (Fp.minmax hi (.fin na 0 ea) (.fin nb 0 eb)) = f.round (.fin (if hi then na && nb else na || nb) 0 0) := by
  have hround : ∀ neg e, f.round (.fin neg 0 e) = f.sign neg := fun neg e => by
    simp [Fmt.round, Fmt.roundS, Fmt.roundMag]
  cases hi <;> cases na <;> cases nb <;> simp [Fp.minmax, cmp_zeros, Fp.isNeg, hround]

/-- The canonical NaNs of Table 2.2. -/
theorem round_nan_float {ty : BitVec 4} : 4 ≤ ty.toNat → ty.toNat ≤ 7 →
    (if ty = 4 then fp32 else if ty = 5 then fp64 else if ty = 6 then fp16 else bf16).round .nan =
      if ty = 4 then 0x7FC00000 else if ty = 5 then 0x7FF8000000000000 else if ty = 6 then 0x7E00 else 0x7FC0 := by
  revert ty
  decide

/-- VFRSQ and VFLOG2 of a negative number are NaN (Table 6.12). -/
theorem negative_nan {m : Nat} (e : Int) (hm : m ≠ 0) :
    fpRsq (.fin true m e) = 0x7FC00000 ∧ fpLog2 (.fin true m e) = 0x7FC00000 := by
  constructor
  · simp [fpRsq, hm, fp32]
  · simp [fpLog2, hm, fp32]

end Sys2Proof.Machine

section
open Sys2Proof Sys2Proof.Machine

/-- Settles O8: the lanes that VFCMP, VFMIN and VFMAX write with NaN operands and zeros, and Table 6.12 by
evaluation. -/
theorem floatComparisons : Obligations.FloatComparisons := by
  unfold Obligations.FloatComparisons
  refine ⟨?_, by decide, by decide, by decide, by decide, by decide, by decide, by decide, by decide, by decide, by decide,
    by decide, by decide, by decide, by decide, by decide, by decide, fun m e hm => negative_nan e hm, rfl, rfl, rfl, rfl⟩
  intro s i f k h vregs n source fm bitsOf quiet x y zero hlo hhi hsc huc hsa hsb
  have hn : tyRegs f.ty.toNat = n := tyRegs_float hlo hhi
  have hfp : ∀ v, tyFp f.ty.toNat v = fm.decode (bitsOf v) := tyFp_float hlo hhi
  have hfm : tyFloat f.ty.toNat = fm := tyFloat_float hlo hhi
  have hmod : ∀ c : BitVec 10, f.mod.toNat = c.toNat ↔ f.mod = c := fun c => BitVec.toNat_inj
  refine ⟨fun hlt hdst => ?_, fun hzero hdst top => ?_⟩
  · obtain ⟨r, hexec, hwrote⟩ := vfcmp_gives h hn hlo hhi hlt hsc huc hdst hsa hsb
    simp only [hfp] at hwrote
    refine ⟨r, _, hexec, hwrote, fun l => ⟨fun hnan => ?_, fun a b ha hb => ?_⟩⟩
    · rw [← hmod 1, ← hmod 6]
      exact test_nan hnan
    · obtain ⟨ea, ha⟩ := ha
      obtain ⟨eb, hb⟩ := hb
      rw [← hmod 0, ← hmod 3, ← hmod 5]
      show Fp.test f.mod.toNat (x l) (y l) = true ↔ _
      rw [ha, hb]
      exact test_zeros hlt a b ea eb
  · obtain ⟨r, hexec, hwrote⟩ := minmax_gives top h hn hlo hhi hzero hsc huc hdst hsa hsb
    simp only [hfp, hfm] at hwrote
    refine ⟨r, _, hexec, hwrote, fun l => ?_⟩
    show (x l = .nan → y l ≠ .nan → fm.round (Fp.minmax top (x l) (y l)) = fm.round (y l)) ∧
      (x l ≠ .nan → y l = .nan → fm.round (Fp.minmax top (x l) (y l)) = fm.round (x l)) ∧
      (x l = .nan → y l = .nan → fm.round (Fp.minmax top (x l) (y l)) = quiet) ∧
      ∀ a b, zero (x l) a → zero (y l) b → fm.round (Fp.minmax top (x l) (y l)) =
        fm.round (.fin (if top then a && b else a || b) 0 0)
    refine ⟨fun hx _ => ?_, fun _ hy => ?_, fun hx hy => ?_, fun a b ha hb => ?_⟩
    · rw [hx, minmax_nan_left]
    · rw [hy, minmax_nan_right]
    · rw [hx, hy, minmax_nan_left]
      exact round_nan_float hlo hhi
    · obtain ⟨ea, ha⟩ := ha
      obtain ⟨eb, hb⟩ := hb
      rw [ha, hb, round_minmax_zeros]

end

/-! PROOF. Conversion, shuffle and reduction (06_instruction_set.md R185, R197 to R199). -/

namespace Sys2Proof.Machine

variable {s : State} {i : Issue} {k : IssueCtx} {f : VFmt}

/-! ### The types in terms of the statement -/

theorem tyFmt_float {ty : Nat} (hlo : 4 ≤ ty) (hhi : ty < 10) : tyFmt ty = some (if ty = 4 then fp32 else if ty = 5 then fp64
    else if ty = 6 then fp16 else if ty = 7 then bf16 else if ty = 8 then e4m3 else e5m2) := by
  interval_cases ty <;> rfl

theorem tyFmt_integer {ty : Nat} (h : ¬4 ≤ ty) : tyFmt ty = none := by
  have hlt : ty < 4 := Nat.lt_of_not_le h
  interval_cases ty <;> rfl

theorem tyBits_pos (ty : Nat) : 0 < tyBits ty := by
  unfold tyBits
  repeat' split
  all_goals omega

/-- An integer lane value is that of its low bits. -/
theorem tyInt_eq (ty x : Nat) : tyInt ty x =
    if ty = 0 ∨ ty = 2 then (BitVec.ofNat (tyBits ty) x).toInt else ((x % 2 ^ tyBits ty : Nat) : Int) := by
  unfold tyInt asInt tySigned
  by_cases h : ty = 0 ∨ ty = 2
  · have hs : (ty == 0 || ty == 2) = true := by simpa using h
    rw [if_pos hs, if_pos h, ← signed_toNat, BitVec.toNat_ofNat, signed, signed, Nat.mod_mod]
  · have hs : ¬(ty == 0 || ty == 2) = true := by simpa using h
    rw [if_neg hs, if_neg h]

theorem tyInt_mod (ty x : Nat) : tyInt ty (x % 2 ^ tyBits ty) = tyInt ty x := by
  unfold tyInt asInt signed
  rw [Nat.mod_mod]

/-! ### VCVT (R197) -/

theorem wrapInt_lt (w : Nat) (z : Int) : wrapInt w z < 2 ^ w := by
  rw [wrapInt_eq]
  exact (BitVec.ofInt w z).isLt

/-- A converted lane fits the destination's registers. -/
theorem vcvtLane_lt {rtz : Bool} {src dst x : Nat} (hd : dst < 10) : vcvtLane rtz src dst x < 2 ^ (32 * tyRegs dst) := by
  have hint : ∀ z, wrapInt (tyBits dst) z < 2 ^ (32 * tyRegs dst) := fun z =>
    (wrapInt_lt _ z).trans_le (Nat.pow_le_pow_right (by decide) (tyBits_le dst))
  have hfloat : ∀ b v, tyFmt dst = some b → b.round v < 2 ^ (32 * tyRegs dst) := fun b v hb => by
    have hround := tyFloat_round_lt hd v
    rwa [tyFloat, hb] at hround
  unfold vcvtLane
  split
  · exact hfloat _ _ ‹_›
  · exact hint _
  · exact hfloat _ _ ‹_›
  · exact hint _

theorem vcvt_gives (h : s.issues i f.guard k) (hsb : f.sb = 0) (hub : f.ub = false) (hsc : f.sc = 0) (huc : f.uc = false)
    (hsrc : f.ty.toNat < 10) (hd : f.mod.toNat % 16 < 10) (hmod : f.mod.toNat < 32)
    (hrtz : 4 ≤ f.mod.toNat % 16 → f.mod.toNat < 16)
    (hdst : inReach k.party.par.vregs (tyRegs (f.mod.toNat % 16)) f.dst.toNat)
    (hsa : if f.ua then f.sa.toNat < 64 else inReach k.party.par.vregs (tyRegs f.ty.toNat) f.sa.toNat) :
    ∃ r, execVcvt i f s = .next (s.retired k r) ∧ wroteV k.rope r (tyRegs (f.mod.toNat % 16)) f.dst.toNat k.e fun l =>
      vcvtLane (f.mod.getLsbD 4) f.ty.toNat (f.mod.toNat % 16)
        (k.rope.operand f.ua (tyRegs f.ty.toNat) f.sa.toNat l) := by
  have hpos := tyRegs_pos f.ty.toNat
  have hbits : bits f.mod.toNat 0 4 = f.mod.toNat % 16 := rfl
  have hnortz : (!(f.mod.toNat.testBit 4 && (tyFmt (f.mod.toNat % 16)).isSome)) = true := by
    by_cases hfl : 4 ≤ f.mod.toNat % 16
    · rw [Nat.testBit_lt_two_pow (show f.mod.toNat < 2 ^ 4 from hrtz hfl)]
      rfl
    · rw [tyFmt_integer hfl, Option.isSome_none, Bool.and_false]
      rfl
  refine issue_vwrite h ?_ ?_ (.inl rfl) (.inl rfl) (by simp [Rope.source_length]) fun l hl => ?_
  · simp only [VFmt.clean, hbits, bit, hsb, hub, hsc, huc, modifiers_three _ hmod, hsrc, hd, hnortz,
      vecLegal_of_inReach hdst, srcLegal_of_reach hsa]
    simp
  · simp only [hbits, vecRange_of_inReach (tyRegs_pos _) hdst, srcRange_of_reach hpos hsa]
    simp
  · rw [getD_map _ _ 0 _ (by rw [Rope.source_length]; exact hl), Rope.source_getElem _ _ _ _ _ hl]
    exact Nat.mod_eq_of_lt (vcvtLane_lt hd)

/-! ### VSHFL (R198) -/

theorem shuffleLane_lt {mode d idx l : Nat} (hd : mode ≠ 0 → d < 32) (hmode : mode < 4) (hl : l < 32) :
    shuffleLane mode d idx l < 32 := by
  interval_cases mode
  · exact Nat.mod_lt _ (by decide)
  · simp only [shuffleLane]
    split <;> omega
  · simp only [shuffleLane]
    split <;> omega
  · exact Nat.xor_lt_two_pow (n := 5) hl (hd (by decide))

/-- Only mode 0 reads the index operand. -/
theorem shuffleLane_index {mode : Nat} (d idx idx' l : Nat) (h : mode ≠ 0) :
    shuffleLane mode d idx l = shuffleLane mode d idx' l := by
  obtain ⟨m, rfl⟩ := Nat.exists_eq_succ_of_ne_zero h
  rcases m with _ | _ | m <;> rfl

theorem vshfl_gives (h : s.issues i f.guard k) (hsc : f.sc = 0) (huc : f.uc = false) (hmod : f.mod.toNat < 4)
    (hty : f.ty.toNat < 8) (hdst : inReach k.party.par.vregs (tyRegs f.ty.toNat) f.dst.toNat)
    (hsa : if f.ua then f.sa.toNat < 64 else inReach k.party.par.vregs (tyRegs f.ty.toNat) f.sa.toNat)
    (hsb : if f.mod.toNat = 0 then (if f.ub then f.sb.toNat < 64 else inReach k.party.par.vregs 1 f.sb.toNat)
      else f.ub = false ∧ f.sb.toNat < 32) :
    ∃ r, execVshfl i f s = .next (s.retired k r) ∧ wroteV k.rope r (tyRegs f.ty.toNat) f.dst.toNat k.e fun l =>
      k.rope.operand f.ua (tyRegs f.ty.toNat) f.sa.toNat
        (shuffleLane f.mod.toNat f.sb.toNat (k.rope.operand f.ub 1 f.sb.toNat l) l) % 2 ^ tyBits f.ty.toNat := by
  have hpos := tyRegs_pos f.ty.toNat
  have hbits : bits f.mod.toNat 0 2 = f.mod.toNat := Nat.mod_eq_of_lt hmod
  have hmask : f.mod.toNat &&& (1023 - 3) = 0 := by interval_cases f.mod.toNat <;> rfl
  have hub : (f.mod.toNat == 0 || !f.ub) = true ∧
      (if f.mod.toNat = 0 then srcLegal f.ub f.sb.toNat 1 else decide (f.sb.toNat < 32)) = true ∧
      (f.mod.toNat != 0 || srcRange k.party.par.vregs f.ub f.sb.toNat 1) = true := by
    by_cases hm : f.mod.toNat = 0
    · rw [if_pos hm] at hsb
      simp [hm, srcLegal_of_reach hsb, srcRange_of_reach Nat.one_pos hsb]
    · rw [if_neg hm] at hsb
      simp [hm, hsb.1, hsb.2]
  obtain ⟨hclean, hlegal, hrange⟩ := hub
  refine issue_vwrite h ?_ ?_ (.inl rfl) (.inl rfl) (by simp [Rope.source_length]) fun l hl => ?_
  · simp only [VFmt.clean, hbits, hclean, hlegal, hmask, hsc, huc, hty, vecLegal_of_inReach hdst, srcLegal_of_reach hsa]
    simp
  · simp only [hbits, hrange, vecRange_of_inReach hpos hdst, srcRange_of_reach hpos hsa]
    simp
  · have hidx : shuffleLane f.mod.toNat f.sb.toNat
        (k.rope.operand f.ub 1 (if f.mod.toNat = 0 then f.sb.toNat else 255) l) l =
        shuffleLane f.mod.toNat f.sb.toNat (k.rope.operand f.ub 1 f.sb.toNat l) l := by
      split
      · rfl
      · exact shuffleLane_index _ _ _ _ ‹_›
    have hlane : shuffleLane f.mod.toNat f.sb.toNat (k.rope.operand f.ub 1 f.sb.toNat l) l < 32 :=
      shuffleLane_lt (fun hm => by rw [if_neg hm] at hsb; exact hsb.2) hmod hl
    simp only [hbits]
    rw [getD_map _ _ 0 _ (by simp [Rope.source_length, hl]), getD_map _ _ (0, 0) _ (by simp [Rope.source_length, hl]),
      zip_getD _ _ 0 0 (by simp [Rope.source_length, hl]) (by simp [hl]), range_getD hl,
      Rope.source_getElem _ _ _ _ _ hl, hidx, Rope.source_getElem _ _ _ _ _ hlane]
    exact Nat.mod_eq_of_lt ((Nat.mod_lt _ (Nat.two_pow_pos _)).trans_le
      (Nat.pow_le_pow_right (by decide) (tyBits_le _)))

/-! ### VRED (R199) -/

theorem vred_gives (h : s.issues i f.guard k) (hsc : f.sc = 0) (huc : f.uc = false) (hsb : f.sb = 0) (hub : f.ub = false)
    (hmod : f.mod.toNat < 3) (hty : f.ty.toNat < 8) (hdst : f.dst.toNat < 64)
    (hsa : if f.ua then f.sa.toNat < 64 else inReach k.party.par.vregs (tyRegs f.ty.toNat) f.sa.toNat) :
    ∃ r, execVred i f s = .next (s.retired k r) ∧ wroteU k.rope r f.dst.toNat (BitVec.ofNat 64
      (vredValue f.mod.toNat f.ty.toNat
        ((lanes k.e).map fun l => k.rope.operand f.ua (tyRegs f.ty.toNat) f.sa.toNat l))) := by
  have hpos := tyRegs_pos f.ty.toNat
  have hmask : f.mod.toNat &&& (1023 - 3) = 0 := by interval_cases f.mod.toNat <;> rfl
  have hvals : ((lanes k.e).map fun l => (k.rope.source f.ua f.sa.toNat (tyRegs f.ty.toNat))[l]?.getD 0) =
      (lanes k.e).map fun l => k.rope.operand f.ua (tyRegs f.ty.toNat) f.sa.toNat l := by
    refine List.map_congr_left fun l hl => Rope.source_getElem _ _ _ _ _ ?_
    exact List.mem_range.mp (List.mem_filter.mp hl).1
  rw [← hvals]
  refine issue_setU h ?_ ?_ (.inl rfl) (.inl rfl)
  · simp only [VFmt.clean, hmask, hsc, huc, hsb, hub, hmod, hty, uLegal, hdst, srcLegal_of_reach hsa]
    simp
  · simp only [srcRange_of_reach hpos hsa]

/-- A wrapping sum is the sum's low bits. -/
theorem foldl_add_mod (m : Nat) (l : List Nat) (a : Nat) :
    l.foldl (fun a x => (a + x) % m) (a % m) = l.foldl (fun t x => t + x % m) a % m := by
  induction l generalizing a with
  | nil => rfl
  | cons x t ih =>
    rw [List.foldl_cons, List.foldl_cons, ← ih]
    congr 1
    simp [Nat.add_mod]

/-- A mask that is not 0 has a lane. -/
theorem lanes_ne_nil {e : Mask} (he : e ≠ 0) : lanes e ≠ [] := by
  intro hnil
  apply he
  ext l hl
  have hnot : ¬e.getLsbD l = true := by
    simpa using (List.filter_eq_nil_iff.mp hnil) l (List.mem_range.mpr hl)
  simpa [BitVec.getLsbD_eq_getElem hl] using hnot

theorem vredValue_float {op ty : Nat} {vals : List Nat} {fm : Fmt} (h : tyFmt ty = some fm) :
    vredValue op ty vals =
      let xs := vals.map fun x => fm.decode (x % 2 ^ tyBits ty)
      if op = 0 then (if xs.isEmpty then 0 else groupSum (if ty = 5 then fp64 else fp32)
        (if ty = 5 then 160 else if ty = 4 then 96 else 48) xs)
      else match xs with
        | [] => fm.round (.inf (op == 2))
        | x :: t => fm.round (t.foldl (Fp.minmax (op == 2)) x) := by
  unfold vredValue
  rw [h] <;> rfl

theorem vredValue_integer {op ty : Nat} {vals : List Nat} (h : tyFmt ty = none) :
    vredValue op ty vals =
      if op = 0 then vals.foldl (fun a x => (a + x) % 2 ^ tyBits ty) 0
      else wrapInt (tyBits ty) (vals.foldl (fun a x => if op == 2 then max a (tyInt ty x) else min a (tyInt ty x))
        (if op == 2 then (if tySigned ty then -((2 ^ (tyBits ty - 1) : Nat) : Int) else 0)
          else if tySigned ty then ((2 ^ (tyBits ty - 1) : Nat) : Int) - 1 else ((2 ^ tyBits ty : Nat) : Int) - 1)) := by
  unfold vredValue
  rw [h]

end Sys2Proof.Machine

namespace Sys2Proof.Machine

/-! ### What a converted lane is -/

theorem vcvtLane_integers {rtz : Bool} {src dst x : Nat} (hs : ¬4 ≤ src) (hd : ¬4 ≤ dst) :
    vcvtLane rtz src dst x = (BitVec.ofInt (tyBits dst) (tyInt src x)).toNat := by
  simp only [vcvtLane, tyFmt_integer hs, tyFmt_integer hd, wrapInt_eq]

theorem vcvtLane_to_float {rtz : Bool} {src dst x : Nat} {b : Fmt} (hs : ¬4 ≤ src) (hd : tyFmt dst = some b) :
    vcvtLane rtz src dst x = b.round (Fp.ofInt (tyInt src x)) := by
  simp only [vcvtLane, tyFmt_integer hs, hd]

theorem vcvtLane_floats {rtz : Bool} {src dst x : Nat} {a b : Fmt} (hs : tyFmt src = some a) (hd : tyFmt dst = some b) :
    vcvtLane rtz src dst x = convert a b (x % 2 ^ tyBits src) := by
  simp only [vcvtLane, hs, hd]

theorem vcvtLane_to_integer {rtz : Bool} {src dst x : Nat} {a : Fmt} (hs : tyFmt src = some a) (hd : ¬4 ≤ dst) :
    vcvtLane rtz src dst x = (BitVec.ofInt (tyBits dst) (Fp.toIntSat rtz
      (if tySigned dst then -((2 ^ (tyBits dst - 1) : Nat) : Int) else 0)
      (if tySigned dst then ((2 ^ (tyBits dst - 1) : Nat) : Int) - 1 else ((2 ^ tyBits dst : Nat) : Int) - 1)
      (a.decode (x % 2 ^ tyBits src)))).toNat := by
  simp only [vcvtLane, hs, tyFmt_integer hd, wrapInt_eq]

theorem tySigned_iff (ty : Nat) : tySigned ty = true ↔ ty = 0 ∨ ty = 2 := by
  simp [tySigned]

/-- The word of the largest and of the smallest integer of a width. -/
theorem ofInt_greatest (sgn : Bool) {w : Nat} (hw : 0 < w) :
    (BitVec.ofInt w (if sgn then ((2 ^ (w - 1) : Nat) : Int) - 1 else ((2 ^ w : Nat) : Int) - 1)).toNat =
      if sgn then 2 ^ (w - 1) - 1 else 2 ^ w - 1 := by
  have hhalf : 2 ^ (w - 1) < 2 ^ w := Nat.pow_lt_pow_right (by decide) (by omega)
  have hpos : 0 < 2 ^ (w - 1) := Nat.two_pow_pos _
  have hnat : ∀ n : Nat, n < 2 ^ w → (BitVec.ofInt w (n : Int)).toNat = n := fun n hn => by
    rw [BitVec.ofInt_natCast, BitVec.toNat_ofNat, Nat.mod_eq_of_lt hn]
  cases sgn
  · simp only [Bool.false_eq_true, if_false]
    rw [show ((2 ^ w : Nat) : Int) - 1 = ((2 ^ w - 1 : Nat) : Int) by omega]
    exact hnat _ (by omega)
  · simp only [if_true]
    rw [show ((2 ^ (w - 1) : Nat) : Int) - 1 = ((2 ^ (w - 1) - 1 : Nat) : Int) by omega]
    exact hnat _ (by omega)

theorem ofInt_least (sgn : Bool) {w : Nat} (hw : 0 < w) :
    (BitVec.ofInt w (if sgn then -((2 ^ (w - 1) : Nat) : Int) else 0)).toNat = if sgn then 2 ^ (w - 1) else 0 := by
  have hdouble : 2 ^ w = 2 ^ (w - 1) + 2 ^ (w - 1) := by
    rw [← Nat.two_mul, ← Nat.pow_succ', Nat.succ_eq_add_one, Nat.sub_add_cancel hw]
  have hpos : 0 < 2 ^ (w - 1) := Nat.two_pow_pos _
  cases sgn
  · simp
  · simp only [if_true, BitVec.toNat_ofInt]
    have hmod : -((2 ^ (w - 1) : Nat) : Int) % ((2 ^ w : Nat) : Int) = ((2 ^ (w - 1) : Nat) : Int) := by
      have hneg : -((2 ^ (w - 1) : Nat) : Int) = ((2 ^ (w - 1) : Nat) : Int) + ((2 ^ w : Nat) : Int) * (-1) := by omega
      rw [hneg, Int.add_mul_emod_self_left, Int.emod_eq_of_lt (by omega) (by omega)]
    rw [hmod, Int.toNat_natCast]

end Sys2Proof.Machine

section
open Sys2Proof Sys2Proof.Machine

/-- Settles O7: what VCVT, VSHFL and VRED write, and their lane values type by type. -/
theorem convertShuffleReduce : Obligations.ConvertShuffleReduce := by
  unfold Obligations.ConvertShuffleReduce
  intro s i f k h hsc huc vregs regsOf widthOf isFloat fmtOf inReach source src dst intOf
  have hint : ∀ ty x, intOf ty x = tyInt ty x := fun ty x => (tyInt_eq ty x).symm
  refine ⟨fun hsb hub hsrc hd hmod hrtz hdst hsa => ?_, fun hmod hsrc hdst hsa => ?_,
    fun hsb hub hmod hsrc hdst hsa => ?_⟩
  · obtain ⟨r, hexec, hwrote⟩ := vcvt_gives h hsb hub hsc huc hsrc hd hmod hrtz hdst hsa
    refine ⟨r, _, hexec, hwrote, fun l hl => ?_⟩
    intro x
    refine ⟨fun hs hdi => ?_, fun hs hdf => ?_, fun hs hdf => ?_, fun hs hdi => ?_⟩
    · rw [vcvtLane_integers hs hdi, hint, ← tyInt_mod]
      rfl
    · rw [vcvtLane_to_float hs (tyFmt_float hdf hd), hint, ← tyInt_mod]
      rfl
    · rw [vcvtLane_floats (tyFmt_float hs hsrc) (tyFmt_float hdf hd)]
      rfl
    · intro lo hi
      have hlo : (if tySigned dst then -((2 ^ (tyBits dst - 1) : Nat) : Int) else 0) = lo := by
        simp only [tySigned_iff]
        rfl
      have hhi : (if tySigned dst then ((2 ^ (tyBits dst - 1) : Nat) : Int) - 1 else ((2 ^ tyBits dst : Nat) : Int) - 1) =
          hi := by
        simp only [tySigned_iff]
        rfl
      have hlane : ∀ v, (fmtOf src).decode x = v → vcvtLane (f.mod.getLsbD 4) src dst
          (k.rope.operand f.ua (tyRegs src) f.sa.toNat l) =
            (BitVec.ofInt (tyBits dst) (Fp.toIntSat (f.mod.getLsbD 4) lo hi v)).toNat := fun v hv => by
        rw [vcvtLane_to_integer (tyFmt_float hs hsrc) hdi, hlo, hhi, ← hv]
        rfl
      refine ⟨fun neg m e hv => hlane _ hv, fun hv => ?_, fun hv => ?_, fun hv => ?_⟩
      · refine (hlane _ hv).trans ?_
        simp [Fp.toIntSat]
      · refine (hlane _ hv).trans ?_
        rw [Fp.toIntSat, if_neg (by decide), ← hhi, ofInt_greatest _ (tyBits_pos _)]
        simp only [tySigned_iff]
        rfl
      · refine (hlane _ hv).trans ?_
        rw [Fp.toIntSat, if_pos rfl, ← hlo, ofInt_least _ (tyBits_pos _)]
        simp only [tySigned_iff]
        rfl
  · intro value d gives
    refine ⟨fun hm hsb => ?_, fun hub hd => ⟨fun hm => ?_, fun hm => ?_, fun hm => ?_⟩⟩
    · have hgives := vshfl_gives h hsc huc hmod hsrc hdst hsa (by rw [if_pos (by rw [hm]; rfl)]; exact hsb)
      rw [hm] at hgives
      exact hgives
    · have hgives := vshfl_gives h hsc huc hmod hsrc hdst hsa (by rw [if_neg (by rw [hm]; decide)]; exact ⟨hub, hd⟩)
      rw [hm] at hgives
      exact hgives
    · have hgives := vshfl_gives h hsc huc hmod hsrc hdst hsa (by rw [if_neg (by rw [hm]; decide)]; exact ⟨hub, hd⟩)
      rw [hm] at hgives
      exact hgives
    · have hgives := vshfl_gives h hsc huc hmod hsrc hdst hsa (by rw [if_neg (by rw [hm]; decide)]; exact ⟨hub, hd⟩)
      rw [hm] at hgives
      exact hgives
  · intro vals reals ints least greatest gives
    obtain ⟨ops, hops⟩ : ∃ ops, ops = (lanes k.e).map fun l => k.rope.operand f.ua (tyRegs src) f.sa.toNat l := ⟨_, rfl⟩
    have hred : ∀ v, vredValue f.mod.toNat src ops = v → gives v := fun v hv => by
      rw [← hv, hops]
      exact vred_gives h hsc huc hsb hub hmod hsrc hdst hsa
    have hvals : ops.map (fun x => x % 2 ^ tyBits src) = vals := by
      rw [hops, List.map_map]
      rfl
    have hreals : ops.map (fun x => (fmtOf src).decode (x % 2 ^ tyBits src)) = reals := by
      simp only [reals, ← hvals, List.map_map]
      rfl
    have hints : ops.map (tyInt src) = ints := by
      simp only [ints, ← hvals, List.map_map]
      exact List.map_congr_left fun x _ => ((hint src _).trans (tyInt_mod src x)).symm
    have hfloat : isFloat src → tyFmt src = some (fmtOf src) := fun hf => tyFmt_float hf (by omega)
    have hbeq : (f.mod.toNat == 2) = (f.mod == 2) := by
      rw [Bool.eq_iff_iff, beq_iff_eq, beq_iff_eq, ← BitVec.toNat_inj]
      rfl
    have hempty : k.e = 0 → ops = [] := fun he => by
      rw [hops, he]
      rfl
    have hnonempty : k.e ≠ 0 → reals.isEmpty = false := fun he => by
      rw [← hreals, hops]
      simpa using lanes_ne_nil he
    refine ⟨fun hm hf he => ?_, fun hm hf x t hxt => ?_, fun hm hi => ?_, fun hm hi => ?_, fun hm hi => ?_,
      fun he => ⟨fun hm => ?_, fun hm hf => ?_, fun hm hf => ?_⟩⟩
    · refine hred _ ?_
      rw [vredValue_float (hfloat hf), hreals, hm]
      simp only [hnonempty he]
      by_cases h5 : src = 5
      · simp [h5]
      · simp [h5]
    · refine hred _ ?_
      rw [vredValue_float (hfloat hf), hreals, hxt, ← hbeq]
      simp [hm.ne']
    · refine hred _ ?_
      have hsum := foldl_add_mod (2 ^ tyBits src) ops 0
      rw [Nat.zero_mod] at hsum
      rw [vredValue_integer (tyFmt_integer hi), if_pos (by rw [hm]; rfl), hsum, ← hvals, List.foldl_map]
      rfl
    · refine hred _ ?_
      rw [vredValue_integer (tyFmt_integer hi), hm, ← hints, List.foldl_map]
      simp [wrapInt_eq, tySigned_iff]
      rfl
    · refine hred _ ?_
      rw [vredValue_integer (tyFmt_integer hi), hm, ← hints, List.foldl_map]
      simp [wrapInt_eq, tySigned_iff]
      rfl
    · refine hred _ ?_
      rw [hempty he, hm]
      by_cases hf : isFloat src
      · rw [vredValue_float (hfloat hf)]
        rfl
      · rw [vredValue_integer (tyFmt_integer hf)]
        rfl
    · refine hred _ ?_
      rw [vredValue_float (hfloat hf), hempty he, hm]
      rfl
    · refine hred _ ?_
      rw [vredValue_float (hfloat hf), hempty he, hm]
      rfl

end

/-! PROOF. The checks of an issue in the order of R220 (06_instruction_set.md R181 to R184, R219, R220;
19_faults_and_errors.md R551), and what a retired instruction leaves alone (06 R177; 20_observation_and_test.md R571). -/

namespace Sys2Proof.Machine

variable {s : State} {i : Issue} {g : Guard} {ck : Checks} {k : IssueCtx} {f : VFmt}
  {bodyW : State → IssueCtx → State × Bool}

/-! ### SRAM errors of the operand reads (19 R551) -/

theorem issueWait_uncorrectable (h : s.issuing i g = some k) (he : i.ecc = .uncorrectable) :
    issueWait i g ck s bodyW = .next ((s.setRf (.clMemEcc k.c) .uncorr 1).clusterFail k.c Code.clusterUncorr) := by
  simp [issueWait, h, he]

/-- A corrected error is counted, and the instruction has its effect in the state that leaves. -/
theorem issueWait_corrected (h : s.issuing i g = some k) (he : i.ecc = .corrected) (hl : ck.legal = true)
    (hr : ck.range k.party.par.vregs = true) (ht : ck.timed = false) (hm : ck.ropeLevel = false) :
    let s0 := (s.satRf (.clMemEcc k.c) .corrected 1).clusterCe k.c
    issueWait i g ck s bodyW =
      .next (if (bodyW s0 k).2 then (bodyW s0 k).1.countCl k.c 2 k.ctx 1 else (bodyW s0 k).1) := by
  simp [issueWait, h, he, hl, hr, ht, hm]

/-! ### The checks of VADD -/

/-- A register field that is not legal for its width (R183, R184). -/
theorem srcLegal_eq_false {uni : Bool} {n field : Nat} :
    srcLegal uni field n = false ↔ if uni then 64 ≤ field else field ≠ 255 ∧ field % n ≠ 0 := by
  cases uni <;> simp [srcLegal, uLegal, vecLegal]

/-- A register field that reaches VREGS (R183). -/
theorem vecRange_eq_false {v n field : Nat} (hn : 0 < n) :
    vecRange v field n = false ↔ field ≠ 255 ∧ v < field + n := by
  simp [vecRange]
  omega

theorem vadd_clean : f.clean { dst := true, sa := true, sb := true, ua := true, ub := true, ty := true } = true ↔
    f.mod = 0 ∧ f.sc = 0 ∧ f.uc = false := by
  have hmod : f.mod.toNat &&& 1023 = f.mod.toNat := by
    rw [show 1023 = 2 ^ 10 - 1 from rfl, Nat.and_two_pow_sub_one_eq_mod, Nat.mod_eq_of_lt f.mod.isLt]
  have hzero : f.mod.toNat = 0 ↔ f.mod = 0 := BitVec.toNat_inj (y := 0)
  simp [VFmt.clean, hmod, hzero, and_comm]

/-- What VADD checks at its issue. -/
def vaddChecks (f : VFmt) : Checks :=
  { legal := f.clean { dst := true, sa := true, sb := true, ua := true, ub := true, ty := true } &&
      decide (f.ty.toNat < 4) && vecLegal f.dst.toNat (tyRegs f.ty.toNat) &&
      srcLegal f.ua f.sa.toNat (tyRegs f.ty.toNat) && srcLegal f.ub f.sb.toNat (tyRegs f.ty.toNat)
    range := fun v => vecRange v f.dst.toNat (tyRegs f.ty.toNat) && srcRange v f.ua f.sa.toNat (tyRegs f.ty.toNat) &&
      srcRange v f.ub f.sb.toNat (tyRegs f.ty.toNat) }

/-- The lanes that VADD writes. -/
def vaddVals (f : VFmt) (r : Rope) : List Nat :=
  List.zipWith (fun a b => (a + b) % 2 ^ tyBits f.ty.toNat) (r.source f.ua f.sa.toNat (tyRegs f.ty.toNat))
    (r.source f.ub f.sb.toNat (tyRegs f.ty.toNat))

theorem exec_vadd_eq : exec (.vadd i f) s = issueWait i f.guard (vaddChecks f) s fun s k =>
    (s.finish k (k.rope.vwrite f.dst.toNat (tyRegs f.ty.toNat) k.e (vaddVals f k.rope)), true) := rfl

theorem vadd_legal : (vaddChecks f).legal = true ↔
    (f.mod = 0 ∧ f.sc = 0 ∧ f.uc = false) ∧ f.ty.toNat < 4 ∧ srcLegal false f.dst.toNat (tyRegs f.ty.toNat) = true ∧
      srcLegal f.ua f.sa.toNat (tyRegs f.ty.toNat) = true ∧ srcLegal f.ub f.sb.toNat (tyRegs f.ty.toNat) = true := by
  simp only [vaddChecks, Bool.and_eq_true, vadd_clean, decide_eq_true_eq, and_assoc]
  rfl

theorem vadd_range {v : Nat} : (vaddChecks f).range v = true ↔ vecRange v f.dst.toNat (tyRegs f.ty.toNat) = true ∧
    srcRange v f.ua f.sa.toNat (tyRegs f.ty.toNat) = true ∧ srcRange v f.ub f.sb.toNat (tyRegs f.ty.toNat) = true := by
  simp only [vaddChecks, Bool.and_eq_true, and_assoc]

/-- What SREAD checks at its issue. -/
def sreadChecks (f : VFmt) : Checks :=
  { legal := f.clean { dst := true, sa := true } && uLegal f.dst.toNat && specialIndex f.sa.toNat
    range := fun _ => true
    timed := decide (16 ≤ f.sa.toNat)
    ropeLevel := true }

theorem exec_sread_eq : exec (.sread i f) s = issueWait i f.guard (sreadChecks f) s fun s k =>
    (s.finish k (k.rope.setU f.dst.toNat ((s.special k f.sa.toNat).getD 0)), true) := rfl

theorem sread_legal (hdst : f.dst.toNat < 64) (hsb : f.sb = 0) (hsc : f.sc = 0) (hua : f.ua = false) (hub : f.ub = false)
    (huc : f.uc = false) (hty : f.ty = 0) (hmod : f.mod = 0) (hindex : specialIndex f.sa.toNat = true) :
    (sreadChecks f).legal = true := by
  simp [sreadChecks, VFmt.clean, uLegal, hdst, hsb, hsc, hua, hub, huc, hty, hmod, hindex]

end Sys2Proof.Machine

section
open Sys2Proof Sys2Proof.Machine

/-- Settles O12, check by check. -/
theorem issueChecks : Obligations.IssueChecks := by
  unfold Obligations.IssueChecks
  intro s i f
  rw [exec_vadd_eq, exec_sread_eq]
  refine ⟨fun h => ⟨issueWait_none h, issueWait_none h⟩, fun k h => ⟨fun he => issueWait_uncorrectable h he, fun he => ?_,
    fun he => ?_⟩⟩
  · intro s1 n misfit beyond
    have hpos := tyRegs_pos f.ty.toNat
    have hn : f.ty.toNat < 4 → tyRegs f.ty.toNat = n := tyRegs_integer
    have hmisfit : f.ty.toNat < 4 → ∀ uni field, srcLegal uni field (tyRegs f.ty.toNat) = false ↔ misfit uni field :=
      fun hty uni field => by
      rw [hn hty]
      exact srcLegal_eq_false
    have hfit : f.ty.toNat < 4 → ∀ uni field, srcLegal uni field (tyRegs f.ty.toNat) = true ↔ ¬misfit uni field :=
      fun hty uni field => by rw [← hmisfit hty, Bool.not_eq_false]
    have hbeyond : f.ty.toNat < 4 → ∀ field, beyond field →
        ¬vecRange k.party.par.vregs field (tyRegs f.ty.toNat) = true := fun hty field hb => by
      rw [Bool.not_eq_true, vecRange_eq_false hpos, hn hty]
      exact hb
    refine ⟨fun hbad => ?_, fun hmod hsc huc hty hd ha hb hout => ?_,
      fun hdst hsb hsc hua hub huc hty hmod => ⟨fun hsa hstrict => ?_, fun hsa hz => ?_⟩⟩
    · refine issueWait_illegal h he (Bool.eq_false_iff.mpr fun hl => ?_)
      obtain ⟨⟨hmod, hsc, huc⟩, hty, hd, ha, hb⟩ := vadd_legal.mp hl
      rw [hfit hty] at hd ha hb
      rcases hbad with hx | hx | hx | hx | hx | hx | hx
      · exact hx hmod
      · exact hx hsc
      · exact absurd (huc.symm.trans hx) (by decide)
      · omega
      · exact hd hx
      · exact ha hx
      · exact hb hx
    · have hl := vadd_legal.mpr ⟨⟨hmod, hsc, huc⟩, hty, (hfit hty _ _).mpr hd, (hfit hty _ _).mpr ha, (hfit hty _ _).mpr hb⟩
      refine issueWait_range h he hl (Bool.eq_false_iff.mpr fun hr => ?_)
      obtain ⟨hrd, hra, hrb⟩ := vadd_range.mp hr
      rcases hout with hx | ⟨hu, hx⟩ | ⟨hu, hx⟩
      · exact hbeyond hty _ hx hrd
      · rw [srcRange, hu, Bool.false_or] at hra
        exact hbeyond hty _ hx hra
      · rw [srcRange, hu, Bool.false_or] at hrb
        exact hbeyond hty _ hx hrb
    · have hindex : specialIndex f.sa.toNat = true ∧ 16 ≤ f.sa.toNat := by
        rcases hsa with hsa | hsa | hsa
        · rw [hsa]
          decide
        · rw [hsa]
          decide
        · simp [specialIndex, hsa]
          omega
      exact issueWait_strict h he (sread_legal hdst hsb hsc hua hub huc hty hmod hindex.1) rfl
        (decide_eq_true hindex.2) hstrict
    · have hindex : specialIndex f.sa.toNat = true := by simp [specialIndex, hsa]
      have htimed : (sreadChecks f).timed = false := decide_eq_false (by omega)
      exact issueWait_empty h he (sread_legal hdst hsb hsc hua hub huc hty hmod hindex) rfl (.inl htimed) rfl hz
  · intro s2 inReach hmod hsc huc hua hub hty hd ha hb
    have hn : tyRegs f.ty.toNat = 1 := by
      rw [hty]
      rfl
    have hd1 := inReach_one hd
    have ha1 : if f.ua then f.sa.toNat < 64 else Machine.inReach k.party.par.vregs 1 f.sa.toNat := by
      rw [hua]
      exact inReach_one ha
    have hb1 : if f.ub then f.sb.toNat < 64 else Machine.inReach k.party.par.vregs 1 f.sb.toNat := by
      rw [hub]
      exact inReach_one hb
    have hl : (vaddChecks f).legal = true := vadd_legal.mpr ⟨⟨hmod, hsc, huc⟩, by rw [hty]; decide,
      by rw [hn]; exact vecLegal_of_inReach hd1, by rw [hn]; exact srcLegal_of_reach ha1,
      by rw [hn]; exact srcLegal_of_reach hb1⟩
    have hr : (vaddChecks f).range k.party.par.vregs = true := vadd_range.mpr
      ⟨by rw [hn]; exact vecRange_of_inReach Nat.one_pos hd1, by rw [hn]; exact srcRange_of_reach Nat.one_pos ha1,
        by rw [hn]; exact srcRange_of_reach Nat.one_pos hb1⟩
    refine ⟨_, issueWait_corrected h he hl hr rfl rfl, ?_⟩
    rw [vaddVals, hn, hty, hua, hub]
    refine Rope.vwrite_wrote_of (by simp [Rope.source_length]) fun l hl => ?_
    rw [zipWith_getD _ _ _ 0 0 0 (by rw [Rope.source_length]; exact hl) (by rw [Rope.source_length]; exact hl),
      Rope.source_getElem _ _ _ _ _ hl, Rope.source_getElem _ _ _ _ _ hl]
    exact Nat.mod_mod _ _

end

namespace Sys2Proof.Machine

/-! ### What a retired instruction leaves alone -/

/-- Putting back a rope of the cluster. -/
theorem State.putRope_of_isSome {s : State} {k : IssueCtx} (r : Rope)
    (h : (Table.find (s.cluster k.c).ropes k.slot).isSome = true) : s.putRope k r = s.setRope k.c k.slot r :=
  if_pos h

@[simp] theorem State.cluster_setRope (s : State) (c slot : Nat) (r : Rope) :
    (s.setRope c slot r).cluster c = (s.cluster c).setRope slot r := State.cluster_setCluster s c _

theorem State.cluster_countCl (s : State) (c ev ctx n j : Nat) : (s.countCl c ev ctx n).cluster j = s.cluster j := by
  simp [State.cluster]

/-- Counting in a cluster leaves a register apart from its counters, their overflow bits and OBS_EVENT. -/
theorem State.reg_countCl_of_ne (s : State) {c ev ctx n : Nat} {g : Reg}
    (hctr : ∀ j, j < 16 → g.addr ≠ (Reg.clCtr c j).addr) (hovf : g.addr ≠ (Reg.clCtrOvf c).addr)
    (hev : g.addr ≠ Reg.obsEvent.addr) : (s.countCl c ev ctx n).reg g = s.reg g := by
  unfold State.countCl
  split
  · rfl
  · refine List.foldlRecOn (motive := fun t : State => t.reg g = s.reg g) _ _ rfl fun t ht j hj => ?_
    split
    · rw [State.reg_bump_of_ne t _ _ (hctr j (List.mem_range.mp hj)) hovf hev, ht]
    · exact ht

end Sys2Proof.Machine

section
open Sys2Proof Sys2Proof.Machine

/-- Settles O13: a rope put back changes its cluster's ropes alone, and a count registers of the cluster alone. -/
theorem retiredFrame : Obligations.RetiredFrame := by
  unfold Obligations.RetiredFrame
  intro s k r hk t
  have ht : t = (s.setRope k.c k.slot r).countCl k.c 2 k.ctx 1 := by
    rw [← State.putRope_of_isSome r hk]
    rfl
  have hown : t.cluster k.c = (s.cluster k.c).setRope k.slot r := by
    rw [ht, State.cluster_countCl, State.cluster_setRope]
  obtain ⟨regs, hregs⟩ := (s.setRope k.c k.slot r).countCl_regs_only k.c 2 k.ctx 1
  refine ⟨?_, fun j hj => ?_, ⟨_, hown⟩, fun c hc => ?_, ⟨regs, _, ht.trans hregs⟩, fun a => ?_, fun g hctr hovf hev => ?_⟩
  · rw [hown, Cluster.setRope, Table.find_insert_self]
  · rw [hown, Cluster.setRope, Table.find_insert, if_neg hj]
  · rw [ht, State.cluster_countCl]
    exact State.cluster_setCluster_of_ne s _ hc
  · simp [ht]
  · rw [ht, State.reg_countCl_of_ne _ hctr hovf hev]
    rfl

end

/-! PROOF. Tokens and CAIRN (06_instruction_set.md R188, R190, R217), and the translation of one address by a
range-cache hit or through the aperture (09_ranges_translation.md R285, R290, R293, R296). -/

namespace Sys2Proof.Machine

variable {s : State} {i : Issue} {k : IssueCtx}

/-! ### TWAIT (06 R190) -/

/-- A count modulo 2^16 is the natural difference with the modulus added. -/
theorem Token.outstanding_eq (x : Token) : x.outstanding = (x.issued.toNat + 2 ^ 16 - x.done.toNat) % 2 ^ 16 := by
  have hi := x.issued.isLt
  have hd := x.done.isLt
  unfold Token.outstanding
  rw [BitVec.toNat_sub]
  omega

/-- A MOD of TWAIT is a token's number, or 16. -/
theorem twait_mod {m : Nat} (hm : m ≤ 16) : bit m 4 = decide (m = 16) ∧ (m ≠ 16 → m % 16 = m) := by
  constructor
  · interval_cases m <;> rfl
  · omega

theorem Party.tokenHolds_iff {p : Party} {m n : Nat} (hm : m ≤ 16) :
    p.tokenHolds m n = true ↔ if m = 16 then ∀ t, t < 16 → (p.token t).outstanding ≤ n
      else (p.token m).outstanding ≤ n := by
  obtain ⟨hbit, hmod⟩ := twait_mod hm
  unfold Party.tokenHolds
  by_cases h : m = 16
  · have hall : bit 16 4 = true := by decide
    simp [hall, h]
  · simp [hbit, h, hmod h]

theorem twait_legal {f : VFmt} (hdst : f.dst = 0) (hsb : f.sb = 0) (hsc : f.sc = 0) (hua : f.ua = false)
    (hub : f.ub = false) (huc : f.uc = false) (hty : f.ty = 0) (hm : f.mod.toNat ≤ 16) :
    (f.clean { sa := true, modMask := 31 } && (!bit f.mod.toNat 4 || f.mod.toNat % 16 == 0)) = true := by
  have hfit : ∀ m ≤ 16, m &&& (1023 - 31) = 0 ∧ (bit m 4 = false ∨ m % 16 = 0) := by decide
  simpa [VFmt.clean, hdst, hsb, hsc, hua, hub, huc, hty] using hfit _ hm

/-- TWAIT goes on where its condition holds, and otherwise leaves the rope waiting. -/
theorem twait_gives {f : VFmt} (h : s.issues i f.guard k) (he : k.e ≠ 0)
    (hl : (f.clean { sa := true, modMask := 31 } && (!bit f.mod.toNat 4 || f.mod.toNat % 16 == 0)) = true) :
    exec (.twait i f) s = .next (if k.party.tokenHolds f.mod.toNat f.sa.toNat then s.retired k k.rope
      else s.placed k { k.rope with wait := .token f.mod.toNat f.sa.toNat }) := by
  obtain ⟨hi, hecc⟩ := h
  rw [exec_twait, execTwait, issue_ok hi hecc hl rfl (.inl rfl) (.inr he)]
  split <;> rfl

/-! ### CAIRN (06 R217) -/

theorem cairn_gives {f : IFmt} {t : State} (h : s.issues i f.guard k) (he : k.e ≠ 0) (hdst : f.dst = 0)
    (hsa : f.sa.toNat < 64) (hres : f.res = false)
    (ht : s.trace (ropeSrc k.c k.slot) 0 k.ctx 0 f.imm.toNat (k.rope.ureg f.sa.toNat).toNat = some t) :
    exec (.cairn i f) s = .next (t.retired k k.rope) := by
  obtain ⟨hi, hecc⟩ := h
  have hl : (!f.res && f.dst == 0 && uLegal f.sa.toNat) = true := by simp [uLegal, hdst, hsa, hres]
  have ht' : s.trace (ropeSrc k.c k.slot) 0 k.ctx kCairn f.imm.toNat (k.rope.ureg f.sa.toNat).toNat = some t := ht
  rw [exec_cairn, execCairn, issueWait_ok hi hecc hl rfl (.inl rfl) (.inr he)]
  simp only [ht', if_true]
  rfl

/-! ### A milestone's signal (06 R188) -/

/-- The party after one of its tokens' milestones. -/
def Party.signalled (p : Party) (n : Nat) : Party :=
  { p with tokens := Table.set .zero p.tokens n { p.token n with done := (p.token n).done + 1 } }

/-- Where no rope of the party waits on a token, no rope goes on. -/
theorem State.wakeTokens_of_none {c party : Nat}
    (h : ∀ e ∈ (s.cluster c).ropes, e.2.party = party → ∀ m a, e.2.wait ≠ .token m a) :
    s.wakeTokens c party = s := by
  unfold State.wakeTokens
  split
  · rfl
  next p _ =>
    have hnone : (s.cluster c).ropesThat (fun r => r.party == party && (match r.wait with
        | .token m n => p.tokenHolds m n
        | _ => false)) = [] := by
      refine List.filter_eq_nil_iff.mpr fun e he => ?_
      by_cases hp : e.2.party = party
      · have hw := h e he hp
        cases hwait : e.2.wait with
        | token m a => exact absurd hwait (hw m a)
        | _ => simp
      · simp [hp]
    exact congrArg (List.foldl _ s) hnone

theorem State.signalToken_eq {c party n : Nat} {p : Party} (hp : Table.find (s.cluster c).parties party = some p)
    (h : ∀ e ∈ (s.cluster c).ropes, e.2.party = party → ∀ m a, e.2.wait ≠ .token m a) :
    s.signalToken c party n = s.setParty c party (p.signalled n) := by
  have hropes : ((s.setParty c party (p.signalled n)).cluster c).ropes = (s.cluster c).ropes := by
    rw [State.cluster_setParty]
    rfl
  simp only [State.signalToken, hp]
  exact State.wakeTokens_of_none (hropes ▸ h)

/-! ### Translation (09 R285, R290, R293, R296) -/

variable {id : RcId} {ctx va : Nat} {n : Need}

/-- A hit ends the translation, with the entry's first lacking permission where one lacks. -/
theorem State.translate_hit_lacking {e : RcEntry} {c : Nat} (hva : va < 2 ^ 55)
    (he : (s.rcache id).lookup ctx va = some e) (hc : e.missing n = some c) :
    s.translate id ctx va n = (s, .fault c e.index) := by
  have hin : ¬2 ^ 56 ≤ va := by omega
  have hbelow : ¬apertureBase ≤ va := by unfold apertureBase; omega
  simp only [State.translate, if_neg hin, if_neg hbelow, he, hc]

theorem State.translate_hit_permitted {e : RcEntry} (hva : va < 2 ^ 55)
    (he : (s.rcache id).lookup ctx va = some e) (hc : e.missing n = none) :
    s.translate id ctx va n = (s, .mem (e.pa + (va - e.start))) := by
  have hin : ¬2 ^ 56 ≤ va := by omega
  have hbelow : ¬apertureBase ≤ va := by unfold apertureBase; omega
  simp only [State.translate, if_neg hin, if_neg hbelow, he, hc]

/-- An aperture address goes to the host where the context's APERTURE and the access allow it. -/
theorem State.translate_aperture (hlo : 2 ^ 55 ≤ va) (hhi : va < 2 ^ 56) :
    s.translate id ctx va n = (s, if apertureOk (s.rf (.xltCtx ctx) .aperture) n then .host (va - 2 ^ 55)
      else .fault 5 0x1FFFF) := by
  have hin : ¬2 ^ 56 ≤ va := by omega
  have haper : apertureBase ≤ va := hlo
  rw [State.translate, if_neg hin, if_pos haper]
  split <;> rfl

theorem RcEntry.missing_eq_none {e : RcEntry} (hr : n.r = true → e.r = true) (hw : n.w = true → e.w = true)
    (hx : n.x = true → e.x = true) : e.missing n = none := by
  unfold RcEntry.missing
  rw [if_neg (by simpa using hr), if_neg (by simpa using hw), if_neg (by simpa using hx)]

theorem RcEntry.missing_read {e : RcEntry} (hn : n.r = true) (hr : e.r = false) : e.missing n = some 1 := by
  simp [RcEntry.missing, hn, hr, causeNoRead]

theorem RcEntry.missing_write {e : RcEntry} (hr : n.r = true → e.r = true) (hn : n.w = true) (hw : e.w = false) :
    e.missing n = some 2 := by
  unfold RcEntry.missing
  rw [if_neg (by simpa using hr), if_pos (by simp [hn, hw])]
  rfl

theorem RcEntry.missing_exec {e : RcEntry} (hr : n.r = true → e.r = true) (hw : n.w = true → e.w = true)
    (hn : n.x = true) (hx : e.x = false) : e.missing n = some 3 := by
  unfold RcEntry.missing
  rw [if_neg (by simpa using hr), if_neg (by simpa using hw), if_pos (by simp [hn, hx])]
  rfl

theorem apertureOk_iff {ap : Nat} : apertureOk ap n = true ↔
    n.aperture = true ∧ n.x = false ∧ (ap = 2 ∨ (ap = 1 ∧ n.w = false)) := by
  simp [apertureOk, and_assoc]

end Sys2Proof.Machine

section
open Sys2Proof Sys2Proof.Machine

/-- Settles O23: the condition of TWAIT is the bound on its counts, and CAIRN retires behind its trace record. -/
theorem tokensAndCairns : Obligations.TokensAndCairns := by
  unfold Obligations.TokensAndCairns
  intro s i k
  refine ⟨fun f h he hdst hsb hsc hua hub huc hty hm => ?_, fun f h he hdst hsa hres t ht =>
    cairn_gives h he hdst hsa hres ht⟩
  intro count holds
  have hgives := twait_gives h he (twait_legal hdst hsb hsc hua hub huc hty hm)
  have hcount : ∀ t, (k.party.token t).outstanding = count t := fun t => Token.outstanding_eq _
  have hiff : k.party.tokenHolds f.mod.toNat f.sa.toNat = true ↔ holds := by
    simp only [Party.tokenHolds_iff hm, hcount]
    exact Iff.rfl
  exact ⟨fun hh => by rw [hgives, if_pos (hiff.mpr hh)], fun hh => by rw [hgives, if_neg (hiff.not.mpr hh)]⟩

/-- Settles O28: with nobody waiting, the signal writes one token of one party. -/
theorem tokenSignal : Obligations.TokenSignal := by
  unfold Obligations.TokenSignal
  intro s c party n p hp hnone t
  have ht : t = s.setParty c party (p.signalled n) := State.signalToken_eq hp hnone
  have hown : t.cluster c = (s.cluster c).setParty party (p.signalled n) := by rw [ht, State.cluster_setParty]
  have hparties : ∀ j, Table.find (t.cluster c).parties j =
      if j = party then some (p.signalled n) else Table.find (s.cluster c).parties j := fun j => by
    rw [hown, Cluster.setParty, Table.find_insert]
  refine ⟨⟨p.signalled n, by rw [hparties, if_pos rfl], rfl, Table.get_set_self _ _ _ _, fun j hj =>
    Table.get_set_of_ne _ _ hj⟩, fun j hj => by rw [hparties, if_neg hj], ⟨_, hown⟩, fun d hd => ?_, ?_⟩
  · rw [ht]
    exact State.cluster_setCluster_of_ne s _ hd
  · rw [ht]
    rfl

/-- Settles O40: a hit ends with the first permission lacking or the address, an aperture address with the host's or
the cause APERTURE. -/
theorem rangeTranslation : Obligations.RangeTranslation := by
  unfold Obligations.RangeTranslation
  intro s id ctx va n
  refine ⟨fun hva e he => ?_, ?_⟩
  · have lacking {c : Nat} := State.translate_hit_lacking (n := n) (c := c) hva he
    exact ⟨fun hr hw hx => State.translate_hit_permitted hva he (RcEntry.missing_eq_none hr hw hx),
      fun hn hr => lacking (RcEntry.missing_read hn hr), fun hr hn hw => lacking (RcEntry.missing_write hr hn hw),
      fun hr hw hn hx => lacking (RcEntry.missing_exec hr hw hn hx)⟩
  · intro hlo hhi ap may
    have haper := State.translate_aperture (s := s) (id := id) (ctx := ctx) (n := n) hlo hhi
    exact ⟨fun hmay => by rw [haper, if_pos (apertureOk_iff.mpr hmay)],
      fun hmay => by rw [haper, if_neg (apertureOk_iff.not.mpr hmay)]⟩

end

/-! PROOF. The bell instructions (06_instruction_set.md R212, Table 6.17; 07_memory_model_bells.md R243, R244). -/

namespace Sys2Proof.Machine

variable {s : State} {i : Issue} {k : IssueCtx} {f : VFmt}

/-- The checks of the bell instructions pass where the fields they use are registers and the others are 0. -/
theorem bellChecks_legal {dst sb timed : Bool} {m : Nat} (hsa : f.sa.toNat < 64) (hsc : f.sc = 0) (hua : f.ua = false)
    (hub : f.ub = false) (huc : f.uc = false) (hty : f.ty = 0) (hmod : f.mod.toNat &&& (1023 - m) = 0)
    (hdst : if dst then f.dst.toNat < 64 else f.dst = 0) (hsb : if sb then f.sb.toNat < 64 else f.sb = 0) :
    (bellChecks f dst sb m timed).legal = true := by
  have hclean : f.clean { dst := dst, sa := true, sb := sb, modMask := m } = true := by
    cases dst <;> cases sb <;> simp_all [VFmt.clean]
  cases dst <;> cases sb <;> simp_all [bellChecks, uLegal]

/-- A bell instruction whose checks pass has its own effect. -/
theorem issue_bell {dst sb timed : Bool} {m : Nat} {body : State → IssueCtx → State} (h : s.issues i f.guard k)
    (he : k.e ≠ 0) (hl : (bellChecks f dst sb m timed).legal = true) (ht : timed = false ∨ k.cx.strict = false) :
    issue i f.guard (bellChecks f dst sb m timed) s body = .next ((body s k).countCl k.c 2 k.ctx 1) := by
  obtain ⟨hi, hecc⟩ := h
  exact issue_ok hi hecc hl rfl ht (.inr he)

theorem ite_bnot {α : Type} (c : Bool) (x y : α) : (if (!c) = true then x else y) = if c = true then y else x := by
  cases c <;> rfl

/-- The scope of a bell instruction is its whole MOD. -/
theorem bell_scope (hm : f.mod.toNat < 4) : f.mod.toNat % 4 = f.mod.toNat := Nat.mod_eq_of_lt hm

theorem bell_mod_wide (hm : f.mod.toNat < 4) : f.mod.toNat &&& (1023 - 3) = 0 := by
  have hfit : ∀ m < 4, m &&& (1023 - 3) = 0 := by decide
  exact hfit _ hm

/-- The value of a bell is its register. -/
@[simp] theorem State.bell_finish (s : State) (k : IssueCtx) (r : Rope) (b : Nat) : (s.finish k r).bell b = s.bell b := by
  rw [State.bell, State.bell, State.reg, State.reg, State.finish_regs]

theorem bellSig_gives (h : s.issues i f.guard k) (he : k.e ≠ 0) (hm : f.mod.toNat < 4)
    (hl : (bellChecks f false true 3 false).legal = true) :
    let b := k.bellIndex f
    let freed := (s.countWide k f.mod.toNat).releaseAt k.c k.ctx f.mod.toNat
    exec (.bellSig i f) s = .next ((if 16384 ≤ b then s.fail k Code.bellRange
      else if freed.bellOk k.ctx b = true then
        (((freed.finish k k.rope).setReg (.bellVal b) (freed.bell b + k.rope.ureg f.sb.toNat)).countPkg 12 0 k.ctx
          1).bellWake b
      else freed.bellRefuse k.c k.slot k.ctx k.rope.pc b).countCl k.c 2 k.ctx 1) := by
  intro b freed
  rw [exec_bellSig, execBellSig, issue_bell h he hl (.inl rfl)]
  simp only [bell_scope hm, State.bellAdd, State.bell_finish, ite_bnot]
  rfl

theorem bellWait_gives (h : s.issues i f.guard k) (he : k.e ≠ 0) (hm : f.mod.toNat < 4)
    (hl : (bellChecks f false true 3 false).legal = true) :
    let b := k.bellIndex f
    let x := k.rope.ureg f.sb.toNat
    let wide := s.countWide k f.mod.toNat
    exec (.bellWait i f) s = .next ((if 16384 ≤ b then s.fail k Code.bellRange
      else if s.bellOk k.ctx b = true then
        if x.toNat ≤ (s.bell b).toNat then ((wide.countPkg 12 0 k.ctx 1).finish k k.rope).acquireAt k.c k.ctx f.mod.toNat
        else (wide.countPkg 12 0 k.ctx 1).putRope k { k.rope with wait := .bell b x f.mod.toNat }
      else wide.bellRefuse k.c k.slot k.ctx k.rope.pc b).countCl k.c 2 k.ctx 1) := by
  intro b x wide
  rw [exec_bellWait, execBellWait, issue_bell h he hl (.inl rfl)]
  simp only [bell_scope hm, ite_bnot]
  rfl

theorem bellRead_gives (h : s.issues i f.guard k) (he : k.e ≠ 0) (hl : (bellChecks f true false 0 true).legal = true)
    (ht : k.cx.strict = false) :
    let b := k.bellIndex f
    exec (.bellRead i f) s = .next ((if 16384 ≤ b then s.fail k Code.bellRange
      else if s.bellOk k.ctx b = true then (s.countPkg 12 0 k.ctx 1).finish k (k.rope.setU f.dst.toNat (s.bell b))
      else s.bellRefuse k.c k.slot k.ctx k.rope.pc b).countCl k.c 2 k.ctx 1) := by
  intro b
  rw [exec_bellRead, execBellRead, issue_bell h he hl (.inr ht)]
  simp only [ite_bnot]
  rfl

theorem bellXchg_gives (h : s.issues i f.guard k) (he : k.e ≠ 0) (hl : (bellChecks f true true 0 true).legal = true)
    (ht : k.cx.strict = false) :
    let b := k.bellIndex f
    exec (.bellXchg i f) s = .next ((if 16384 ≤ b then s.fail k Code.bellRange
      else if s.bellOk k.ctx b = true then
        ((((s.countPkg 12 0 k.ctx 1).finish k (k.rope.setU f.dst.toNat (s.bell b))).setReg (.bellVal b)
          (k.rope.ureg f.sb.toNat)).bellWake b)
      else s.bellRefuse k.c k.slot k.ctx k.rope.pc b).countCl k.c 2 k.ctx 1) := by
  intro b
  rw [exec_bellXchg, execBellXchg, issue_bell h he hl (.inr ht)]
  simp only [ite_bnot]
  rfl

theorem State.bellOk_iff {ctx b : Nat} :
    s.bellOk ctx b = true ↔ s.rf (.bellOwner b) .ctx = ctx ∨ s.rf (.bellOwner b) .ctx = 63 := by
  simp [State.bellOk]

end Sys2Proof.Machine

section
open Sys2Proof Sys2Proof.Machine

/-- Settles O22: each instruction's effect is chosen by the bell's range, its owner, and for BELL.WAIT its value. -/
theorem bellInstructions : Obligations.BellInstructions := by
  unfold Obligations.BellInstructions
  intro s i f k h he hsa hsc hua hub huc hty hm b x scope pulsed counted wide freed
  have hwide : f.dst = 0 → f.sb.toNat < 64 → (bellChecks f false true 3 false).legal = true := fun hdst hsb =>
    bellChecks_legal hsa hsc hua hub huc hty (bell_mod_wide hm) hdst hsb
  have hread : f.mod = 0 → f.dst.toNat < 64 → f.sb = 0 → (bellChecks f true false 0 true).legal = true :=
    fun hz hdst hsb => bellChecks_legal hsa hsc hua hub huc hty (by simp [hz]) hdst hsb
  have hxchg : f.mod = 0 → f.dst.toNat < 64 → f.sb.toNat < 64 → (bellChecks f true true 0 true).legal = true :=
    fun hz hdst hsb => bellChecks_legal hsa hsc hua hub huc hty (by simp [hz]) hdst hsb
  have hpick {t u : State} (e : t = u) :
      (Host.Outcome.next (counted t) : Host.Outcome State Fault Refusal) = .next (counted u) :=
    congrArg (fun t => Host.Outcome.next (counted t)) e
  have hsig := bellSig_gives h he hm
  have hwait := bellWait_gives h he hm
  have hrd := bellRead_gives h he
  have hxc := bellXchg_gives h he
  refine ⟨fun hb => ?_, fun hb => ?_, fun t n ht => State.bellWake_of_unawaited ht, fun t ctx n => State.bellOk_iff⟩
  · have hin : ¬16384 ≤ k.bellIndex f := Nat.not_le.mpr hb
    simp only [if_neg hin] at hsig hwait hrd hxc
    refine ⟨fun hdst hsb => ?_, fun hz hdst ht => ?_⟩
    · have hl := hwide hdst hsb
      refine ⟨fun hok => ?_, fun hok => ?_, fun hok hle => ?_, fun hok hlt => ?_, fun hok => ?_⟩
      · exact (hsig hl).trans (hpick (if_pos hok))
      · exact (hsig hl).trans (hpick (if_neg (Bool.eq_false_iff.mp hok)))
      · exact (hwait hl).trans (hpick ((if_pos hok).trans (if_pos hle)))
      · exact (hwait hl).trans (hpick ((if_pos hok).trans (if_neg (Nat.not_le.mpr hlt))))
      · exact (hwait hl).trans (hpick (if_neg (Bool.eq_false_iff.mp hok)))
    · refine ⟨fun hok => ⟨k.rope.setU f.dst.toNat (s.bell b), Rope.setU_wrote _ _ _, fun hsb => ?_, fun hsb => ?_⟩,
        fun hok => ⟨fun hsb => ?_, fun hsb => ?_⟩⟩
      · exact (hrd (hread hz hdst hsb) ht).trans (hpick (if_pos hok))
      · exact (hxc (hxchg hz hdst hsb) ht).trans (hpick (if_pos hok))
      · exact (hrd (hread hz hdst hsb) ht).trans (hpick (if_neg (Bool.eq_false_iff.mp hok)))
      · exact (hxc (hxchg hz hdst hsb) ht).trans (hpick (if_neg (Bool.eq_false_iff.mp hok)))
  · have hout : 16384 ≤ k.bellIndex f := hb
    simp only [if_pos hout] at hsig hwait hrd hxc
    exact ⟨fun hdst hsb => ⟨hsig (hwide hdst hsb), hwait (hwide hdst hsb)⟩,
      fun hz hdst ht => ⟨fun hsb => hrd (hread hz hdst hsb) ht, fun hsb => hxc (hxchg hz hdst hsb) ht⟩⟩

end

/-! PROOF. Two counterexamples: an access of the local store past its bound where a cluster lists a slot twice
(06_instruction_set.md R200, R220), and a wide fence that is counted (06 R206; 20_observation_and_test.md R571). -/

namespace Sys2Proof.Machine

/-- The fault takes the first rope of slot 0 away; the second stalls, so the model counts no issue, and counting one
more shows. -/
theorem issuedAfter_lsBounds_twiceListed :
    issuedAfter (.next ((twiceListed.fail (smallIssue offsetRope) Code.lsBounds).countCl 0 2 0 1)) = some 1 := by
  decide +kernel

/-- A package that runs, with one rope and an empty L1 on cluster 0. FENCE_WIDE counts in counter 0. -/
def fenceCounted : State :=
  let s := smallState [(0, smallRope)]
  (((s.setRf .obsCtrCtl .enable 1).setRf (.clCtrSel 0 0) .en 1).setRf (.clCtrSel 0 0) .event 14).setRf (.clCtrSel 0 0)
    .ctx 63

/-- FENCE of a release at device scope. -/
def releaseDevice : MFmt := ⟨false, false, 0, 0, 0, false, false, 2, 0, 1, 0, 0⟩

/-- The number that names, in the spacing of the bells' values, the address of counter 0 of cluster 0. -/
def counterAsBell : Nat := 0x180101

theorem counterAsBell_addr : (Reg.bellVal counterAsBell).addr = (Reg.clCtr 0 0).addr := rfl

end Sys2Proof.Machine

section
open Sys2Proof Sys2Proof.Machine

/-- Refutes O14 at its clause for an access past the bound, which counts the issue of the LD (log 136): the statement
does not ask that a cluster lists each slot once. Where slot 0 is listed twice, the rope that the fault leaves there
is stalled, and the model does not count the attempt of a rope that stalls. -/
theorem not_loadsStoresLocal : ¬ Obligations.LoadsStoresLocal := by
  unfold Obligations.LoadsStoresLocal
  intro h
  obtain ⟨-, -, -, hfault⟩ := h twiceListed slot0 (atU0 0 5000) (smallIssue offsetRope) ⟨rfl, rfl⟩ rfl rfl (by decide)
    (fun hlidx => absurd hlidx (by decide)) (by unfold operandsFit inReach; decide)
  have houtside : ¬ ∀ l ∈ lanes (smallIssue offsetRope).e, offsetRope.addrOf (atU0 0 5000) 5000 0 l + 1 ≤ 4 * 1024 := by
    decide
  have hstated := (hfault houtside).1 (by decide)
  have huncounted : issuedAfter (exec (.ld slot0 (atU0 0 5000)) twiceListed) = some 0 := by decide +kernel
  rw [hstated] at huncounted
  exact absurd (issuedAfter_lsBounds_twiceListed.symm.trans huncounted) (by decide)

/-- Refutes O21 at its last line, which keeps the value register of every bell number: the statement does not ask that
the number is below 16,384, and the register of a larger one can lie at the address of a cluster's counter, which a
wide fence counts on. -/
theorem not_fences : ¬ Obligations.Fences := by
  unfold Obligations.Fences
  intro h
  obtain ⟨-, hwide, -⟩ := h fenceCounted slot0 releaseDevice (smallIssue smallRope) ⟨rfl, rfl⟩ (by decide) (by decide)
    rfl rfl rfl rfl rfl rfl rfl
  obtain ⟨-, -, hkeeps⟩ := hwide (by decide)
  have hempty : (fenceCounted.cluster (smallIssue smallRope).c).l1 = [] := by decide +kernel
  obtain ⟨-, -, hregs⟩ := hkeeps fun l hl => absurd (hempty ▸ hl) List.not_mem_nil
  obtain ⟨hkept, -⟩ := hregs 0 counterAsBell
  exact absurd hkept (by decide +kernel)

end

/-! PROOF. The Haul instructions at issue (06_instruction_set.md R189, R210, R211, Table 6.16;
08_tensor_descriptors_haul.md R275). -/

namespace Sys2Proof.Machine

variable {s : State} {i : Issue} {f : VFmt} {k : IssueCtx}

theorem State.modHaul_congr {c : Nat} {g g' : HaulEngine → HaulEngine}
    (h : g (s.cluster c).haul = g' (s.cluster c).haul) : s.modHaul c g = s.modHaul c g' := by
  simp only [State.modHaul, h]

/-- The state once a rope's Haul operation stands in its cluster's queue, under token `tok`. -/
def State.haulQueued (s : State) (k : IssueCtx) (tok : Nat) (kind : HaulKind) (src idx dst : Nat) : State :=
  (((s.setParty k.c k.rope.party (k.party.takeToken tok .haul)).modHaul k.c fun h =>
    { h with queue := h.queue ++ [⟨kind, src, idx, dst, k.rope.party, k.slot, k.ctx, k.rope.pc, tok, false, 0, h.nextId,
        false, [], 0⟩]
             nextId := h.nextId + 1 }).finish k k.rope).countCl k.c 2 k.ctx 1

/-- A Haul instruction may queue: its token is no other engine's and not full, and the queue has room. -/
structure IssueCtx.MayHaul (k : IssueCtx) (s : State) (tok : Nat) : Prop where
  unmixed : k.party.tokenMix tok .haul = false
  notFull : (k.party.token tok).outstanding ≠ 255
  room : (s.cluster k.c).haul.queue.length < 32

/-- A Haul instruction whose checks pass and whose descriptor addresses are multiples of 128 queues its operation. -/
theorem haulIssue_gives {ck : Checks} {kind : Rope → HaulKind} {vas : Rope → Nat × Option Nat × Nat}
    {src dst : Nat} {idx : Option Nat} (h : s.issues i f.guard k) (he : k.e ≠ 0)
    (hmay : k.MayHaul s (f.mod.toNat % 16)) (hl : ck.legal = true) (hr : ck.range k.party.par.vregs = true)
    (ht : ck.timed = false) (hv : vas k.rope = (src, idx, dst)) (hsrc : src % 128 = 0) (hidx : idx.getD 0 % 128 = 0)
    (hdst : dst % 128 = 0) :
    haulIssue i f ck s kind vas = .next (s.haulQueued k (f.mod.toNat % 16) (kind k.rope) src (idx.getD 0) dst) := by
  obtain ⟨hi, hecc⟩ := h
  obtain ⟨hmix, hfull, hroom⟩ := hmay
  have haligned : ¬(src % 128 ≠ 0 ∨ idx.getD 0 % 128 ≠ 0 ∨ dst % 128 ≠ 0) := by omega
  have hplace : ¬(decide (32 ≤ (s.cluster k.c).haul.queue.length) || k.tokenFull (f.mod.toNat % 16)) = true := by
    simp [IssueCtx.tokenFull, hfull, hroom]
  have hmixed : ¬k.party.tokenMix (f.mod.toNat % 16) .haul = true := Bool.eq_false_iff.mp hmix
  rw [haulIssue, issueWait_ok hi hecc hl hr (.inl ht) (.inr he)]
  simp only [hv, if_neg hmixed, if_neg haligned, if_neg hplace, if_true, State.haulQueued]
  rw [State.modHaul_congr]
  rw [State.cluster_setParty]
  rfl

/-- The checks of a Haul instruction pass where its fields name registers and the others are 0. -/
theorem haulChecks_legal {sc pair ok : Bool} {m : Nat} (hdst : f.dst = 0) (hua : f.ua = false) (hub : f.ub = false)
    (huc : f.uc = false) (hty : f.ty = 0) (hsa : f.sa.toNat < 64) (hsb : f.sb.toNat < 64)
    (hsc : if sc then f.sc.toNat < 64 else f.sc = 0) (hpair : pair = true → f.sc.toNat % 2 = 0)
    (hmod : f.mod.toNat &&& (1023 - m) = 0) (hok : ok = true) : (haulChecks f sc pair m ok).legal = true := by
  have hclean : f.clean { sa := true, sb := true, sc := sc, modMask := m } = true := by
    cases sc <;> simp_all [VFmt.clean]
  have hfields : (!sc || uLegal f.sc.toNat) = true := by cases sc <;> simp_all [uLegal]
  have heven : (!pair || f.sc.toNat % 2 == 0) = true := by cases pair <;> simp_all
  have hregs : (uLegal f.sa.toNat && uLegal f.sb.toNat) = true := by simp [uLegal, hsa, hsb]
  simp only [haulChecks, Bool.and_assoc, hclean, hregs, hfields, heven, hok, Bool.and_self]

end Sys2Proof.Machine

section
open Sys2Proof Sys2Proof.Machine

/-- Settles O26: the six instructions share one issue, and differ in the operation and its three addresses. -/
theorem haulInstructions : Obligations.HaulInstructions := by
  unfold Obligations.HaulInstructions
  intro s i f k h he hdst hua hub huc hty hsa hsb reg tok second hmix hfull hroom hsrc hb
  have hmay : k.MayHaul s (f.mod.toNat % 16) := ⟨hmix, hfull, hroom⟩
  have hlegal {sc pair ok : Bool} {m : Nat} := haulChecks_legal (sc := sc) (pair := pair) (ok := ok) (m := m) hdst hua
    hub huc hty hsa hsb
  have hmask {m n : Nat} (hm : f.mod.toNat < 2 ^ n) (hd : 2 ^ n ∣ 1023 - m) : f.mod.toNat &&& (1023 - m) = 0 :=
    and_eq_zero_of_lt hm hd
  refine ⟨k.party.takeToken tok .haul, rfl, Party.token_takeToken_self _ _ _, fun n hn =>
    Party.token_takeToken_of_ne _ _ hn, fun hsc hm => ?copy, fun hsc hm hc => ?gather, fun hsc hm hc => ?scatter,
    fun hsc hm => ?red, fun hsc heven hm => ?put, fun hsc hm => ?get⟩
  case copy =>
    rw [exec_haulCopy, execHaulCopy, haulIssue_gives h he hmay (hlegal (sc := false) (pair := false) hsc nofun
      (hmask (n := 4) hm (by decide)) rfl) rfl rfl rfl hsrc rfl hb]
    rfl
  case gather =>
    rw [exec_haulGather, execHaulGather, haulIssue_gives (idx := some (reg f.sb)) h he hmay (hlegal (sc := true)
      (pair := false) hsc nofun (hmask (n := 4) hm (by decide)) rfl) rfl rfl rfl hsrc hb hc]
    rfl
  case scatter =>
    rw [exec_haulScatter, execHaulScatter, haulIssue_gives (idx := some (reg f.sb)) h he hmay (hlegal (sc := true)
      (pair := false) hsc nofun (hmask (n := 5) hm (by decide)) rfl) rfl rfl rfl hsrc hb hc]
    rfl
  case red =>
    have hop : bits f.mod.toNat 4 2 = f.mod.toNat / 16 := bits_eq_div (by omega)
    have hsum : (bits f.mod.toNat 4 2 != 3) = true := by
      rw [hop, bne_iff_ne]
      omega
    rw [exec_haulRed, execHaulRed, haulIssue_gives h he hmay (hlegal (sc := false) (pair := false) hsc nofun
      (hmask (n := 6) (by omega) (by decide)) hsum) rfl rfl rfl hsrc rfl hb, hop]
    rfl
  case put =>
    have hregion : bits second 32 32 = second / 2 ^ 32 := bits_eq_div (k.rope.ureg (f.sc.toNat + 1)).isLt
    rw [← hregion, exec_haulPut, execHaulPut, haulIssue_gives h he hmay (hlegal (sc := true) (pair := true) hsc
      (fun _ => heven) (hmask (n := 4) hm (by decide)) rfl) rfl rfl rfl hsrc rfl hb]
    rfl
  case get =>
    rw [exec_haulGet, execHaulGet, haulIssue_gives h he hmay (hlegal (sc := true) (pair := false) hsc nofun
      (hmask (n := 4) hm (by decide)) rfl) rfl rfl rfl hsrc rfl hb]
    rfl

end

/-! PROOF. Walks, invalidations, owners, fault records and held faults (09_ranges_translation.md R289, R295, R303,
R304, R306, R311 to R313). -/

namespace Sys2Proof.Machine

variable {s : State}

/-! ### WALK (R289, R295) -/

@[simp] theorem State.rcUpset_none (id : RcId) (ctx va : Nat) : s.rcUpset id ctx va .none = s := rfl

section

variable {a : XltAgent} {ctx va need : Nat} (hready : s.ready = true) (hctx : ctx < 63) (hva : va < 2 ^ 56)
  (hcarries : s.carries a ctx = true) (hstall : s.agentStalled a = false)
include hready hctx hva hcarries hstall

theorem walk_open : ¬(!s.ready || decide (63 ≤ ctx) || decide (2 ^ 56 ≤ va) || !s.carries a ctx ||
    s.agentStalled a) = true := by
  simp only [hready, hcarries, hstall, Nat.not_le.mpr hctx, Nat.not_le.mpr hva, decide_false, Bool.not_true,
    Bool.or_false, Bool.false_eq_true, not_false_eq_true]

theorem execWalk_fault {s1 : State} {cause entry : Nat}
    (h : s.translate a.cache ctx va (needOf need) = (s1, .fault cause entry)) :
    execWalk a ctx va need .none s =
      .next ((s1.xltFault ⟨a, need % 8, cause, ctx, va, entry⟩).stallAgent a (ctx, blockOf va)) := by
  rw [execWalk, if_neg (walk_open hready hctx hva hcarries hstall)]
  simp only [State.rcUpset_none, h]

theorem execWalk_translated {s1 : State} {x : Xlat} (h : s.translate a.cache ctx va (needOf need) = (s1, x))
    (hx : ∀ c e, x ≠ .fault c e) : execWalk a ctx va need .none s = .next s1 := by
  rw [execWalk, if_neg (walk_open hready hctx hva hcarries hstall)]
  cases x with
  | mem pa => simp only [State.rcUpset_none, h]
  | host addr => simp only [State.rcUpset_none, h]
  | fault c e => exact absurd rfl (hx c e)

end

/-! ### INVALIDATION and APPLY_OWNER (R303, R306) -/

/-- Every master but the Reeve reaches the translation registers. -/
theorem xlt_open {m : Master} (hready : s.ready = true) (hm : m ≠ .reeve) :
    ¬(!s.ready || !Block.xlt.reached m) = true := by
  have hreach : Block.xlt.reached m = true := by
    cases m with
    | host => rfl
    | core n => rfl
    | reeve => exact absurd rfl hm
  simp [hready, hreach]

theorem execInvalidation_of_reached {m : Master} (v : Word) (hready : s.ready = true) (hm : m ≠ .reeve) :
    execInvalidation m v s = .next (s.invWrite v) := if_neg (xlt_open hready hm)

theorem execApplyOwner_of_reached {m : Master} (v : Word) (hready : s.ready = true) (hm : m ≠ .reeve) :
    execApplyOwner m v s = .next (s.ownWrite v) := if_neg (xlt_open hready hm)

section

variable {v : Word}

theorem State.invWrite_busy (h : s.invBusy = true) : s.invWrite v = s.satRf .xltStatus .invRefused 1 := if_pos h

theorem State.invWrite_idle (h : s.invBusy = false) :
    s.invWrite v =
      let s1 := (s.setRf .xltInvCtrl .all (fld v 61 1)).setRf .xltInvCtrl .ctx (fld v 32 6)
      if v.getLsbD 63 = true then s1.startInv (fld v 32 6) (v.getLsbD 61) (s.rf .xltInvStart .start * 65536)
        (s.rf .xltInvLen .len * 65536) none
      else s1 := if_neg (Bool.eq_false_iff.mp h)

theorem State.ownWrite_busy (h : s.rbit .xltOwnCtrl .busy = true) :
    s.ownWrite v = s.satRf .xltStatus .ownRefused 1 := if_pos h

theorem State.ownWrite_idle (h : s.rbit .xltOwnCtrl .busy = false) :
    s.ownWrite v =
      let s1 := ((s.setRf .xltOwnCtrl .owner (fld v 48 6)).setRf .xltOwnCtrl .count (fld v 19 19)).setRf .xltOwnCtrl
        .first (fld v 0 19)
      if v.getLsbD 63 = true then { s1.setRf .xltOwnCtrl .busy 1 with
        xlt := { s1.xlt with ownPending := some (fld v 0 19, fld v 19 19, fld v 48 6) } }
      else s1 := if_neg (Bool.eq_false_iff.mp h)

end

theorem execApplyOwnerDone_pending {first count o : Nat} (hready : s.ready = true)
    (h : s.xlt.ownPending = some (first, count, o)) :
    let n := min count (491520 - first)
    execApplyOwnerDone s = .next (({ s with xlt := { s.xlt with
      owners := if n = 0 then s.xlt.owners else (first, n, o) :: s.xlt.owners
      ownPending := none } } : State).setRf .xltOwnCtrl .busy 0) := by
  have hopen : ¬(!s.ready) = true := by simp [hready]
  simp only [execApplyOwnerDone, h, if_neg hopen]

/-! ### RETRY and FATAL (R312, R313) -/

section

variable {m : Master} {v : Word} {r : XfRec} (hready : s.ready = true) (hr : Table.find s.xlt.recs (fld v 0 8) = some r)
include hready hr

theorem execRetry_frees (hv : v.getLsbD 63 = false) :
    let s1 : State := { s with xlt := { s.xlt with recs := Table.erase s.xlt.recs (fld v 0 8) } }
    execRetry m v s = .next (((s1.resumeAgents r.ctx (blockOf r.va)).retryFrames r.ctx (blockOf r.va)).collRunAll) := by
  have hopen : ¬(!s.ready || bit v.toNat 63) = true := by
    have hbit : bit v.toNat 63 = false := hv
    simp [hready, hbit]
  rw [execRetry, if_neg hopen]
  simp only [State.resolve, hr, Bool.false_eq_true, if_false]

theorem execFatal_frees (hv : v.getLsbD 63 = true) :
    let s1 : State := { s with xlt := { s.xlt with recs := Table.erase s.xlt.recs (fld v 0 8) } }
    execFatal m v s = .next ((s1.refuseHeld r.ctx (blockOf r.va)).ctxFail r.ctx Code.xltFatal
      { s.agentInfo r.agent with addr := r.va, addrKind := 1, detail := r.seq } none) := by
  have hopen : ¬(!s.ready || !bit v.toNat 63) = true := by
    have hbit : bit v.toNat 63 = true := hv
    simp [hready, hbit]
  rw [execFatal, if_neg hopen]
  simp only [State.resolve, hr, if_true]

end

/-! ### DRAIN (R304) -/

/-- The state once a range cache has dropped the entries, and its cluster the L1 lines, that an invalidation meets. -/
def State.rcDrained (s : State) (id : RcId) (i : Invalidation) : State :=
  let k := s.rcache id
  let s1 := s.setRcache id { k with entries := k.entries.filter fun e => !i.meets e.2.ctx e.2.start e.2.len }
  match id with
  | .cluster c => s1.drainL1 c i
  | .square => s1

section

variable {i : Invalidation} {id : RcId} (hready : s.ready = true) (hinv : s.xlt.inv = some i) (hid : id.num < 705)
  (hacked : i.acked.contains id.num = false)
include hready hid hacked

theorem drain_open : ¬(!s.ready || i.acked.contains id.num || decide (705 ≤ id.num)) = true := by
  simp only [hready, hacked, Nat.not_le.mpr hid, decide_false, Bool.not_true, Bool.or_false, Bool.false_eq_true,
    not_false_eq_true]

include hinv

theorem execDrain_pending (hmore : (setInsert i.acked id.num).length < 705) : execDrain id s =
    .next { s.rcDrained id i with xlt := { (s.rcDrained id i).xlt with
      inv := some { i with acked := setInsert i.acked id.num } } } := by
  simp only [execDrain, hinv, if_neg (drain_open hready hid hacked), if_pos hmore]
  rfl

/-- The state once the last range cache has acknowledged an invalidation. -/
def State.invEnded (s : State) (id : RcId) (i : Invalidation) : State :=
  (({ s.rcDrained id i with xlt := { (s.rcDrained id i).xlt with inv := none } } : State).setRf .xltInvCtrl
    .busy 0).wrapRf .xltInvCtrl .doneSeq 1

theorem execDrain_last (hlast : 705 ≤ (setInsert i.acked id.num).length) :
    (i.cmd = none → execDrain id s = .next (s.invEnded id i)) ∧
      ∀ q n, i.cmd = some (q, n) → execDrain id s = .next ((s.invEnded id i).endCmd q n stOk 0 0) := by
  refine ⟨fun hc => ?_, fun q n hc => ?_⟩ <;>
    simp only [execDrain, hinv, if_neg (drain_open hready hid hacked), if_neg (Nat.not_lt.mpr hlast), hc]
  · rfl
  · rfl

end

/-! ### HELD_FAULT_ADMIT (R311) -/

theorem execHeldFaultAdmit_admits {h : HeldFault} {s1 : State} (hready : s.ready = true)
    (hnext : s.xlt.nextHeld = some h) (hroom : s.xlt.recs.length < 256) (hadmit : s.admitFault h = some s1) :
    execHeldFaultAdmit s = .next (({ s1 with xlt := { s1.xlt with
      held := s1.xlt.held.erase h, lastAdmitted := agentNumber h.agent } } : State).portNext h.agent) := by
  have hopen : ¬(!s.ready || decide (256 ≤ s.xlt.recs.length)) = true := by simp [hready, hroom]
  simp only [execHeldFaultAdmit, hnext, if_neg hopen, hadmit]

end Sys2Proof.Machine

section
open Sys2Proof Sys2Proof.Machine

/-- Settles O39: in a package that runs, each event has the branch of its guard alone. -/
theorem translationRows : Obligations.TranslationRows := by
  unfold Obligations.TranslationRows
  intro s hready
  refine ⟨fun a ctx va need hctx hva hcarries hstall => ⟨fun s1 cause entry htr => ?faulted, fun s1 x htr hx => ?walked⟩,
    fun m v hm => ?registers, fun i hi id hid hacked => ?drain, fun first count o hpending => ?owners,
    fun h s1 hnext hroom hadmit => ?held⟩
  case faulted =>
    rw [exec_walk]
    exact execWalk_fault hready hctx hva hcarries hstall htr
  case walked =>
    rw [exec_walk]
    exact execWalk_translated hready hctx hva hcarries hstall htr hx
  case registers =>
    have hinv := execInvalidation_of_reached (s := s) v hready hm
    have hown := execApplyOwner_of_reached (s := s) v hready hm
    simp only [exec_invalidation, exec_applyOwner, exec_retry, exec_fatal, hinv, hown]
    refine ⟨fun hb => ?_, fun hb hgo => ?_, fun hb hgo => ?_, fun hb => ?_, fun hb => ⟨fun hgo => ?_, fun hgo => ?_⟩,
      fun r hr => ⟨execRetry_frees hready hr, execFatal_frees hready hr⟩⟩
    · rw [State.invWrite_busy hb]
    · simp only [State.invWrite_idle hb, hgo, if_true]
    · simp only [State.invWrite_idle hb, hgo, Bool.false_eq_true, if_false]
    · rw [State.ownWrite_busy hb]
    · simp only [State.ownWrite_idle hb, hgo, Bool.false_eq_true, if_false]
    · simp only [State.ownWrite_idle hb, hgo, if_true]
  case drain =>
    rw [exec_drain]
    exact ⟨execDrain_pending hready hi hid hacked, execDrain_last hready hi hid hacked⟩
  case owners =>
    rw [exec_applyOwnerDone]
    exact execApplyOwnerDone_pending hready hpending
  case held =>
    rw [exec_heldFaultAdmit]
    exact execHeldFaultAdmit_admits hready hnext hroom hadmit

end
